-- ==== Sys2Proof/Word.lean ====
section
/-! DEFINITION. The words of the model: the widths the manual uses, and byte strings. -/

namespace Sys2Proof

/-- A byte of a frame, packet, message or object value. -/
abbrev Byte := BitVec 8
/-- A byte string, first byte first (R7). -/
abbrev Bytes := List Byte
abbrev W16 := BitVec 16
abbrev W32 := BitVec 32
abbrev W64 := BitVec 64
/-- An AES block, byte 0 in bits [127:120]. -/
abbrev Block := BitVec 128
/-- A key slot value (Table 6.8). -/
abbrev KeyVal := BitVec 256

end Sys2Proof
end

