-- ==== Sys2Proof/Syntax.lean ====
section
/-! DEFINITION. The commands of the block: one constructor per row of spec/opcode_table.json, with the values each
arrives with at the block boundary. -/

namespace Sys2Proof

abbrev Port := Fin 32
abbrev Trunk := Fin 2
abbrev Chan := Fin 2
abbrev Region := Fin 8

/-- Who sends a dictionary access (R11, R457): a host master with hp_sec and hp_priv, or the plain field network. -/
inductive Master where
  | host (sec : Bool) (priv : BitVec 2)
  | dn
  deriving DecidableEq, Repr

/-- The two input sides of a Port Shim: `fi` from the fabric (leaves on wo_), `wi` from the MAC (leaves on fo_). -/
inductive Side where
  | fi | wi
  deriving DecidableEq, Repr

/-- One word accepted on a frame port (Table 2.1). -/
structure FrameWord where
  data : W64
  sop : Bool
  eop : Bool
  nbytes : BitVec 4
  err : Bool
  deriving DecidableEq, Repr

/-- One word accepted on tf_tx_ (Table 2.4). -/
structure TfWord where
  data : BitVec 256
  sop : Bool
  eop : Bool
  nbytes : BitVec 6
  vc : BitVec 2
  dst : W16
  err : Bool
  deriving DecidableEq, Repr

/-- One 32-bit word with its framing marks (dn_rx_, wake_fr_). -/
structure MsgWord where
  data : W32
  first : Bool
  last : Bool
  deriving DecidableEq, Repr

/-- Association slots of a context (Table 4.1). -/
inductive SlotId where
  | A | B
  deriving DecidableEq, Repr

/-- The tables of 0x3400.01 (Table 5.7). -/
inductive TableSel where
  | stream | station | pfx
  deriving DecidableEq, Repr

/-- The two moments of a request that takes time: its write, and its completion or a restart of its work. -/
inductive ReqEvent where
  | write (m : Master)
  | covered   -- a value that CFG covers changed after it was read (R250)
  | done      -- the work is complete
  deriving DecidableEq, Repr

/-- The two key objects of a trunk (Table 9.12). -/
inductive TrunkKeySel where
  | key | nextKey
  deriving DecidableEq, Repr

/-- The two transfer directions of a trunk. -/
inductive LaneDir where
  | tx | rx
  deriving DecidableEq, Repr

/-- What a physical lane finds at a block boundary (R352). -/
inductive MarkerFind where
  | own        -- M_l at the expected offset
  | other      -- M_m with m ≠ l
  | missing    -- no marker
  deriving DecidableEq, Repr

/-- How a power handshake goes wrong (R99). -/
inductive HandshakeFault where
  | timeout
  | wrongValue (v : BitVec 3)
  deriving DecidableEq, Repr

/-- A wake cause presented as a level or an event of its own (Table 12.4, bits [8:5]). -/
inductive WakeSource where
  | wakeIn (i : Fin 4)
  | memory | host | fieldNetwork
  deriving DecidableEq, Repr

/-- Heavy operations (Table 12.6). -/
inductive HeavyOp where
  | derivation
  | signing
  | remask
  | rebuild
  | renorm (k : Chan)
  | regionOp (r : Region)
  | fullBist
  | spareBist
  | training (t : Trunk)
  deriving DecidableEq, Repr

/-- A recognised edge of a pps_in pin (R404). -/
structure InputEdge where
  input : Fin 2
  rising : Bool
  deriving DecidableEq, Repr

/-- The part of a USDO message that this engine acts on (R467): initiate, segment, abort, or a command it lacks. -/
inductive UsdoReq where
  | downloadInit (index : W16) (sub : Byte) (size : Nat) (data : Bytes) (expedited : Bool)
  | downloadSegment (data : Bytes) (last : Bool)
  | uploadInit (index : W16) (sub : Byte)
  | uploadSegment
  | abort
  | unsupported
  deriving DecidableEq, Repr

/-- The commands, in the order of the table. -/
inductive Instr where
  | coldReset
  | warmReset (tableRunning : Bool)
  | testModeEntry
  | clockMonitorWindow (count : W32)
  | aonClockFault
  /-- A pair of reads of a word; with no `d2`, fz_ack has moved and fz_req has followed, and the pair is not complete (R94). -/
  | fuseRead (d1 : W32) (e1 : Bool) (d2 : Option W32) (e2 : Bool)
  | fuseTimeout
  | txFrame (port : Port) (words : List FrameWord)
  | rxFrame (port : Port) (words : List FrameWord)
  | frameGapTimeout (port : Port) (side : Side)
  | inputUnderrun (port : Port) (side : Side)
  | frameRelease (port : Port) (side : Side)
  | lateBinding (port : Port)
  | rxVerdict (port : Port)
  | frameSettle (port : Port) (side : Side)
  | portStuck (port : Port) (side : Side)
  | periodBoundary (ctx : Fin 8192)
  | portControlWrite (m : Master) (port : Port) (value : W64)
  | portDisable (m : Master) (port : Port)
  | contextEnable (m : Master) (value : W64)
  | associationInstall (m : Master) (slot : SlotId) (value : W64)
  | associationClear (m : Master) (slot : SlotId) (value : W64)
  | tableInsert (m : Master) (table : TableSel)
  | tableDelete (m : Master) (table : TableSel)
  | tableRead (m : Master) (table : TableSel)
  | tableReplace (m : Master) (table : TableSel)
  | descriptorWrite (m : Master) (n : Fin 16) (value : W32)
  | learningRequest
  | classifierSecond
  | shadowPassStart
  | shadowPassEnd (table : TableSel)
  | rebuild (m : Master) (value : W32)
  | rebuildSwitch
  | stagingOpen (m : Master) (value : W32)
  | stagingWordWrite (m : Master) (word : Fin 9) (value : W32)
  | commit (m : Master)
  | abort (m : Master)
  | stagingTimeout
  | invalidate (m : Master) (key : W16)
  | staleWalk
  | zeroizeSlot (m : Master) (key : W16)
  | zeroizeMainBank (m : Master)
  | zeroizeRetentionBank (m : Master)
  | zeroizeBothBanks (m : Master)
  | bankOverwriteDone
  | derivationStart (m : Master)
  | derivationTargetCommit
  | remaskPeriodExpiry
  | remaskingSweep
  | drbgInstantiate (m : Master) (testsPass : Bool)
  | drbgReseed (m : Master)
  | reseedInterval
  | entropySample (sample : W32)
  | entropyAbsent
  | drbgOutputRead (m : Master)
  | nativeResponse (e : ReqEvent)
  | compatibilityReport (e : ReqEvent)
  | publicKey (e : ReqEvent)
  | extend (m : Master) (data : Bytes)
  | memoryRead (ch : Chan) (addr : BitVec 34) (id : BitVec 12)
  | memoryWrite (ch : Chan) (addr : BitVec 34) (id : BitVec 12) (data : BitVec 512) (mask : W64)
  | mcResponse (ch : Chan) (id : BitVec 10) (data : BitVec 512) (status : BitVec 2)
  | mcTimeout (ch : Chan) (id : BitVec 10)
  | renormalisation (ch : Chan)
  | renormalisationCommit (ch : Chan)
  | cacheEviction (set : Fin 2048) (way : Fin 16)
  | regionEnable (m : Master) (r : Region) (value : W64)
  | regionDisable (m : Master) (r : Region)
  | initialise (m : Master) (r : Region)
  | initialisationComplete (r : Region)
  | reseed (m : Master) (r : Region) (level : BitVec 3) (node : BitVec 24)
  | reseedComplete (r : Region)
  | rekey (m : Master) (r : Region)
  | rekeyComplete (r : Region)
  | tfTxPayload (t : Trunk) (words : List TfWord)
  | payloadNumbering (t : Trunk) (vc : BitVec 2)
  | unitBoundary (t : Trunk)
  | ackFlitDue (t : Trunk)
  | replayTimerExpiry (t : Trunk)
  | groupReceived (t : Trunk) (lanes : List (List (BitVec 64)))
  | tfRxPresent (t : Trunk) (ready : BitVec 4) (taken : Nat)
  | trunkReceiveStuck (t : Trunk)
  | trunkKeyWrite (m : Master) (t : Trunk) (which : TrunkKeySel) (key : W16)
  | releaseNextKey (m : Master) (t : Trunk)
  | trunkEnable (m : Master) (t : Trunk)
  | trunkDisable (m : Master) (t : Trunk)
  | retrain (m : Master) (t : Trunk)
  | ts1Received (t : Trunk) (flit : Bytes)
  | ts2Received (t : Trunk) (flit : Bytes)
  | confirmDrained (t : Trunk)
  | ts3Received (t : Trunk) (flit : Bytes)
  | lstatReceived (t : Trunk) (flit : Bytes)
  | laneAlignment (t : Trunk) (lane : Fin 8) (find : MarkerFind)
  | sessionStart (t : Trunk)
  | trainTimeout (t : Trunk)
  | backoffExpiry (t : Trunk)
  | errorWindow (t : Trunk)
  | laneUnlock (t : Trunk) (lane : Fin 8)
  | laneFifoFault (t : Trunk) (lane : Fin 8) (dir : LaneDir)
  | standbyLaneAdd (t : Trunk)
  | laneSwitch (t : Trunk) (dir : LaneDir)
  | creditTimeout (t : Trunk)
  | trunkCreditStarved (t : Trunk) (vc : BitVec 2)
  | trunkPeriodBoundary (t : Trunk)
  | offsetWrite (m : Master) (i : Fin 2) (value : W64)
  | ppsInEdge (e : InputEdge)
  | sampleTimeout (i : Fin 2)
  | domainSet (m : Master) (i : Fin 2)
  | domainStep (m : Master) (i : Fin 2)
  | clearServo (m : Master) (i : Fin 2)
  | selectDomain (m : Master) (i : Fin 2)
  | forceDomain (m : Master) (i : Fin 2)
  | revert
  | timetableArm (m : Master) (value : W32)
  | timetableDisarm (m : Master) (value : W32)
  | timetableRun
  | pulseEnd (pin : Fin 8)
  | ppsOutPulse (p : Fin 4)
  | captureEdge (j : Fin 8) (rising : Bool)
  | timeStampFifoRead (m : Master)
  | captureFifoRead (m : Master) (j : Fin 8)
  | powerStateRequest (m : Master) (target : Byte)
  | stateExitRequest (m : Master)
  | powerAck (value : BitVec 3)
  | powerHandshakeFault (f : HandshakeFault)
  | wakeDecision (src : WakeSource)
  | wakeInEdge (i : Fin 4) (level : Bool)
  | wakeInputStuck (i : Fin 4)
  | chatterWindow
  | wakeFrame (words : List MsgWord)
  | tokenRefill
  | wakeCauseClear (m : Master) (value : W32)
  | wakeInUnmask (m : Master) (value : Byte)
  | wakeKeyWrite (m : Master) (key : W16)
  | grantIssue
  | pgGrantRise
  | grantWaitExpiry (op : HeavyOp)
  | pgTimeout
  | grantHoldExpiry (op : HeavyOp)
  | grantRevocation
  | sramSecondAttempt (array : Fin 46) (row word : Nat) (first second : BitVec 79)
  | scrubPeriod
  | pipelineParityMismatch (k : Fin 24) (secondPasses : Bool)
  | fullBist (m : Master)
  | bistComplete (arrays : List (Fin 46 × Nat)) (pipelines : List (Fin 24))
  | sparePipelineBist (m : Master)
  | spareBistDue
  | spareBistRun (failed : List (Fin 24))
  | s0Second
  | eventClear (m : Master) (index : W16) (sub : Byte) (value : W32)
  | registerWrite (addr : BitVec 14) (data : Option W32) (sec : Bool) (priv : BitVec 2)
  | mailboxRead (sec : Bool) (priv : BitVec 2)
  | mailboxWrite (sec : Bool) (priv : BitVec 2) (length : Byte)
  | dnRxMessage (id : BitVec 29) (ext : Bool) (len : BitVec 7) (words : List MsgWord)
  | usdoDownload (req : UsdoReq)
  | usdoUpload (req : UsdoReq)
  | usdoAbort
  | transferTimeout
  | hello (m : Master) (data : Bytes)
  | proof (m : Master) (data : Bytes)
  | sealedRequest (m : Master) (data : Bytes)
  | sessionClose (m : Master)
  | sessionIdleTimeout
  | challengeTimeout
  | lockedEnd
  | aonClockReturn
  | pgGrantFall
  | tfTxGapTimeout (t : Trunk)
  deriving DecidableEq, Repr

end Sys2Proof
end

