-- ==== Sys2Proof/Config.lean ====
section
/-! DEFINITION. What one copy of the block fixes and the manual leaves open: free constants without a body. -/

namespace Sys2Proof.Config

/-- The patch level read at 0x2000.03 (R1): it rises with each patch of release 2.1. -/
opaque patchLevel : Byte

/-- Whether the system side of memory channel `k` takes a response in cycle `n` (mq_rsp_ready, Table 2.5). -/
opaque mqRspReady : Nat → Nat → Bool

/-- The level of mc_req_ready of memory channel `k` in cycle `n` (Table 2.5). -/
opaque mcReqReady : Nat → Nat → Bool

/-- What a line whose second read timed out in cycle `n` is taken to hold, where its stored bytes are to be kept (R283, R294);
the manual does not say. Arguments: line address, cycle. -/
opaque lostLine : Nat → Nat → BitVec 512

/-- The scan outputs tm_so in cycle `n` of test mode; the manual does not describe the scan chains. -/
opaque scanOut : Nat → BitVec 32

/-- Whether the field-network controller takes a message from dn_tx_ in cycle `n` (dn_tx_ready, Table 2.7). -/
opaque dnTxReady : Nat → Bool

/-- The message of CiA 1301 that carries an answer: kind (0 download done, 1 segment done, 2 value, 3 abort), abort code and
value bytes. The manual does not give the message layout. -/
opaque usdoMessage : Nat → BitVec 32 → List (BitVec 8) → List (BitVec 8)

/-- Whether CiA 1301 carries an uploaded value of `n` bytes in one message; the manual does not give the message layout. -/
opaque usdoExpedited : Nat → Bool

/-- The bytes that one upload segment of CiA 1301 carries. -/
opaque usdoSegmentSize : Nat

/-- The outcome of the known-answer tests of an instantiation that starts in cycle `n` without the command that names it
(R237, R245). -/
opaque drbgTestsPass : Nat → Bool

/-- The permutation of the main slot numbers onto physical rows that the generator of R231 makes of its seed. -/
opaque slotRow : BitVec 256 → Equiv.Perm (Fin 16384)

/-- Whether the Wake Matcher decides the frames it holds in cycle `n`; R424 gives it up to 64 clk_aon cycles. -/
opaque wakeDecides : Nat → Bool

/-- What a full BIST abandoned in cycle `n` had done (R480): the number of arrays whose test had begun, and the rows found
faulty so far as pairs of array code and row. -/
opaque bistFindings : Nat → Nat × List (Fin 46 × Nat)

/-- The signature for scalar and message whose first 64 candidates for k were all rejected; the method goes on without a
bound, this model does not. -/
opaque lateSignature : Nat → List (BitVec 8) → List (BitVec 8)

end Sys2Proof.Config
end

