-- ==== Sys2Proof/Machine/Bits.lean ====
section
/-! DEFINITION. Bit fields, byte order (R7, R8), the CRC of R184, rounding (R492) and saturating counters (R146). -/

namespace Sys2Proof.Machine

/-- Bits [h:l] of a word as a number (00_scope.md, Bits). -/
def field {w : Nat} (x : BitVec w) (h l : Nat) : Nat := (x.toNat / 2 ^ l) % 2 ^ (h + 1 - l)

/-- Bit `i` of a word. -/
def bit {w : Nat} (x : BitVec w) (i : Nat) : Bool := x.getLsbD i

/-- `x` with bits [h:l] replaced by the low bits of `v`. -/
def setField {w : Nat} (x : BitVec w) (h l : Nat) (v : Nat) : BitVec w :=
  let m := (2 ^ (h + 1 - l) - 1) * 2 ^ l
  (x &&& ~~~(BitVec.ofNat w m)) ||| (BitVec.ofNat w ((v % 2 ^ (h + 1 - l)) * 2 ^ l))

/-- `x` with bit `i` set to `b`. -/
def setBit {w : Nat} (x : BitVec w) (i : Nat) (b : Bool) : BitVec w :=
  if b then x ||| BitVec.ofNat w (2 ^ i) else x &&& ~~~(BitVec.ofNat w (2 ^ i))

/-- The number a byte string spells, most significant byte first (R7). -/
def beNat (bs : Bytes) : Nat := bs.foldl (fun a b => a * 256 + b.toNat) 0

/-- `n` bytes of a number, most significant byte first (R7). -/
def toBE : Nat → Nat → Bytes
  | 0, _ => []
  | n + 1, v => toBE n (v / 256) ++ [BitVec.ofNat 8 v]

/-- A number from bytes, least significant byte first (R468). -/
def leNat (bs : Bytes) : Nat := beNat bs.reverse

/-- `n` bytes of a number, least significant byte first (R468). -/
def toLE (n v : Nat) : Bytes := (toBE n v).reverse

/-- A word as big-endian bytes. -/
def wordBytes {w : Nat} (x : BitVec w) : Bytes := toBE (w / 8) x.toNat

/-- Bytes `i` to `i + n - 1` of a string. -/
def slice (bs : Bytes) (i n : Nat) : Bytes := (bs.drop i).take n

/-- Byte `i`, or zero past the end (R177). -/
def byteAt (bs : Bytes) (i : Nat) : Byte := bs.getD i 0

/-- A string of `n` zero bytes. -/
def zeros (n : Nat) : Bytes := List.replicate n 0

/-- A string padded with zero bytes, or cut, to exactly `n` bytes. -/
def fitTo (n : Nat) (bs : Bytes) : Bytes := (bs ++ zeros n).take n

/-- The XOR of two strings, as long as the shorter. -/
def xorBytes (a b : Bytes) : Bytes := List.zipWith (· ^^^ ·) a b

/-- One bit step of R184. -/
def crcBit (poly crc : W32) : W32 :=
  if crc.getLsbD 31 then (crc <<< 1) ^^^ poly else crc <<< 1

/-- One byte step of R184. -/
def crcByte (poly crc : W32) (b : Byte) : W32 :=
  Nat.rec (crc ^^^ (b.setWidth 32 <<< 24)) (fun _ c => crcBit poly c) 8

/-- crc(poly, init, bytes) of R184. -/
def crc (poly init : W32) (bs : Bytes) : W32 := bs.foldl (crcByte poly) init

/-- The CRC used on keys, packets and flits: poly 0x04C1_1DB7, init all ones. -/
def crc04 (bs : Bytes) : W32 := crc 0x04C11DB7 0xFFFFFFFF bs

/-- floor division rounded up (ceil of R492). -/
def ceilDiv (a b : Nat) : Nat := (a + b - 1) / b

/-- round(num / den) of R492: to nearest, half away from zero; `den` positive. -/
def roundDiv (num : Int) (den : Nat) : Int :=
  if num < 0 then -(((2 * (-num) + den) / (2 * den) : Int)) else (2 * num + den) / (2 * den)

/-- A U64 counter that saturates (R146). -/
def satAdd64 (c : W64) (n : Nat) : W64 :=
  if c.toNat + n ≥ 2 ^ 64 then BitVec.allOnes 64 else c + BitVec.ofNat 64 n

/-- A count that saturates at a limit. -/
def satInc (limit n : Nat) : Nat := if n < limit then n + 1 else limit

/-- The number of bits set in the low `n` bits of a word. -/
def popCount {w : Nat} (x : BitVec w) : Nat → Nat
  | 0 => 0
  | n + 1 => popCount x n + (if x.getLsbD n then 1 else 0)

/-- Keep an integer within ±limit. -/
def clampInt (x limit : Int) : Int := if x > limit then limit else if x < -limit then -limit else x

/-- A two's complement reading of a word. -/
def asInt {w : Nat} (x : BitVec w) : Int := x.toInt

end Sys2Proof.Machine
end

