-- ==== Sys2Proof/Machine/Sha.lean ====
section
/-! DEFINITION. SHA-256 (FIPS 180-4) and HMAC-SHA-256, the standards R4 and R260 name (log 4). -/

namespace Sys2Proof.Machine

/-- The 64 round constants of SHA-256, constant 0 in the most significant word. -/
def sha256KTable : Nat :=
  0x428a2f9871374491b5c0fbcfe9b5dba53956c25b59f111f1923f82a4ab1c5ed5d807aa9812835b01243185be550c7dc372be5d7480deb1fe9bdc06a7c19bf174e49b69c1efbe47860fc19dc6240ca1cc2de92c6f4a7484aa5cb0a9dc76f988da983e5152a831c66db00327c8bf597fc7c6e00bf3d5a7914706ca63511429296727b70a852e1b21384d2c6dfc53380d13650a7354766a0abb81c2c92e92722c85a2bfe8a1a81a664bc24b8b70c76c51a3d192e819d6990624f40e3585106aa07019a4c1161e376c082748774c34b0bcb5391c0cb34ed8aa4a5b9cca4f682e6ff3748f82ee78a5636f84c878148cc7020890befffaa4506cebbef9a3f7c67178f2

def sha256K (i : Nat) : W32 := BitVec.ofNat 32 (sha256KTable / 2 ^ (32 * (63 - i)))

def rotr (x : W32) (n : Nat) : W32 := x.rotateRight n

def sha256Init : List W32 :=
  [0x6a09e667, 0xbb67ae85, 0x3c6ef372, 0xa54ff53a, 0x510e527f, 0x9b05688c, 0x1f83d9ab, 0x5be0cd19]

/-- `n` words of a message block. -/
def wordsN : Nat → Bytes → List W32
  | 0, _ => []
  | n + 1, bs => BitVec.ofNat 32 (beNat (fitTo 4 bs)) :: wordsN n (bs.drop 4)

/-- Extend a message schedule held newest first by `n` words. -/
def shaExtend : Nat → List W32 → List W32
  | 0, w => w
  | n + 1, w =>
    let a := w.getD 14 0
    let b := w.getD 1 0
    let s0 := rotr a 7 ^^^ rotr a 18 ^^^ (a >>> 3)
    let s1 := rotr b 17 ^^^ rotr b 19 ^^^ (b >>> 10)
    shaExtend n ((w.getD 15 0 + s0 + w.getD 6 0 + s1) :: w)

/-- One round of the compression function. -/
def shaRound (v : List W32) (kw : W32) : List W32 :=
  match v with
  | [a, b, c, d, e, f, g, h] =>
    let t1 := h + (rotr e 6 ^^^ rotr e 11 ^^^ rotr e 25) + ((e &&& f) ^^^ (~~~e &&& g)) + kw
    let t2 := (rotr a 2 ^^^ rotr a 13 ^^^ rotr a 22) + ((a &&& b) ^^^ (a &&& c) ^^^ (b &&& c))
    [t1 + t2, a, b, c, d + t1, e, f, g]
  | _ => v

def shaBlock (h : List W32) (blk : Bytes) : List W32 :=
  let w := (shaExtend 48 (wordsN 16 blk).reverse).reverse
  let kws := List.zipWith (· + ·) w ((List.range 64).map sha256K)
  List.zipWith (· + ·) h (kws.foldl shaRound h)

def shaBlocks : Nat → Bytes → List W32 → List W32
  | 0, _, h => h
  | n + 1, bs, h => shaBlocks n (bs.drop 64) (shaBlock h (bs.take 64))

/-- SHA-256 of a byte string, 32 bytes. -/
def sha256 (m : Bytes) : Bytes :=
  let n := m.length
  let total := (n + 9 + 63) / 64
  let padded := m ++ [0x80] ++ zeros (64 * total - n - 9) ++ toBE 8 (8 * n)
  (shaBlocks total padded sha256Init).flatMap (fun x => toBE 4 x.toNat)

/-- HMAC-SHA-256 with a key of at most 64 bytes. -/
def hmacSha256 (k m : Bytes) : Bytes :=
  let k0 := fitTo 64 k
  sha256 (k0.map (· ^^^ 0x5C) ++ sha256 (k0.map (· ^^^ 0x36) ++ m))

end Sys2Proof.Machine
end

