-- ==== Sys2Proof/Machine/Ecdsa.lean ====
section
/-! DEFINITION. ECDSA over P-256 with the deterministic per-message secret (FIPS 186-5, R255, R260; log 4). -/

namespace Sys2Proof.Machine

def p256P : Nat := 0xffffffff00000001000000000000000000000000ffffffffffffffffffffffff
def p256N : Nat := 0xffffffff00000000ffffffffffffffffbce6faada7179e84f3b9cac2fc632551
def p256Gx : Nat := 0x6b17d1f2e12c4247f8bce6e563a440f277037d812deb33a0f4a13945d898c296
def p256Gy : Nat := 0x4fe342e2fe1a7f9b8ee7eb4a7c0f9e162bce33576b315ececbb6406837bf51f5

/-- b^e mod m, by the low `n` bits of e from the top. -/
def powModN (b e m : Nat) : Nat → Nat
  | 0 => 1 % m
  | n + 1 => let r := powModN b (e / 2) m n
             let r2 := r * r % m
             if e % 2 = 1 then r2 * b % m else r2

/-- The inverse modulo a prime of 256 bits, by Fermat. -/
def invMod (a m : Nat) : Nat := powModN (a % m) (m - 2) m 256

/-- a - b modulo m. -/
def subMod (a b m : Nat) : Nat := (a + (m - b % m)) % m

/-- A point of the curve in Jacobian coordinates; z = 0 is the point at infinity. -/
structure JPoint where
  x : Nat
  y : Nat
  z : Nat
  deriving DecidableEq, Repr

def jInf : JPoint := ⟨1, 1, 0⟩

/-- Doubling on y² = x³ - 3x + b. -/
def jDouble (a : JPoint) : JPoint :=
  if a.z = 0 then a else
  let p := p256P
  let yy := a.y * a.y % p
  let zz := a.z * a.z % p
  let s := 4 * a.x * yy % p
  let m := 3 * (subMod a.x zz p * ((a.x + zz) % p) % p) % p
  let x3 := subMod (m * m) (2 * s) p
  let y3 := subMod (m * subMod s x3 p) (8 * (yy * yy % p)) p
  ⟨x3, y3, 2 * a.y * a.z % p⟩

/-- Addition of two points. -/
def jAdd (a b : JPoint) : JPoint :=
  if a.z = 0 then b else if b.z = 0 then a else
  let p := p256P
  let z1 := a.z * a.z % p
  let z2 := b.z * b.z % p
  let u1 := a.x * z2 % p
  let u2 := b.x * z1 % p
  let s1 := a.y * (b.z * z2 % p) % p
  let s2 := b.y * (a.z * z1 % p) % p
  if u1 = u2 then (if s1 = s2 then jDouble a else jInf) else
  let h := subMod u2 u1 p
  let r := subMod s2 s1 p
  let h2 := h * h % p
  let h3 := h * h2 % p
  let v := u1 * h2 % p
  let x3 := subMod (r * r) (h3 + 2 * v) p
  let y3 := subMod (r * subMod v x3 p) (s1 * h3) p
  ⟨x3, y3, h * (a.z * b.z % p) % p⟩

/-- k · a by the low `n` bits of k. -/
def jMul (k : Nat) (a : JPoint) : Nat → JPoint
  | 0 => jInf
  | n + 1 => let r := jDouble (jMul (k / 2) a n)
             if k % 2 = 1 then jAdd r a else r

/-- The affine coordinates of a point that is not infinity. -/
def jAffine (a : JPoint) : Nat × Nat :=
  let zi := invMod a.z p256P
  let z2 := zi * zi % p256P
  (a.x * z2 % p256P, a.y * (z2 * zi % p256P) % p256P)

/-- d · G. -/
def p256MulG (d : Nat) : Nat × Nat := jAffine (jMul d ⟨p256Gx, p256Gy, 1⟩ 256)

/-- The private scalar of R255. -/
def signingScalar (k : KeyVal) : Nat := k.toNat % (p256N - 1) + 1

/-- r and s for a per-message secret k and a hash value z. -/
def signWith (d z k : Nat) : Nat × Nat :=
  let r := (p256MulG k).1 % p256N
  (r, invMod k p256N * ((z + r * d) % p256N) % p256N)

/-- The signature of the first candidate for k, of at most `n`, that lies in [1, n − 1] and gives neither r = 0 nor s = 0
(FIPS 186-5). -/
def detSign (d z : Nat) : Nat → Bytes → Bytes → Option (Nat × Nat)
  | 0, _, _ => none
  | n + 1, k, v =>
    let v1 := hmacSha256 k v
    let c := beNat v1
    let q := signWith d z c
    if 1 ≤ c ∧ c < p256N ∧ q.1 ≠ 0 ∧ q.2 ≠ 0 then some q
    else
      let k2 := hmacSha256 k (v1 ++ [0])
      detSign d z n k2 (hmacSha256 k2 v1)

/-- The deterministic method for scalar d and hash h1 (FIPS 186-5, HMAC_DRBG). -/
def detSignature (d : Nat) (h1 : Bytes) : Option (Nat × Nat) :=
  let z := beNat h1 % p256N
  let seed := toBE 32 d ++ toBE 32 z
  let v0 := List.replicate 32 (1 : Byte)
  let k1 := hmacSha256 (zeros 32) (v0 ++ [0] ++ seed)
  let v1 := hmacSha256 k1 v0
  let k2 := hmacSha256 k1 (v1 ++ [1] ++ seed)
  let v2 := hmacSha256 k2 v1
  detSign d z 64 k2 v2

/-- The signature (r, s) of a message, 64 bytes, s as computed (R260); after 64 rejected candidates this model leaves it
free (log 81). -/
def ecdsaSign (d : Nat) (msg : Bytes) : Bytes :=
  match detSignature d (sha256 msg) with
  | some q => toBE 32 q.1 ++ toBE 32 q.2
  | none => fitTo 64 (Config.lateSignature d msg)

/-- Q as x ‖ y (R255). -/
def publicKey (d : Nat) : Bytes := toBE 32 (p256MulG d).1 ++ toBE 32 (p256MulG d).2

/-- key_id: the first 8 bytes of SHA-256(0x04 ‖ x ‖ y) (R255). -/
def keyIdOf (q : Bytes) : Bytes := (sha256 ([0x04] ++ q)).take 8

end Sys2Proof.Machine
end

