-- ==== Sys2Proof/Machine/Aes.lean ====
section
/-! DEFINITION. AES-128 and AES-256 (FIPS 197, which R4 names; the algorithm is the standard's, log 4). -/

namespace Sys2Proof.Machine

/-- The S-box of FIPS 197: entry x is byte x of this number, byte 0 most significant. -/
def sboxTable : Nat := 0x637c777bf26b6fc53001672bfed7ab76ca82c97dfa5947f0add4a2af9ca472c0b7fd9326363ff7cc34a5e5f171d8311504c723c31896059a071280e2eb27b27509832c1a1b6e5aa0523bd6b329e32f8453d100ed20fcb15b6acbbe394a4c58cfd0efaafb434d338545f9027f503c9fa851a3408f929d38f5bcb6da2110fff3d2cd0c13ec5f974417c4a77e3d645d197360814fdc222a908846eeb814de5e0bdbe0323a0a4906245cc2d3ac629195e479e7c8376d8dd54ea96c56f4ea657aae08ba78252e1ca6b4c6e8dd741f4bbd8b8a703eb5664803f60e613557b986c11d9ee1f8981169d98e949b1e87e9ce5528df8ca1890dbfe6426841992d0fb054bb16

/-- The inverse S-box, laid out as `sboxTable`. -/
def invSboxTable : Nat := 0x52096ad53036a538bf40a39e81f3d7fb7ce339829b2fff87348e4344c4dee9cb547b9432a6c2233dee4c950b42fac34e082ea16628d924b2765ba2496d8bd12572f8f66486689816d4a45ccc5d65b6926c704850fdedb9da5e154657a78d9d8490d8ab008cbcd30af7e45805b8b34506d02c1e8fca3f0f02c1afbd0301138a6b3a9111414f67dcea97f2cfcef0b4e67396ac7422e7ad3585e2f937e81c75df6e47f11a711d29c5896fb7620eaa18be1bfc563e4bc6d279209adbc0fe78cd5af41fdda8338807c731b11210592780ec5f60517fa919b54a0d2de57a9f93c99cefa0e03b4dae2af5b0c8ebbb3c83539961172b047eba77d626e169146355210c7d

def tableByte (t : Nat) (x : Byte) : Byte := BitVec.ofNat 8 (t / 2 ^ (8 * (255 - x.toNat)))

def sbox (x : Byte) : Byte := tableByte sboxTable x
def invSbox (x : Byte) : Byte := tableByte invSboxTable x

/-- Multiplication by x in the AES field. -/
def xtime (a : Byte) : Byte := if a.getLsbD 7 then (a <<< 1) ^^^ 0x1B else a <<< 1

/-- Multiplication in the AES field by a constant below 16. -/
def aesMul (k : Nat) (a : Byte) : Byte :=
  let a2 := xtime a
  let a4 := xtime a2
  let a8 := xtime a4
  (if k % 2 = 1 then a else 0) ^^^ (if k / 2 % 2 = 1 then a2 else 0) ^^^
    (if k / 4 % 2 = 1 then a4 else 0) ^^^ (if k / 8 % 2 = 1 then a8 else 0)

/-- ShiftRows on the 16 bytes of a state, column by column. -/
def shiftRows (s : Bytes) : Bytes := (List.range 16).map (fun i => byteAt s ((i + 4 * (i % 4)) % 16))

def invShiftRows (s : Bytes) : Bytes := (List.range 16).map (fun i => byteAt s ((i + 12 * (i % 4)) % 16))

/-- One output byte of MixColumns, with the row's coefficients. -/
def mixByte (c0 c1 c2 c3 : Nat) (s : Bytes) (i : Nat) : Byte :=
  let b := i / 4 * 4
  let r := i % 4
  aesMul c0 (byteAt s (b + r)) ^^^ aesMul c1 (byteAt s (b + (r + 1) % 4)) ^^^
    aesMul c2 (byteAt s (b + (r + 2) % 4)) ^^^ aesMul c3 (byteAt s (b + (r + 3) % 4))

def mixColumns (s : Bytes) : Bytes := (List.range 16).map (mixByte 2 3 1 1 s)
def invMixColumns (s : Bytes) : Bytes := (List.range 16).map (mixByte 14 11 13 9 s)

/-- One word of the key schedule; `nk` is the key length in words and `w` the words so far, newest first. -/
def keyWord (nk : Nat) (i : Nat) (w : List Bytes) (rcon : Byte) : Bytes :=
  let prev := w.getD 0 []
  let old := w.getD (nk - 1) []
  let t :=
    if i % nk = 0 then
      xorBytes ((prev.drop 1 ++ prev.take 1).map sbox) [rcon, 0, 0, 0]
    else if nk > 6 ∧ i % nk = 4 then prev.map sbox
    else prev
  xorBytes old t

/-- `n` further words of the key schedule from word `i`. -/
def keyWords (nk : Nat) : Nat → Nat → List Bytes → Byte → List Bytes
  | 0, _, w, _ => w
  | n + 1, i, w, rcon =>
    keyWords nk n (i + 1) (keyWord nk i w rcon :: w) (if i % nk = 0 then xtime rcon else rcon)

/-- The words of a key, newest (last) first. -/
def chopWords : Nat → Bytes → List Bytes → List Bytes
  | 0, _, acc => acc
  | n + 1, k, acc => chopWords n (k.drop 4) (k.take 4 :: acc)

/-- The round keys of a key of `nk` words, round 0 first. -/
def roundKeys (nk : Nat) (key : Bytes) : List Bytes :=
  let total := 4 * (nk + 7)
  let ws := (keyWords nk (total - nk) nk (chopWords nk key []) 1).reverse
  (List.range (nk + 7)).map (fun r => (ws.drop (4 * r)).take 4 |>.flatten)

/-- The rounds of the cipher after the first key addition. -/
def aesRounds : List Bytes → Bytes → Bytes
  | [], s => s
  | [k], s => xorBytes (shiftRows (s.map sbox)) k
  | k :: k' :: ks, s => aesRounds (k' :: ks) (xorBytes (mixColumns (shiftRows (s.map sbox))) k)

/-- The rounds of the inverse cipher, round keys last first. -/
def aesInvRounds : List Bytes → Bytes → Bytes
  | [], s => s
  | [k], s => xorBytes ((invShiftRows s).map invSbox) k
  | k :: k' :: ks, s => aesInvRounds (k' :: ks) (invMixColumns (xorBytes ((invShiftRows s).map invSbox) k))

def aesBytes (nk : Nat) (key pt : Bytes) : Bytes :=
  match roundKeys nk key with
  | [] => pt
  | k :: ks => aesRounds ks (xorBytes pt k)

def aesInvBytes (nk : Nat) (key ct : Bytes) : Bytes :=
  match (roundKeys nk key).reverse with
  | [] => ct
  | k :: ks => aesInvRounds ks (xorBytes ct k)

/-- AES-256(K, block). -/
def aes256 (k : KeyVal) (b : Block) : Block :=
  BitVec.ofNat 128 (beNat (aesBytes 8 (toBE 32 k.toNat) (toBE 16 b.toNat)))

/-- AES-128(K, block). -/
def aes128 (k : BitVec 128) (b : Block) : Block :=
  BitVec.ofNat 128 (beNat (aesBytes 4 (toBE 16 k.toNat) (toBE 16 b.toNat)))

/-- The inverse cipher of AES-128, for XTS reads (R291). -/
def aes128Inv (k : BitVec 128) (b : Block) : Block :=
  BitVec.ofNat 128 (beNat (aesInvBytes 4 (toBE 16 k.toNat) (toBE 16 b.toNat)))

end Sys2Proof.Machine
end

