-- ==== Sys2Proof/Machine/Gcm.lean ====
section
/-! DEFINITION. GHASH and GCM (NIST SP 800-38D), CMAC (SP 800-38B), XTS (IEEE 1619) and the key derivation of R225;
the standards R4 names (log 4). -/

namespace Sys2Proof.Machine

/-- Multiplication by x in the field of GHASH, bit 127 being the coefficient of x^0. -/
def ghashShift (v : Block) : Block :=
  if v.getLsbD 0 then (v >>> 1) ^^^ (0xE1000000000000000000000000000000 : Block) else v >>> 1

/-- The sum of the shifts of `v` that the `n` next bits of `x`, from bit n - 1 down, select. -/
def ghashSum (x : Block) : Nat → Block → Block
  | 0, _ => 0
  | n + 1, v => (if x.getLsbD n then v else 0) ^^^ ghashSum x n (ghashShift v)

/-- The product x · h in the field of GHASH. -/
def gmul (x h : Block) : Block := ghashSum x 128 h

/-- GHASH over blocks from a running value. -/
def ghashFrom (h : Block) (y : Block) (xs : List Block) : Block := xs.foldl (fun y x => gmul (y ^^^ x) h) y

/-- GHASH_H of the blocks. -/
def ghash (h : Block) (xs : List Block) : Block := ghashFrom h 0 xs

/-- The product d · h^n, by n multiplications. -/
def mulPow (d h : Block) : Nat → Block
  | 0 => d
  | n + 1 => gmul (mulPow d h n) h

/-- `n` blocks of a string, the last padded with zero bytes. -/
def blocksN : Nat → Bytes → List Block
  | 0, _ => []
  | n + 1, bs => BitVec.ofNat 128 (beNat (fitTo 16 bs)) :: blocksN n (bs.drop 16)

/-- The blocks of a string, the last padded with zero bytes. -/
def blocks (bs : Bytes) : List Block := blocksN (ceilDiv bs.length 16) bs

/-- The length block of GCM. -/
def lengthBlock (aad ct : Nat) : Block := BitVec.ofNat 128 ((8 * aad) * 2 ^ 64 + 8 * ct)

/-- The blocks X1 to Xm of GHASH: additional authenticated data, ciphertext, length block (R139). -/
def gcmBlocks (aad ct : Bytes) : List Block := blocks aad ++ blocks ct ++ [lengthBlock aad.length ct.length]

/-- inc32 of SP 800-38D, `n` times. -/
def incBy (j : Block) (n : Nat) : Block :=
  (j >>> 32 <<< 32) ||| BitVec.ofNat 128 ((j.toNat + n) % 2 ^ 32)

/-- J0 = IV ‖ 0x0000_0001 (R124, R310). -/
def j0 (iv : BitVec 96) : Block := (iv.setWidth 128 <<< 32) ||| 1

/-- The keystream of `n` blocks under an encryption function from block number `i`. -/
def keystream (e : Block → Block) (j : Block) : Nat → Nat → Bytes
  | 0, _ => []
  | n + 1, i => toBE 16 (e (incBy j i)).toNat ++ keystream e j n (i + 1)

/-- Counter-mode encryption and decryption from inc32(J0) onward. -/
def ctrCrypt (e : Block → Block) (j : Block) (pt : Bytes) : Bytes :=
  xorBytes pt (keystream e j (ceilDiv pt.length 16) 1)

/-- The 16-byte GCM tag as a block: GHASH ⊕ E(K, J0). -/
def gcmTag (e : Block → Block) (h : Block) (j : Block) (aad ct : Bytes) : Block :=
  ghash h (gcmBlocks aad ct) ^^^ e j

/-- Doubling in the field of CMAC. -/
def cmacDbl (l : Block) : Block := if l.getLsbD 127 then (l <<< 1) ^^^ 0x87 else l <<< 1

/-- The CBC chain of CMAC over blocks. -/
def cbcMac (e : Block → Block) (xs : List Block) : Block := xs.foldl (fun c x => e (c ^^^ x)) 0

/-- CMAC of a byte string (SP 800-38B). -/
def cmac (e : Block → Block) (m : Bytes) : Block :=
  let k1 := cmacDbl (e 0)
  let k2 := cmacDbl k1
  let n := m.length
  let last := if n = 0 then 0 else (n - 1) / 16
  let head := blocksN last m
  let tail := m.drop (16 * last)
  let fin : Block :=
    if tail.length = 16 then BitVec.ofNat 128 (beNat tail) ^^^ k1
    else BitVec.ofNat 128 (beNat (fitTo 16 (tail ++ [0x80]))) ^^^ k2
  cbcMac e (head ++ [fin])

/-- CMAC-AES-256 as 16 bytes. -/
def cmac256 (k : KeyVal) (m : Bytes) : Bytes := toBE 16 (cmac (aes256 k) m).toNat

/-- X(i) of Table 6.5. -/
def kdfInput (i : Nat) (purpose : W32) (label binding context : Bytes) (index : W32) : Bytes :=
  [BitVec.ofNat 8 i] ++ toBE 4 purpose.toNat ++ fitTo 12 label ++ [0] ++ fitTo 8 binding ++ fitTo 20 context ++
    toBE 4 index.toNat ++ [0x01, 0x00]

/-- The derivation of R225: K(1) ‖ K(2). -/
def kdf (ki : KeyVal) (purpose : W32) (label binding context : Bytes) (index : W32) : KeyVal :=
  let k1 := cmac (aes256 ki) (kdfInput 1 purpose label binding context index)
  let k2 := cmac (aes256 ki) (kdfInput 2 purpose label binding context index)
  k1 ++ k2

/-- Multiplication of an XTS tweak by α (IEEE 1619), byte 0 least significant. -/
def xtsAlpha (t : Block) : Block :=
  let n := leNat (toBE 16 t.toNat)
  let m := 2 * n % 2 ^ 128
  let r := if n ≥ 2 ^ 127 then Nat.xor m 0x87 else m
  BitVec.ofNat 128 (beNat (toLE 16 r))

/-- The XTS blocks of a data unit under one block cipher direction. -/
def xtsBlocks (e : Block → Block) : List Block → Block → List Block
  | [], _ => []
  | x :: xs, t => (e (x ^^^ t) ^^^ t) :: xtsBlocks e xs (xtsAlpha t)

/-- The tweak of line address `a` under Key2: the data unit number, least significant byte first (R291). -/
def xtsTweak (k2 : BitVec 128) (a : Nat) : Block := aes128 k2 (BitVec.ofNat 128 (beNat (toLE 16 a)))

/-- XTS-AES-128 encryption of a 64-byte line (R272, R291). -/
def xtsEncrypt (k : KeyVal) (a : Nat) (line : Bytes) : Bytes :=
  (xtsBlocks (aes128 (k.extractLsb' 128 128)) (blocksN 4 line) (xtsTweak (k.extractLsb' 0 128) a)).flatMap
    (fun b => toBE 16 b.toNat)

/-- XTS-AES-128 decryption of a 64-byte line. -/
def xtsDecrypt (k : KeyVal) (a : Nat) (line : Bytes) : Bytes :=
  (xtsBlocks (aes128Inv (k.extractLsb' 128 128)) (blocksN 4 line) (xtsTweak (k.extractLsb' 0 128) a)).flatMap
    (fun b => toBE 16 b.toNat)

end Sys2Proof.Machine
end

