-- ==== Sys2Proof/Machine/Drbg.lean ====
section
/-! DEFINITION. CTR_DRBG with AES-256 and a derivation function (NIST SP 800-90A, R237, R238; log 4). -/

namespace Sys2Proof.Machine

/-- The working state of the generator. -/
structure CtrDrbg where
  key : KeyVal
  v : Block
  deriving DecidableEq, Repr

/-- `n` output blocks from counter v. -/
def drbgBlocks (k : KeyVal) : Nat → Block → Bytes
  | 0, _ => []
  | n + 1, v => toBE 16 (aes256 k (v + 1)).toNat ++ drbgBlocks k n (v + 1)

/-- CTR_DRBG_Update with 48 bytes. -/
def drbgUpdate (d : CtrDrbg) (data : Bytes) : CtrDrbg :=
  let t := xorBytes (drbgBlocks d.key 3 d.v) (fitTo 48 data)
  ⟨BitVec.ofNat 256 (beNat (t.take 32)), BitVec.ofNat 128 (beNat (t.drop 32))⟩

/-- BCC over whole blocks. -/
def bcc (k : KeyVal) : Nat → Bytes → Block → Block
  | 0, _, c => c
  | n + 1, bs, c => bcc k n (bs.drop 16) (aes256 k (c ^^^ BitVec.ofNat 128 (beNat (fitTo 16 bs))))

/-- `n` output blocks of the derivation function's second phase. -/
def dfOut (k : KeyVal) : Nat → Block → Bytes
  | 0, _ => []
  | n + 1, x => let y := aes256 k x
                toBE 16 y.toNat ++ dfOut k n y

/-- Block_Cipher_df of an input, 48 bytes out. -/
def drbgDf (input : Bytes) : Bytes :=
  let s0 := toBE 4 input.length ++ toBE 4 48 ++ input ++ [0x80]
  let s := s0 ++ zeros ((16 - s0.length % 16) % 16)
  let k : KeyVal := BitVec.ofNat 256 (beNat ((List.range 32).map (BitVec.ofNat 8)))
  let part (i : Nat) : Bytes := toBE 16 (bcc k (1 + s.length / 16) (toBE 4 i ++ zeros 12 ++ s) 0).toNat
  let t := part 0 ++ part 1 ++ part 2
  dfOut (BitVec.ofNat 256 (beNat (t.take 32))) 3 (BitVec.ofNat 128 (beNat (t.drop 32)))

/-- Instantiate from entropy input and personalization string. -/
def drbgInstantiateFrom (entropy pers : Bytes) : CtrDrbg := drbgUpdate ⟨0, 0⟩ (drbgDf (entropy ++ pers))

/-- Reseed from entropy input. -/
def drbgReseedFrom (d : CtrDrbg) (entropy : Bytes) : CtrDrbg := drbgUpdate d (drbgDf entropy)

/-- Generate `n` bytes. -/
def drbgGenerate (d : CtrDrbg) (n : Nat) : Bytes × CtrDrbg :=
  let blocks := (n + 15) / 16
  let out := (drbgBlocks d.key blocks d.v).take n
  (out, drbgUpdate { d with v := d.v + BitVec.ofNat 128 blocks } (zeros 48))

end Sys2Proof.Machine
end

