-- ==== Sys2Proof/Machine/Fec.lean ====
section
/-! DEFINITION. The two error-correcting codes: RS(544,514) of the trunks (R299; IEEE 802.3 Clause 91, log 4)
and the SRAM word code of R435. -/

namespace Sys2Proof.Machine

/-- A symbol of GF(2^10). -/
abbrev Sym := BitVec 10

/-- Multiplication by x modulo x^10 + x^3 + 1. -/
def symShift (a : Sym) : Sym := if a.getLsbD 9 then (a <<< 1) ^^^ 0x009 else a <<< 1

/-- The sum of the shifts of `a` that the low bits of `b` select. -/
def symSum (b : Sym) : Nat → Sym → Sym
  | 0, _ => 0
  | n + 1, a => (if b.getLsbD (9 - n) then a else 0) ^^^ symSum b n (symShift a)

/-- The product in GF(2^10). -/
def symMul (a b : Sym) : Sym := symSum b 10 a

/-- a^n by repeated squaring over `k` bits of n. -/
def symPow (a : Sym) (n : Nat) : Nat → Sym
  | 0 => 1
  | k + 1 => let r := symPow a (n / 2) k
             let r2 := symMul r r
             if n % 2 = 1 then symMul r2 a else r2

/-- α^n, with α = x. -/
def alphaPow (n : Nat) : Sym := symPow 2 (n % 1023) 10

/-- The inverse of a non-zero symbol. -/
def symInv (a : Sym) : Sym := symPow a 1022 10

/-- Multiplication of a polynomial, highest coefficient first, by (x + r). -/
def polyMulRoot (p : List Sym) (r : Sym) : List Sym :=
  List.zipWith (· ^^^ ·) (p ++ [0]) (0 :: p.map (symMul r))

/-- The generator polynomial: roots α^0 to α^29, highest coefficient first. -/
def rsGenerator : List Sym := (List.range 30).foldl (fun p j => polyMulRoot p (alphaPow j)) [1]

/-- One message symbol through the division register of 30 symbols. -/
def rsStep (g : List Sym) (reg : List Sym) (m : Sym) : List Sym :=
  let f := m ^^^ reg.headD 0
  List.zipWith (· ^^^ ·) (reg.drop 1 ++ [0]) (g.map (symMul f))

/-- The 544 symbols of a codeword from its 514 message symbols. -/
def rsEncode (msg : List Sym) : List Sym :=
  msg ++ msg.foldl (rsStep (rsGenerator.drop 1)) (List.replicate 30 0)

/-- The polynomial with highest coefficient first, evaluated at x. -/
def polyEval (p : List Sym) (x : Sym) : Sym := p.foldl (fun a c => symMul a x ^^^ c) 0

def rsSyndromes (cw : List Sym) : List Sym := (List.range 30).map (fun j => polyEval cw (alphaPow j))

/-- The state of Berlekamp–Massey, polynomials lowest coefficient first. -/
structure BmState where
  c : List Sym
  b : List Sym
  l : Nat
  m : Nat
  d : Sym

/-- a + k·x^m·b for polynomials lowest coefficient first. -/
def polyAddShift (a : List Sym) (k : Sym) (m : Nat) (b : List Sym) : List Sym :=
  let t := List.replicate m 0 ++ b.map (symMul k)
  (List.range (max a.length t.length)).map (fun i => a.getD i 0 ^^^ t.getD i 0)

def bmStep (syn : List Sym) (st : BmState) (n : Nat) : BmState :=
  let delta := (List.range (st.l + 1)).foldl (fun a i => a ^^^ symMul (st.c.getD i 0) (if i ≤ n then syn.getD (n - i) 0 else 0)) 0
  if delta = 0 then { st with m := st.m + 1 }
  else
    let c' := polyAddShift st.c (symMul delta (symInv st.d)) st.m st.b
    if 2 * st.l ≤ n then { c := c', b := st.c, l := n + 1 - st.l, m := 1, d := delta }
    else { st with c := c', m := st.m + 1 }

/-- The error locator, lowest coefficient first, and its claimed degree. -/
def errorLocator (syn : List Sym) : BmState :=
  (List.range 30).foldl (bmStep syn) { c := [1], b := [1], l := 0, m := 1, d := 1 }

/-- A polynomial, lowest coefficient first, at x. -/
def polyEvalLow (p : List Sym) (x : Sym) : Sym := polyEval p.reverse x

/-- The error magnitudes by Forney's formula at symbol position `i` (position 0 first, 543 last). -/
def forney (syn loc : List Sym) (i : Nat) : Sym :=
  let xi := alphaPow (543 - i)
  let xinv := symInv xi
  let omega := (List.range 30).map (fun k =>
    (List.range (k + 1)).foldl (fun a j => a ^^^ symMul (loc.getD j 0) (syn.getD (k - j) 0)) 0)
  let num := polyEvalLow omega xinv
  let der := (List.range loc.length).foldl (fun a j =>
    if j % 2 = 1 then a ^^^ symMul (loc.getD j 0) (symPow xinv (j - 1) 10) else a) 0
  symMul (symMul xi num) (symInv der)

/-- What the decoder says of a codeword (R303). -/
inductive FecResult where
  | clean (msg : List Sym)
  | corrected (msg : List Sym) (positions : List Nat)
  | uncorrectable
  deriving DecidableEq, Repr

/-- Replace a symbol by its sum with an error value. -/
def addAt (cw : List Sym) (i : Nat) (e : Sym) : List Sym := cw.modify i (· ^^^ e)

/-- The decoder of R299 and R303: corrects up to 15 symbol errors. -/
def rsDecode (cw : List Sym) : FecResult :=
  let syn := rsSyndromes cw
  if syn.all (· = 0) then .clean (cw.take 514)
  else
    let st := errorLocator syn
    let pos := (List.range 544).filter (fun i => polyEvalLow st.c (symInv (alphaPow (543 - i))) = 0)
    if st.l ≤ 15 ∧ pos.length = st.l then
      let fixed := pos.foldl (fun w i => addAt w i (forney syn st.c i)) cw
      if (rsSyndromes fixed).all (· = 0) then .corrected (fixed.take 514) pos else .uncorrectable
    else .uncorrectable

/-- The check bits of R435: data(x) · x^14 mod g(x). -/
def sramStep (r : BitVec 14) (b : Bool) : BitVec 14 :=
  let top := r.getLsbD 13
  let s := r <<< 1
  if top != b then s ^^^ 0x0377 else s

def sramCheck (data : W64) : BitVec 14 :=
  (List.range 64).foldl (fun r i => sramStep r (data.getLsbD (63 - i))) 0

/-- The 79-bit word of Table 13.1. -/
def sramEncode (data : W64) : BitVec 79 :=
  let w : BitVec 78 := sramCheck data ++ data
  (BitVec.ofBool (popCount w 78 % 2 = 1)) ++ w

/-- The outcomes of R436. -/
inductive SramRead where
  | clean (data : W64)
  | corrected (data : W64) (bits : List Nat)
  | uncorrectable
  deriving DecidableEq, Repr

/-- Flip the bits of a word at the given positions. -/
def flipBits (w : BitVec 79) (ps : List Nat) : BitVec 79 := ps.foldl (fun w i => w ^^^ BitVec.ofNat 79 (2 ^ i)) w

def sramValid (w : BitVec 79) : Bool := sramEncode (w.setWidth 64) == w

/-- The first position whose flip gives a valid word. -/
def sramFix1 (w : BitVec 79) : Option Nat := (List.range 79).find? (fun i => sramValid (flipBits w [i]))

/-- The first pair of positions whose flip gives a valid word. -/
def sramFix2 (w : BitVec 79) : Option (Nat × Nat) :=
  (List.range 79).findSome? (fun i => ((List.range i).find? (fun j => sramValid (flipBits w [i, j]))).map (fun j => (i, j)))

/-- R436: clean, one or two bit errors corrected, or uncorrectable. -/
def sramDecode (w : BitVec 79) : SramRead :=
  if sramValid w then .clean (w.setWidth 64)
  else match sramFix1 w with
    | some i => .corrected ((flipBits w [i]).setWidth 64) [i]
    | none => match sramFix2 w with
      | some (i, j) => .corrected ((flipBits w [i, j]).setWidth 64) [i, j]
      | none => .uncorrectable

end Sys2Proof.Machine
end

