-- ==== Sys2Proof/Machine/State.lean ====
section
/-! DEFINITION. The state of the block: plain data, one structure per unit of Table 1.1, and State.reset. -/

namespace Sys2Proof.Machine

/-- A sparse store: number and value, numbers strictly rising, no value equal to the default of its number. -/
abbrev Sparse (α : Type) := List (Nat × α)

/-- A TIME_STAMP (Table 0.6): [104] domain, [103:96] epoch, [95:48] seconds, [47:16] ns, [15:0] sub-ns. -/
abbrev TimeStamp := BitVec 112

/-! ### Events (13_faults_and_events.md) -/

/-- What PD_AON keeps of raises made while PD_CTL is Off (R455). -/
structure HeldEvent where
  count : W16
  detail : W16
  deriving DecidableEq, Repr

structure Events where
  /-- One bit per source (Table 13.5). -/
  pending : BitVec 256
  /-- Cause words 0x2410, 0x2411, 0x2412 by source number (R454). -/
  cause : Sparse W32
  count : Sparse W64
  lastTime : Sparse TimeStamp
  detail : Sparse W16
  held : Sparse HeldEvent
  deriving DecidableEq, Repr

/-! ### Clocks, resets and power (01, 02, 12, 15) -/

/-- Where the cold-start sequence of Table 15.1 stands. -/
inductive BringUp where
  | h1 | h2 | h5 | done
  deriving DecidableEq, Repr

/-- A power transition of R413 or R414. -/
inductive Transition where
  | idle
  | entering (k : BitVec 3)
  | exiting (k : BitVec 3)
  /-- Step 5 of R414 or H5 of R40: the fuse image is being read before S0 is reported. -/
  | fuses (k : BitVec 3)
  /-- Step 5 of R414, second half: the DRBG is being instantiated before S0 is reported. -/
  | entropy (k : BitVec 3)
  deriving DecidableEq, Repr

/-- A frame held by the Wake Matcher (R424). -/
structure HeldWake where
  bytes : Bytes
  since : Nat
  deriving DecidableEq, Repr

structure Power where
  bringUp : BringUp
  dividerLock : Bool
  clockLost : Bool
  windowOut : Bool
  outRun : Nat
  aonFault : Bool
  rootCount : W32
  /-- warm_rst_n has deasserted after CLOCK_LOST and an in-range window is awaited (R39, R40). -/
  recoveryDue : Bool
  /-- tm_mode rose before the lifecycle state was established (R487). -/
  tmPending : Bool
  tmHonoured : Bool
  tmIgnored : Bool
  present : BitVec 3
  transition : Transition
  lastCode : BitVec 4
  lastLeft : BitVec 3
  /-- Step 2 of R413: field-network requests accepted before the entry are still being answered. -/
  entryWait : Bool
  /-- Step H2 of Table 15.1: pwr_ack has shown S0 on two samples. -/
  ackSeen : Bool
  /-- The fuse read that runs belongs to R414 step 5: the DRBG is instantiated after it. -/
  drbgAfterFuses : Bool
  /-- The cycle in which pwr_ack last returned to 0 from 4 or 5 (R410). -/
  monitorFrom : Option Nat
  pwrReq : BitVec 3
  /-- The last pwr_ack value acted on (R98). -/
  pwrAck : BitVec 3
  pdIso : BitVec 6
  pdRet : Bool
  handshakeStart : Nat
  handshakeRaised : Bool
  wakeCause : W32
  /-- A cause has been latched during the entry that runs (R419). -/
  wakeDue : Bool
  wakeFrReady : Bool
  wakeInLevel : BitVec 4
  /-- [3:0] stuck, [7:4] chattering (0x2100.1D). -/
  wakeInMask : Byte
  /-- Cycle from which the stuck limit of an input counts. -/
  stuckFrom : Sparse Nat
  chatter : Sparse Nat
  chatterStart : Nat
  wakeHeld : List HeldWake
  tokens : Nat
  refillStart : Nat
  wakeLast : Bytes
  deriving DecidableEq, Repr

/-! ### Grants (12) -/

structure GrantReq where
  op : HeavyOp
  step : Nat
  since : Nat
  /-- A paused operation that asks again has no wait timeout (R431). -/
  noTimeout : Bool
  deriving DecidableEq, Repr

structure GrantHeld where
  op : HeavyOp
  step : Nat
  since : Nat
  external : Bool
  deriving DecidableEq, Repr

structure Grants where
  internalQ : List GrantReq
  externalQ : List GrantReq
  held : List GrantHeld
  /-- The external request whose handshake runs and which is not granted yet (R429). -/
  handshake : Option GrantReq
  pgReq : Bool
  pgStep : Byte
  pgGrant : Bool
  /-- Cycle in which pg_req rose. -/
  pgSince : Nat
  /-- A handshake has been withdrawn and its pg_grant may still rise (R429). -/
  withdrawn : Bool
  deriving DecidableEq, Repr

/-! ### Dictionary Server (14) -/

structure Mailbox where
  target : W32
  busy : Bool
  done : Bool
  refused : Bool
  length : Byte
  abort : W32
  /-- The 44 data words as one value, word 0 in bits [31:0]. -/
  data : BitVec 1408
  /-- Lowest authority among the writers since the last op (R464): hp_sec, hp_priv. -/
  lowest : Option (Bool × BitVec 2)
  /-- The last read was made at hp_sec = 1. -/
  secretRead : Bool
  deriving DecidableEq, Repr

/-- An open multi-word host write (R458). -/
structure Collection where
  index : W16
  sub : Byte
  words : List W32
  deriving DecidableEq, Repr

inductive UsdoTransfer where
  | download (index : W16) (sub : Byte) (size : Nat) (data : Bytes)
  | upload (index : W16) (sub : Byte) (rest : Bytes)
  deriving DecidableEq, Repr

/-- A message queued for dn_tx_, as the USDO answer it carries (R467). -/
inductive UsdoAnswer where
  | downloadDone
  | segmentDone
  | value (data : Bytes)
  | abort (code : W32)
  deriving DecidableEq, Repr

inductive SessionState where
  | idle | challenged | opened | locked
  deriving DecidableEq, Repr

structure Session where
  state : SessionState
  clientId : W16
  rights : Byte
  nc : Bytes
  ne : Bytes
  ks : Option KeyVal
  confirm : Bytes
  lastSeq : W32
  response : Bytes
  failRun : Nat
  tagFails : Nat
  since : Nat
  deriving DecidableEq, Repr

structure Server where
  mailbox : Mailbox
  page : W16
  collection : Option Collection
  /-- Snapshots by object address (R458). -/
  snapshots : Sparse (List W32)
  hpResp : BitVec 2
  hpRdata : W32
  /-- hp_rvalid: a response is given in this cycle (R85). -/
  hpRvalid : Bool
  rxQueue : List Bytes
  /-- The word of the head of `txQueue` that dn_tx_ presents next, and that it has been presented and held (R54, R88). -/
  txWord : Nat
  txHeld : Bool
  txQueue : List UsdoAnswer
  transfer : Option UsdoTransfer
  transferSince : Nat
  session : Session
  deriving DecidableEq, Repr

/-! ### Key Register File and Key Derivation (06) -/

inductive SlotState where
  | empty | staged | live | stale | retired
  deriving DecidableEq, Repr

inductive Usage where
  | data | derive | mac
  deriving DecidableEq, Repr

/-- A key slot: the metadata of Table 6.1, the recorded parent generation, and for the main bank the row of Table 6.8. -/
structure KeySlot where
  state : SlotState
  usage : Usage
  txu : Bool
  hasParent : Bool
  fromDrs : Bool
  depth : BitVec 2
  parent : W16
  generation : W16
  bindings : Nat
  parentGen : W16
  masked : KeyVal
  mask : KeyVal
  maskedH256 : Block
  maskedH128 : Block
  /-- The state before STAGED, while the slot is STAGED (R213). -/
  before : SlotState
  deriving DecidableEq, Repr

def KeySlot.default : KeySlot :=
  { state := .empty, usage := .data, txu := false, hasParent := false, fromDrs := false, depth := 0, parent := 0,
    generation := 0, bindings := 0, parentGen := 0, masked := 0, mask := 0, maskedH256 := 0, maskedH128 := 0,
    before := .empty }

/-- A copy of a Retention Bank slot (Table 6.12). -/
structure RetCopy where
  masked : KeyVal
  mask : KeyVal
  crc : W32
  valid : Bool
  gen : Bool
  usage : Usage
  generation : W16
  deriving DecidableEq, Repr

def RetCopy.default : RetCopy :=
  { masked := 0, mask := 0, crc := 0, valid := false, gen := false, usage := .data, generation := 0 }

structure RetPair where
  a : RetCopy
  b : RetCopy
  deriving DecidableEq, Repr

/-- An open staging (Table 6.3): target, usage, the value words and the check word written so far. -/
structure Staging where
  target : W16
  usage : Usage
  value : List (Option W32)
  check : Option W32
  since : Nat
  deriving DecidableEq, Repr

/-- A running derivation batch (R227). -/
structure Batch where
  source : Bool
  parent : W16
  first : W16
  count : Nat
  next : Nat
  purpose : W32
  label : Bytes
  context : Bytes
  deriving DecidableEq, Repr

inductive DrbgPhase where
  | uninstantiated
  /-- An instantiation collects. -/
  | instantiating
  | ready
  /-- Ready, and a reseed collects. -/
  | reseeding
  deriving DecidableEq, Repr

structure Drbg where
  phase : DrbgPhase
  gen : CtrDrbg
  requests : Nat
  samples : Bytes
  entropyBits : Nat
  /-- The last sample and how many times it has come in a row. -/
  repeated : Option (W32 × Nat)
  collectStart : Nat
  sampleSeen : Bool
  absentRaised : Bool
  reseedStart : Nat
  deriving DecidableEq, Repr

/-- The fuse read in progress (R95). -/
structure FuseLoad where
  running : Bool
  word : Nat
  repeated : Bool
  /-- The cycle of the last known edge of fz_req: the start, the end of a pair, or a move reported within one (R94). -/
  since : Nat
  image : List W32
  /-- The cycle in which the last word of the image was accepted: fz_ack has still to fall (R94). -/
  drain : Option Nat
  deriving DecidableEq, Repr

structure Keys where
  /-- Slots of both banks by KEY_REF. -/
  slots : Sparse KeySlot
  /-- The slots as they stood before the first change of a cycle, with that cycle (R19, R214). -/
  before : Option (Nat × Sparse KeySlot)
  copies : Sparse RetPair
  staging : Option Staging
  stagingCode : BitVec 4
  stagingSlot : W16
  slotBusy : Bool
  slotCode : BitVec 4
  label : Bytes
  context : Bytes
  batch : Option Batch
  deriveCode : BitVec 4
  deriveDone : Nat
  drs : Option KeyVal
  kAt : Option KeyVal
  kDr : Option KeyVal
  drbg : Drbg
  permSeed : KeyVal
  permDrawn : Bool
  remaskStart : Nat
  remaskMissed : Nat
  remaskOverdue : Bool
  remaskDue : Bool
  fuse : FuseLoad
  fuseFault : Bool
  fuseLoaded : Bool
  lifecycle : BitVec 3
  deviceId : W64
  antiRollback : Nat
  deriving DecidableEq, Repr

/-! ### Attestation (07) -/

inductive AttestKind where
  | native | report | publicKey
  deriving DecidableEq, Repr

structure AttestReq where
  kind : AttestKind
  restarts : Nat
  /-- The values that CFG covers, as the engine last read them (R250). -/
  cfg : Bytes
  deriving DecidableEq, Repr

structure Attest where
  mr : List Bytes
  cfgDigest : Bytes
  extendCount : Nat
  responseCount : Nat
  resetCount : Nat
  nonce : Bytes
  response : Bytes
  report : Bytes
  publicKey : Bytes
  keyId : Bytes
  keyReady : Bool
  signKey : Option KeyVal
  code : BitVec 4
  running : Option AttestReq
  held : List Bytes
  lastSign : Option Nat
  nativeThisSecond : Nat
  refusedThisSecond : Bool
  deriving DecidableEq, Repr

/-! ### Stream contexts (04) -/

inductive AssocState where
  | empty | next | current | old | stopped
  deriving DecidableEq, Repr

/-- An association slot (Table 4.4). -/
structure Assoc where
  an : BitVec 2
  state : AssocState
  klen : Bool
  wm : Bool
  pnEnd : Bool
  key : W16
  inflight : W16
  salt : BitVec 96
  nextPn : W64
  switchAt : W64
  deriving DecidableEq, Repr

def Assoc.default : Assoc :=
  { an := 0, state := .empty, klen := false, wm := false, pnEnd := false, key := 0, inflight := 0, salt := 0,
    nextPn := 1, switchAt := 0 }

/-- A context record (Tables 4.1 to 4.5). -/
structure Context where
  enable : Bool
  rx : Bool
  port : BitVec 5
  cls : BitVec 2
  periodic : Bool
  conf : Bool
  retired : Bool
  ssci : W32
  sci : W64
  watermark : W64
  period : W32
  phase : W32
  shareCtx : BitVec 13
  shareEn : Bool
  switchCount : W32
  a : Assoc
  b : Assoc
  /-- Counters by word number 16 to 27 (Table 4.5). -/
  ctrs : Sparse W64
  deriving DecidableEq, Repr

def Context.default : Context :=
  { enable := false, rx := false, port := 0, cls := 0, periodic := false, conf := false, retired := false, ssci := 0,
    sci := 0, watermark := 0x4000000000000000, period := 0, phase := 0, shareCtx := 0, shareEn := false,
    switchCount := 0, a := Assoc.default, b := Assoc.default, ctrs := [] }

/-! ### Frame path (02, 03) -/

/-- A counter that a frame adds to when it settles (R145, Table 3.8). -/
inductive Tally where
  | port (sub : Nat)
  | context (c : Nat) (word : Nat) (n : Nat)
  /-- Raise the port's source with a bit of its cause word. -/
  | cause (b : Nat)
  | event (src detail : Nat)
  deriving DecidableEq, Repr

/-- The cipher part of a transmit or receive frame, fixed in stages 3 and 4. -/
structure CipherPlan where
  ctx : Nat
  owner : Nat
  slot : SlotId
  an : BitVec 2
  conf : Bool
  klen : Bool
  key : KeyVal
  h : Block
  iv : BitVec 96
  pn : W64
  sci : W64
  /-- Transmit: SC of the SecTAG. Receive: SecTAG length is 16 when set. -/
  sc : Bool
  /-- Receive: the early replay check of R132 called the frame late. -/
  late : Bool
  /-- The slot is still the one the frame's number or key came from. -/
  slotKept : Bool
  deriving DecidableEq, Repr

/-- What the stages before release decided. -/
inductive Disposition where
  /-- The header window is not complete. -/
  | waiting
  | protect (p : CipherPlan)
  /-- Send or deliver unprotected. -/
  | plain
  /-- Deliver a SecTAG frame with its SecTAG and ICV removed, unchecked (rows 7, 9, 11). -/
  | unchecked (conf : Bool)
  /-- A receive frame that a row below row 5 of Table 3.7 drops, while row 5 still waits for the end of the frame: the
  counters of that row. -/
  | refused (causes : List Tally)
  deriving DecidableEq, Repr

/-- Where a frame stands. -/
inductive FramePhase where
  | waiting
  /-- Presented at the output since a cycle. -/
  | begun (since : Nat)
  /-- Closed as errored at the output (R62). -/
  | closed
  | discarded
  deriving DecidableEq, Repr

/-- A clock reading: value in units of 2^-48 ns, and the epoch. -/
structure Stamp where
  t : Nat
  epoch : Byte
  deriving DecidableEq, Repr

/-- The settings that a time-stamp point latches: the port record of Table 11.7, the control words of D0 and D1, the inc
terms of R377 and max_residence. -/
structure StampCfg where
  ptpControl : W32
  dTx : W32
  dRx : W32
  asym : W32
  linkDelay : W32
  control0 : W32
  control1 : W32
  inc0 : Nat
  inc1 : Nat
  maxResidence : Nat
  deriving DecidableEq, Repr

/-- The values latched at a time-stamp point (R383). -/
structure Stamps where
  d0 : Stamp
  d1 : Stamp
  l : Stamp
  cycle : Nat
  selected : Fin 2
  cfg : StampCfg
  deriving DecidableEq, Repr

/-- A late-bound field: its place in the frame as accepted at fi_, and its final bytes (R138, R140). -/
structure LateField where
  pos : Nat
  value : Bytes
  deriving DecidableEq, Repr

/-- A frame in a Port Shim buffer. -/
structure QFrame where
  bytes : Bytes
  complete : Bool
  arrival : Stamps
  disp : Disposition
  phase : FramePhase
  tallies : List Tally
  /-- The context of the frame once stage 2 has named it (R168, R169). -/
  ctx : Option Nat
  timed : Bool
  /-- The stamps of the cycle in which its sop word transferred at the output. -/
  egress : Option Stamps
  /-- The late-bound values, once the Time Unit has supplied them. -/
  late : Option (List LateField)
  /-- Receive: stage 8 has given its verdict. -/
  verdict : Bool
  /-- Receive: the verdict was row 17 (learning, R197). -/
  row17 : Bool
  /-- Receive: the length tests of Table 3.7 row 5 wait for the end of the frame. -/
  lenPending : Bool
  /-- L that names the frame's period: in the cycle of its sop word, after a step in that cycle (R168, R170). -/
  periodAt : Stamp
  /-- Words that have transferred at the output one by one. -/
  sent : Nat
  deriving DecidableEq, Repr

/-- What a frame that left a port looked like at the output. -/
structure OutFrame where
  bytes : Bytes
  err : Bool
  deriving DecidableEq, Repr

/-- An open input frame: bytes and words accepted, the cycle of its sop and of its last word, the cycles in which the
engine held ready at 0 (R110), and whether its words still feed the last record of the buffer. -/
structure OpenIn where
  len : Nat
  words : Nat
  since : Nat
  lastWord : Nat
  held : Nat
  live : Bool
  deriving DecidableEq, Repr

/-- One direction of a Port Shim. -/
structure ShimDir where
  /-- Frames in arrival order, not yet settled. -/
  frames : List QFrame
  inp : Option OpenIn
  /-- Words are discarded up to the next sop (Table 2.2). -/
  skipping : Bool
  stuck : Bool
  /-- fi_ready is 0 for want of space (R65). -/
  readyLow : Bool
  lastOut : Option OutFrame
  deriving DecidableEq, Repr

def ShimDir.default : ShimDir :=
  { frames := [], inp := none, skipping := false, stuck := false, readyLow := false, lastOut := none }

structure Shim where
  tx : ShimDir
  rx : ShimDir
  deriving DecidableEq, Repr

/-! ### Classifier (05) -/

/-- An entry of the Stream or Prefix Table. -/
structure Entry where
  key : Bytes
  result : W32
  deriving DecidableEq, Repr

structure StationEntry where
  key : Bytes
  result : W32
  lastSeen : W16
  deriving DecidableEq, Repr

structure LearnReq where
  mac : Bytes
  vid : BitVec 12
  port : Port
  deriving DecidableEq, Repr

structure Rebuild where
  desc : Fin 16
  firstBank : Nat
  bankCount : Nat
  deriving DecidableEq, Repr

/-- The per-channel copies of the table access record (R461). -/
structure TableRegs where
  key : List W64
  result : W32
  location : W32
  deriving DecidableEq, Repr

def TableRegs.default : TableRegs := { key := [0, 0, 0], result := 0, location := 0 }

structure Classifier where
  /-- Bucket (way · 16,384 + index) to entry. -/
  stream : Sparse Entry
  streamVer : Sparse Byte
  stash : Sparse Entry
  stashVer : Sparse Byte
  /-- Set · 4 + way to entry. -/
  station : Sparse StationEntry
  /-- (bank · 1,024 + bucket) · 4 + place to entry. -/
  pfxEntries : Sparse Entry
  /-- Filters by descriptor number 0-15 (R194). -/
  filters : Sparse (BitVec 4096)
  learnQ : List LearnReq
  second : W16
  /-- The cycle in which the Classifier second last advanced. -/
  secondStart : Nat
  /-- New learned entries per port in this Classifier second. -/
  learned : Sparse Nat
  pinRaised : BitVec 32
  hostRegs : TableRegs
  dnRegs : TableRegs
  code : BitVec 4
  moves : BitVec 2
  stashHigh : Bool
  rebuild : Option Rebuild
  rebuildCode : BitVec 4
  expected : List Bytes
  measured : List Bytes
  shadowStatus : W32
  /-- Tables with a pass running. -/
  passRunning : BitVec 3
  passStart : Nat
  learnStopped : Bool
  /-- Stream locations bumped in a cycle, with the keys that lay there (R187, R189). -/
  bumped : Option (Nat × List (Nat × Bytes))
  /-- Station entries read by a lookup or a learning request in a cycle (R201). -/
  hits : Option (Nat × List Nat)
  deriving DecidableEq, Repr

/-! ### Memory Guard (08) -/

inductive RegionState where
  | disabled | uninit | initialising | active | writeLocked
  deriving DecidableEq, Repr

inductive SweepKind where
  | initialise | rekey | reseed (level : Nat) (node : Nat)
  deriving DecidableEq, Repr

/-- A running region command. `item` counts the lines written so far. -/
structure RegionRun where
  kind : SweepKind
  item : Nat
  /-- Reseed: the new major counter c. -/
  major : W64
  /-- Warm reset caught the line at the pointer (R298). -/
  resumed : Bool
  /-- Rekey: the tag under next_key of the line at the pointer, once its write has been issued (R298). -/
  newTag : Option W64
  deriving DecidableEq, Repr

/-- What requests accepted before a disable still use (R265): objects .01 to .07 of the record, the state, the root and
the keys as they were. -/
structure OldRegion where
  record : List W64
  state : RegionState
  root : BitVec 512
  nextBound : Bool
  nextRef : W16
  rekeyAt : Nat
  deadBelow : Nat
  deriving DecidableEq, Repr

structure RegionDyn where
  state : RegionState
  poisoned : Bool
  code : BitVec 4
  run : Option RegionRun
  sweep : Nat
  ceiling : W64
  /-- The root, as a line in the format of R274. -/
  root : BitVec 512
  /-- The key that a rekey has bound as next_key, and lines with an offset below `rekeyAt` use it (R294, R295). -/
  nextBound : Bool
  nextRef : W16
  rekeyAt : Nat
  /-- Lines with an offset below this and not below `rekeyAt` stand under a next_key of an earlier sweep that stopped
  (R295). -/
  deadBelow : Nat
  /-- Requests accepted before a disable are still outstanding and complete under these (R265). -/
  old : Sparse OldRegion
  deriving DecidableEq, Repr

def RegionDyn.default : RegionDyn :=
  { state := .disabled, poisoned := false, code := 0, run := none, sweep := 0, ceiling := 0, root := 0,
    nextBound := false, nextRef := 0x4000, rekeyAt := 0, deadBelow := 0, old := [] }

/-- What a counter-cache line holds (R286). -/
inductive LineKind where
  | node (level : Nat) (index : Nat)
  | nodeTags (level : Nat) (index : Nat)
  | dataTags (index : Nat)
  deriving DecidableEq, Repr

structure CacheLine where
  addr : Nat
  region : Region
  kind : LineKind
  dirty : Bool
  data : BitVec 512
  deriving DecidableEq, Repr

structure PoisonEntry where
  region : Region
  level : Nat
  node : Nat
  deriving DecidableEq, Repr

/-- The work of the Memory Guard on a channel. -/
inductive MemWork where
  | read
  | write (data : BitVec 512) (mask : W64)
  /-- A request whose status is settled without an access, waiting for its turn (R79). -/
  | settled (st : Nat) (write : Bool)
  /-- Write-back of a dirty line (R287). -/
  | evict (kind : LineKind)
  /-- Renormalisation of a node (R283). -/
  | renorm (level : Nat) (node : Nat)
  /-- One line of a region command. -/
  | sweepLine
  deriving DecidableEq, Repr

/-- The granted work that an operation belongs to (R284, R430). -/
inductive OpCause where
  | none
  /-- A renormalisation led to it. -/
  | renorm
  /-- A region command led to it. -/
  | sweep
  deriving DecidableEq, Repr

/-- An operation in progress on a channel. -/
structure MemOp where
  seq : Nat
  work : MemWork
  /-- Line address [39:6]. -/
  addr : Nat
  id : BitVec 12
  region : Option Region
  /-- Lines read from mc_ for this operation. -/
  got : Sparse (BitVec 512)
  /-- Line addresses whose first attempt failed; a write of line a stands as a + 2^34. -/
  once : List Nat
  /-- Those whose second attempt failed too, with the status. -/
  failed : Sparse (BitVec 2)
  /-- Line addresses whose write has been answered. -/
  done : List Nat
  /-- The line a write stores, once its counter has advanced. -/
  cipher : Option (BitVec 512)
  /-- Renormalisation: the lines it writes, once every child has been read. -/
  children : Sparse (BitVec 512)
  cause : OpCause
  /-- A write-back that waits for a renormalisation of its parent (R287). -/
  stalled : Bool
  /-- Accepted before its region was disabled: the number of what it goes on under (R265). -/
  old : Option Nat
  deriving DecidableEq, Repr

/-- A request on mc_: presented, or accepted by the controller and outstanding. -/
structure McReq where
  id : Nat
  seq : Nat
  addr : Nat
  write : Bool
  data : BitVec 512
  mask : W64
  /-- The cycle in which it was accepted. -/
  since : Nat
  /-- The word has transferred; until then it is held on mc_req_ (R53, R54). -/
  sent : Bool
  deriving DecidableEq, Repr

/-- A response on mq_ (Table 2.5). -/
structure MqRsp where
  id : BitVec 12
  write : Bool
  rdata : BitVec 512
  status : BitVec 3
  deriving DecidableEq, Repr

structure MemChan where
  ops : List MemOp
  mc : List McReq
  /-- Identifiers withheld after a timeout (R82). -/
  withheld : List Nat
  rsp : List MqRsp
  nextSeq : Nat
  lateDiscards : Nat
  /-- Faults of operations in progress that have been counted: operation, access (R271). -/
  noted : List (Nat × Nat)
  /-- The level of mc_req_ready in this cycle. -/
  mcReady : Bool
  deriving DecidableEq, Repr

def MemChan.default : MemChan :=
  { ops := [], mc := [], withheld := [], rsp := [], nextSeq := 0, lateDiscards := 0, noted := [], mcReady := true }

structure Memory where
  regions : Sparse RegionDyn
  /-- Set · 16 + way to line. -/
  cache : Sparse CacheLine
  /-- Tree pseudo-LRU bits per set. -/
  plru : Sparse (BitVec 15)
  poison : Sparse PoisonEntry
  chans : Sparse MemChan
  deriving DecidableEq, Repr

/-! ### DXL trunks (09, 10) -/

/-- A replay entry (Table 9.7) with its payload. -/
structure ReplayEntry where
  esn : Nat
  vc : BitVec 2
  dst : W16
  r : Nat
  /-- The first transmission of this session has been made. -/
  sent : Bool
  settled : Bool
  charge : Nat
  payload : Bytes
  lost : Bool
  deriving DecidableEq, Repr

/-- A payload in a transmit queue. -/
structure TxPayload where
  dst : W16
  payload : Bytes
  /-- L when its sop word was accepted, in whole ns (R373). -/
  acceptedAt : Nat
  /-- The cycle in which its sop word was accepted. -/
  acceptedIn : Nat
  deriving DecidableEq, Repr

/-- A payload being accepted on tf_tx_, with the cycle of its last word. -/
structure TfOpen where
  vc : BitVec 2
  dst : W16
  bytes : Bytes
  acceptedAt : Nat
  acceptedIn : Nat
  lastWord : Nat
  deriving DecidableEq, Repr

structure RxPayload where
  vc : BitVec 2
  src : W16
  payload : Bytes
  deriving DecidableEq, Repr

inductive SenderState where
  | down | run | replay | keyHalt
  deriving DecidableEq, Repr

/-- The framing state of Table 9.10. -/
inductive Framing where
  | between
  | inPacket (need : Nat) (flits : List Bytes)
  | resync
  deriving DecidableEq, Repr

inductive TrunkState where
  | disabled | backoff | grant | align | exchange | confirm | up
  deriving DecidableEq, Repr

/-- One physical lane. -/
structure Lane where
  locked : Bool
  aligned : Bool
  /-- Consecutive markers found while not aligned. -/
  found : Nat
  missed : Nat
  failed : Bool
  degraded : Bool
  corrected : Nat
  /-- The cycle since which the lane has been aligned in both rx_good masks. -/
  goodSince : Option Nat
  deriving DecidableEq, Repr

def Lane.default : Lane :=
  { locked := false, aligned := false, found := 0, missed := 0, failed := false, degraded := false, corrected := 0,
    goodSince := none }

/-- A pending lane change (R365, R366): the groups at which this end switches each direction. -/
structure LaneChange where
  own : Bool
  mask : Byte
  cmdId : W16
  txAt : W32
  rxAt : W32
  txDone : Bool
  rxDone : Bool
  /-- The first copy of an own LANE_REQ has been sent: the change is committed and pending (R365, R367). -/
  sent : Bool
  deriving DecidableEq, Repr

/-- A lane command flit that waits at rank 1 of Table 9.8 (Table 10.8). -/
structure LaneCmd where
  kind : Byte
  mask : Byte
  reason : Byte
  cmdId : W16
  gTx : W32
  gRx : W32
  deriving DecidableEq, Repr

structure TrunkSt where
  -- transport (Table 9.12 and R317 to R343)
  n : Nat
  u : Nat
  e : Nat
  entries : List ReplayEntry
  txQ : Sparse (List TxPayload)
  tfOpen : Option TfOpen
  /-- Words are discarded up to the next sop (Table 2.2). -/
  tfSkip : Bool
  rxQ : Sparse (List RxPayload)
  /-- The payload on tf_rx_ whose last word has not transferred. -/
  presenting : Option RxPayload
  /-- Words of it that have transferred. -/
  rxSent : Nat
  rxStall : Option Nat
  rxStuckRaised : Bool
  lastRx : Option RxPayload
  cr : Sparse Nat
  cRet : Sparse (BitVec 12)
  cSeen : Sparse (BitVec 12)
  partnerAlloc : Sparse Nat
  afc : Nat
  aLast : Option Nat
  lcc : Nat
  lccLast : Option Nat
  txKp : Bool
  rxKp : Bool
  txOnNext : Bool
  rxOnNext : Bool
  partnerNkr : Bool
  sender : SenderState
  /-- The next ESN at rank 3 of Table 9.8; N when no held entry waits to be sent. -/
  replayPtr : Nat
  timerStart : Option Nat
  esnEnd : Bool
  salt : BitVec 96
  saltNext : BitVec 96
  nonceOwn : Block
  noncePartner : Block
  /-- A due case of R321 has been seen. -/
  ackDue : Bool
  /-- Changes that no sent header or ACK flit has carried, oldest first: 0 to 3 the counters C_ret, 4 the ack value;
  with the cycle of the change. -/
  changes : List (Nat × Nat)
  lastAck : Nat
  nkrSent : Bool
  nextCvc : Nat
  /-- Which of VC0 and BX sent the last new packet of the two. -/
  lastBulk : BitVec 2
  framing : Framing
  starved : Sparse Bool
  headSince : Sparse (Option Nat)
  commands : List LaneCmd
  /-- Units of the group being filled, with F. -/
  lineOut : List (Bool × Bytes)
  /-- The last whole group sent, as codewords. -/
  lastGroup : List (List Sym)
  -- management (Table 10.2 and R347 to R373)
  state : TrunkState
  epoch : W32
  peerEpoch : W32
  prevSid : W32
  peerNode : W16
  /-- Active lanes of the transmit and of the receive side; they differ only inside a lane change. -/
  active : Byte
  rxActive : Byte
  lastDown : Nat
  lastFail : Nat
  failures : Nat
  resumed : Bool
  failRaised : Bool
  lanes : Sparse Lane
  partnerGood : Byte
  partnerDegraded : Byte
  ts1Partner : Option Bytes
  ts1Own : Bytes
  ts2Partner : Option Bytes
  ts2Own : Bytes
  /-- Own proposal in EXCHANGE, the lane set in force from CONFIRM on (R354). -/
  laneSet : Byte
  useNext : Bool
  ts3Own : Bytes
  /-- The cycle of the first TS3 block sent. -/
  ts3Since : Option Nat
  ts3Good : Bool
  trainStart : Nat
  trainPaused : Nat
  pauseSince : Option Nat
  backoffStart : Nat
  windowStart : Nat
  lineErrors : Nat
  creditStart : Nat
  txGroup : W32
  rxGroup : W32
  /-- Changes of this end and changes applied for the partner, oldest first; at most one is this end's own. -/
  changing : List LaneChange
  /-- The loser's command that the winner of R367 treats when its own is complete. -/
  deferred : Option LaneCmd
  nextCmd : W16
  lastCmdSeen : Option W16
  /-- Groups in which RETRAIN is still to be sent, and its reason (R372). -/
  retrainLeft : Nat
  retrainCause : Nat
  /-- The group being filled carries one of them. -/
  retrainIn : Bool
  /-- Group 0 of the partner's stream has been seen (R358). -/
  rxStarted : Bool
  /-- The last accepted partner TS1 carried key_bound = 0 (R359). -/
  partnerUnbound : Bool
  deriving DecidableEq, Repr

/-! ### Time Unit (11) -/

inductive DomainState where
  | free | acquiring | locked | holdover | discontinuous
  deriving DecidableEq, Repr

structure Domain where
  /-- Value in units of 2^-48 ns. -/
  clk : Nat
  epoch : Byte
  /-- f in units of 2^-40 ppb. -/
  f : Int
  /-- ρ in units of 2^-48 ns. -/
  rho : Int
  state : DomainState
  run : Nat
  sampled : Bool
  lastSample : Nat
  lastOffset : W64
  lockedSince : Nat
  /-- Cycle of the previous accepted pps edge. -/
  lastEdge : Option Nat
  setValue : TimeStamp
  /-- The cycle in which the clock was last set: it shows the set value in the next one (R379). -/
  setIn : Option Nat
  deriving DecidableEq, Repr

def Domain.default : Domain :=
  { clk := 0, epoch := 0, f := 0, rho := 0, state := .free, run := 0, sampled := false, lastSample := 0,
    lastOffset := 0, lockedSince := 0, lastEdge := none, setValue := 0, setIn := none }

inductive TtState where
  | idle | armed | done | late
  deriving DecidableEq, Repr

/-- A Timetable entry (Table 11.6). -/
structure TtEntry where
  timeS : W64
  timeNs : W32
  period : W32
  control : W32
  width : W32
  state : TtState
  skipped : Bool
  runs : Nat
  /-- Due time in units of ns. -/
  due : Nat
  deriving DecidableEq, Repr

def TtEntry.default : TtEntry :=
  { timeS := 0, timeNs := 0, period := 0, control := 0, width := 1000, state := .idle, skipped := false, runs := 0, due := 0 }

/-- An output pin: its level, and the cycle in which a pulse ends. -/
structure OutPin where
  level : Bool
  pulseEnd : Option Nat
  /-- pps_out: the next pulse instant in ns. -/
  nextAt : Nat
  deriving DecidableEq, Repr

def OutPin.default : OutPin := { level := false, pulseEnd := none, nextAt := 0 }

structure Capture where
  fifo : List Bytes
  lastEdge : Option Nat
  deriving DecidableEq, Repr

structure PpsIn where
  lastEdge : Option Nat
  last : TimeStamp
  deriving DecidableEq, Repr

/-- The clocks as every read of one cycle sees them (R379). -/
structure ClockView where
  at_ : Nat
  d0 : Stamp
  d1 : Stamp
  l : Stamp
  sel : Fin 2
  deriving DecidableEq, Repr

structure TimeUnit where
  d0 : Domain
  d1 : Domain
  sel : Fin 2
  lam : Int
  epochL : Byte
  fifo : List Bytes
  fifoOverflowed : Bool
  captures : Sparse Capture
  ppsIn : Sparse PpsIn
  /-- 0-3 pps_out, 4-11 trig_out. -/
  pins : Sparse OutPin
  timetable : Sparse TtEntry
  /-- The first cycle in which the clocks advance after their domain was released (R408). -/
  startAt : Nat
  /-- The clocks from before the first step, set or switch of a cycle (R379). -/
  before : Option ClockView
  deriving DecidableEq, Repr

/-! ### Faults and test (13, 14) -/

inductive BistRun where
  | none
  | waiting
  | running
  deriving DecidableEq, Repr

structure Faults where
  /-- Group of each pipeline (0x4800.02). -/
  pipelines : List (BitVec 3)
  /-- Spares taken, by array code. -/
  sparesUsed : Sparse Nat
  /-- Retired units: array · 2^32 + unit. -/
  retired : Sparse Bool
  lastingBits : Sparse Nat
  lowRaised : Sparse Bool
  exhaustedRaised : Sparse Bool
  lastingTotal : W32
  wearWritten : Bool
  lastingWritten : Bool
  scrubStart : Nat
  bist : BistRun
  bistResult : BitVec 3
  bistArrays : Byte
  spareBist : BistRun
  spareDue : Bool
  spareLast : BitVec 2
  spareRuns : Nat
  spareStart : Nat
  s0Start : Nat
  deriving DecidableEq, Repr

/-- The state of the block. -/
structure State where
  /-- Commands that wait, first in first out. -/
  pending : List Instr
  /-- clk_core cycles since the dividers of this model first ran. -/
  now : Nat
  /-- Settings of the dictionary by object address, index · 256 + subindex. -/
  regs : Sparse W64
  /-- U64 counters of the dictionary by object address (R146). -/
  ctrs : Sparse W64
  events : Events
  power : Power
  grants : Grants
  server : Server
  keys : Keys
  attest : Attest
  contexts : Sparse Context
  shims : Sparse Shim
  cls : Classifier
  mem : Memory
  trunks : Sparse TrunkSt
  time : TimeUnit
  faults : Faults
  deriving DecidableEq, Repr

/-- Reasons the model would stop with a fault. No meaning raises one: the manual gives every command an effect. -/
inductive Fault where
  /-- Raised by no meaning; kept so that the outcome type has a name to show. Safe. -/
  | none
  deriving DecidableEq, Repr

/-- Reasons the model would refuse a command. -/
inductive Refusal where
  /-- A command without a meaning in this model, by its mnemonic. Raised only by an arm of exec. Safe. -/
  | notModelled (mnemonic : String)
  deriving DecidableEq, Repr

def Mailbox.default : Mailbox :=
  { target := 0, busy := false, done := false, refused := false, length := 0, abort := 0, data := 0, lowest := none,
    secretRead := false }

def Session.default : Session :=
  { state := .idle, clientId := 0, rights := 0, nc := [], ne := List.replicate 8 0, ks := none,
    confirm := List.replicate 16 0, lastSeq := 0, response := List.replicate 32 0, failRun := 0, tagFails := 0, since := 0 }

def Server.default : Server :=
  { mailbox := Mailbox.default, page := 0, collection := none, snapshots := [], hpResp := 0, hpRdata := 0, hpRvalid := false,
    rxQueue := [], txQueue := [], txWord := 0, txHeld := false, transfer := none, transferSince := 0, session := Session.default }

def Events.default : Events := { pending := 0, cause := [], count := [], lastTime := [], detail := [], held := [] }

def Power.default : Power :=
  { bringUp := .h1, dividerLock := false, clockLost := false, windowOut := false, outRun := 0, aonFault := false,
    rootCount := 0, recoveryDue := false, tmPending := false, tmHonoured := false, tmIgnored := false, present := 0, transition := .idle,
    lastCode := 0, lastLeft := 0, entryWait := false, ackSeen := false, drbgAfterFuses := false, monitorFrom := none, pwrReq := 0, pwrAck := 0, pdIso := 0b111110, pdRet := false, handshakeStart := 0,
    handshakeRaised := false, wakeCause := 0, wakeDue := false, wakeFrReady := false, wakeInLevel := 0, wakeInMask := 0, stuckFrom := [],
    chatter := [], chatterStart := 0, wakeHeld := [], tokens := 4, refillStart := 0, wakeLast := List.replicate 16 0 }

def Grants.default : Grants :=
  { internalQ := [], externalQ := [], held := [], handshake := none, pgReq := false, pgStep := 0, pgGrant := false, pgSince := 0,
    withdrawn := false }

def Drbg.default : Drbg :=
  { phase := .uninstantiated, gen := ⟨0, 0⟩, requests := 0, samples := [], entropyBits := 0, repeated := none,
    collectStart := 0, sampleSeen := false, absentRaised := false, reseedStart := 0 }

def FuseLoad.default : FuseLoad := { running := false, word := 0, repeated := false, since := 0, image := [], drain := none }

def Keys.default : Keys :=
  { slots := [], before := none, copies := [], staging := none, stagingCode := 0, stagingSlot := 0, slotBusy := false, slotCode := 0,
    label := List.replicate 12 0, context := List.replicate 24 0, batch := none, deriveCode := 0, deriveDone := 0,
    drs := none, kAt := none, kDr := none, drbg := Drbg.default, permSeed := 0, permDrawn := false, remaskStart := 0,
    remaskMissed := 0, remaskOverdue := false, remaskDue := false, fuse := FuseLoad.default, fuseFault := false,
    fuseLoaded := false, lifecycle := 0, deviceId := 0, antiRollback := 0 }

def Attest.default : Attest :=
  { mr := List.replicate 8 (List.replicate 32 0), cfgDigest := List.replicate 32 0, extendCount := 0, responseCount := 0,
    resetCount := 0, nonce := List.replicate 16 0, response := List.replicate 88 0, report := List.replicate 144 0,
    publicKey := List.replicate 64 0, keyId := List.replicate 8 0, keyReady := false, signKey := none, code := 0,
    running := none, held := [], lastSign := none, nativeThisSecond := 0, refusedThisSecond := false }

def Classifier.default : Classifier :=
  { stream := [], streamVer := [], stash := [], stashVer := [], station := [], pfxEntries := [], filters := [],
    learnQ := [], second := 0, secondStart := 0, learned := [], pinRaised := 0, hostRegs := TableRegs.default,
    dnRegs := TableRegs.default, code := 0, moves := 0, stashHigh := false, rebuild := none, rebuildCode := 0,
    expected := List.replicate 3 (List.replicate 12 0), measured := List.replicate 3 (List.replicate 12 0),
    shadowStatus := 0, passRunning := 0, passStart := 0, learnStopped := false, bumped := none, hits := none }

def Memory.default : Memory := { regions := [], cache := [], plru := [], poison := [], chans := [] }

def TrunkSt.default : TrunkSt :=
  { n := 0, u := 0, e := 0, entries := [], txQ := [], tfOpen := none, tfSkip := false, rxQ := [], presenting := none,
    rxSent := 0, rxStall := none, rxStuckRaised := false, lastRx := none, cr := [], cRet := [], cSeen := [], partnerAlloc := [], afc := 0,
    aLast := none, lcc := 0, lccLast := none, txKp := false, rxKp := false, txOnNext := false, rxOnNext := false,
    partnerNkr := false, sender := .down, replayPtr := 0, timerStart := none, esnEnd := false, salt := 0, saltNext := 0,
    nonceOwn := 0, noncePartner := 0, ackDue := false, changes := [], lastAck := 0, nkrSent := false, nextCvc := 0,
    lastBulk := 3, framing := .between, starved := [], headSince := [], commands := [], lineOut := [], lastGroup := [],
    state := .disabled, epoch := 0, peerEpoch := 0, prevSid := 0, peerNode := 0, active := 0, rxActive := 0, lastDown := 0,
    lastFail := 0, failures := 0, resumed := false, failRaised := false, lanes := [], partnerGood := 0,
    partnerDegraded := 0, ts1Partner := none, ts1Own := [], ts2Partner := none, ts2Own := [], laneSet := 0,
    useNext := false, ts3Own := [], ts3Since := none, ts3Good := false, trainStart := 0, trainPaused := 0,
    pauseSince := none, backoffStart := 0, windowStart := 0, lineErrors := 0, creditStart := 0, txGroup := 0, rxGroup := 0,
    changing := [], deferred := none, nextCmd := 0, lastCmdSeen := none, retrainLeft := 0, retrainCause := 0,
    retrainIn := false, rxStarted := false, partnerUnbound := false }

def Shim.default : Shim := { tx := ShimDir.default, rx := ShimDir.default }

def TimeUnit.default : TimeUnit :=
  { d0 := Domain.default, d1 := Domain.default, sel := 0, lam := 0, epochL := 0, fifo := [], fifoOverflowed := false,
    captures := [], ppsIn := [], pins := [], timetable := [], startAt := 0, before := none }

def Faults.default : Faults :=
  { pipelines := [0, 0, 0, 0, 1, 1, 1, 1, 2, 2, 2, 3, 3, 3, 4, 4, 4, 4, 4, 4, 4, 4, 5, 5], sparesUsed := [], retired := [],
    lastingBits := [], lowRaised := [], exhaustedRaised := [], lastingTotal := 0, wearWritten := false,
    lastingWritten := false, scrubStart := 0, bist := .none, bistResult := 0, bistArrays := 0, spareBist := .none,
    spareDue := false, spareLast := 0, spareRuns := 0, spareStart := 0, s0Start := 0 }

/-- The block with rst_n just at 1 and no step of Table 15.1 taken: every field at its Default or Reset value (R9),
every sparse store empty, the queue empty. -/
def State.reset : State :=
  { pending := [], now := 0, regs := [], ctrs := [], events := Events.default, power := Power.default,
    grants := Grants.default, server := Server.default, keys := Keys.default, attest := Attest.default, contexts := [],
    shims := [], cls := Classifier.default, mem := Memory.default, trunks := [], time := TimeUnit.default,
    faults := Faults.default }

end Sys2Proof.Machine
end

