-- ==== Sys2Proof/Machine/Ops.lean ====
section
/-! DEFINITION. The shared operations: sparse stores, dictionary settings and counters, clocks and stamps, raising
events (R453, R455), asking for grants (R428, R430). -/

namespace Sys2Proof.Machine

/-- What a meaning answers. -/
abbrev Out := Host.Outcome State Fault Refusal

/-! ### Sparse stores -/

/-- The value listed under a number. -/
def spFind {α : Type} : Sparse α → Nat → Option α
  | [], _ => none
  | (k, v) :: m, n => if k = n then some v else spFind m n

/-- List a value under a number, keeping the numbers rising. -/
def spPut {α : Type} : Sparse α → Nat → α → Sparse α
  | [], n, v => [(n, v)]
  | (k, w) :: m, n, v =>
    if n < k then (n, v) :: (k, w) :: m
    else if n = k then (n, v) :: m
    else (k, w) :: spPut m n v

/-- Take a number out. -/
def spDel {α : Type} : Sparse α → Nat → Sparse α
  | [], _ => []
  | (k, w) :: m, n => if k = n then spDel m n else (k, w) :: spDel m n

/-- Read a number: its value, or its default when it is not listed. -/
def spGet {α : Type} (d : Nat → α) (m : Sparse α) (n : Nat) : α := (spFind m n).getD (d n)

/-- Write a number; writing its default takes it out. -/
def spSet {α : Type} [DecidableEq α] (d : Nat → α) (m : Sparse α) (n : Nat) (v : α) : Sparse α :=
  if v = d n then spDel m n else spPut m n v

/-- The numbers are rising and no value is the default of its number. -/
def spWf {α : Type} [DecidableEq α] (d : Nat → α) (m : Sparse α) : Bool :=
  decide (m.Pairwise (fun a b => a.1 < b.1)) && m.all (fun a => decide (a.2 ≠ d a.1))

/-! ### Dictionary settings and counters -/

/-- The address of an object: index · 256 + subindex. -/
def oa (idx sub : Nat) : Nat := idx * 256 + sub

/-- The Default column of the settings kept in `regs` (R9). -/
def regDefaultAt (idx sub : Nat) : W64 :=
  if idx = 0x1200 then 0x80000000
  else if idx = 0x2003 then (if sub = 1 then 1000 else if sub = 2 then 60 else 3)
  else if idx = 0x2100 then
    (if sub = 3 then 5 else if sub = 6 then 0x4000 else if sub = 8 then 0x88B5 else if sub = 0x1B then 0x03E80004
     else if sub = 0x1C then 0x000807D0 else 0)
  else if idx = 0x2401 then
    (if sub = 2 then 0x628 else if sub = 3 then 0x38 else if sub = 4 then 0x3FF else if sub = 5 then 0x88968896
     else if sub = 7 then 2 else if sub = 8 then 0x27F28F else 0)
  else if 0x2801 ≤ idx ∧ idx ≤ 0x2820 then (if sub = 1 then 0x06000270 else if sub = 3 then 1000 else 0)
  else if idx = 0x3401 then 0x01000000
  else if idx = 0x3402 then (if sub = 1 then 300 else if sub = 3 then 16384 else 0)
  else if idx = 0x3405 then (if sub = 7 then 0x000A0000 else 0)
  else if idx = 0x3804 then (if sub = 7 then 1 else 0)
  else if idx = 0x3806 then (if sub = 1 then 1000 else 0)
  else if idx = 0x3808 then (if sub = 1 then 8 else if sub = 5 then 60 else 0)
  else if idx = 0x3A04 then 0xFF
  else if idx = 0x3A06 then (if sub = 1 then 50 else 1000)
  else if idx = 0x3C00 then (if sub ≤ 2 then 200 else 0)
  else if 0x3C01 ≤ idx ∧ idx ≤ 0x3C08 then (if sub = 6 ∨ sub = 7 then 0x4000 else 0)
  else if idx = 0x4001 ∨ idx = 0x4002 then
    (if sub = 2 ∨ sub = 3 then 0x4000 else if sub = 5 then 3 else if sub = 6 then 1280 else if sub = 7 then 384
     else if sub = 8 then 128 else if sub = 9 then 256 else 0)
  else if idx = 0x4005 ∨ idx = 0x4006 then
    (if sub = 1 then 0x1FE else if sub = 2 then 8 else if sub = 3 then 1 else if sub = 4 then 1000 else if sub = 5 then 16
     else if sub = 6 then 200 else if sub = 7 then 1000 else if sub = 8 then 16384 else if sub = 9 then 2048 else 0)
  else if idx = 0x4400 then
    (if sub = 1 then 0x000A0000 else if sub = 5 then 100000000 else if sub = 6 then 200000 else 0)
  else if idx = 0x4401 ∨ idx = 0x4402 then
    (if sub = 2 then 32768 else if sub = 3 then 1048576 else if sub = 4 then 100000 else if sub = 5 then 200000
     else if sub = 6 then 1000 else if sub = 7 then 100 else if sub = 8 then 8 else if sub = 9 then 500 else 0)
  else if 0x4450 ≤ idx ∧ idx ≤ 0x445B then (if sub = 2 then 100000000 else 0)
  else if idx = 0x4800 then (if sub = 4 then 0x0001000A else if sub = 5 then 25 else 0)
  else if idx = 0x4A00 then (if sub = 1 then 0x28 else if sub = 2 then 100 else if sub = 3 ∨ sub = 4 then 10 else 0)
  else if idx = 0x5F00 then (if sub = 3 then 60 else 0)
  else 0

/-- The default of a setting by its address. Addresses at or above 2^24 are the field network's copies of R461. -/
def regDefault (a : Nat) : W64 := regDefaultAt (a % 2 ^ 24 / 256) (a % 256)

def ctrDefault (_ : Nat) : W64 := 0

def reg (s : State) (idx sub : Nat) : W64 := spGet regDefault s.regs (oa idx sub)
def setReg (s : State) (idx sub : Nat) (v : W64) : State := { s with regs := spSet regDefault s.regs (oa idx sub) v }

/-- A setting as a number. -/
def regN (s : State) (idx sub : Nat) : Nat := (reg s idx sub).toNat

def ctr (s : State) (idx sub : Nat) : W64 := spGet ctrDefault s.ctrs (oa idx sub)

/-- Add to a counter, saturating (R146). -/
def bumpBy (s : State) (idx sub n : Nat) : State :=
  { s with ctrs := spSet ctrDefault s.ctrs (oa idx sub) (satAdd64 (ctr s idx sub) n) }

def bump (s : State) (idx sub : Nat) : State := bumpBy s idx sub 1

/-! ### Time in cycles (Table 1.4) -/

def usCycles (n : Nat) : Nat := 1200 * n
def msCycles (n : Nat) : Nat := 1200000 * n
def secCycles (n : Nat) : Nat := 1200000000 * n
/-- `n` clk_ctl cycles. -/
def ctlCycles (n : Nat) : Nat := 6 * n
/-- `n` clk_aon cycles, rounded up to whole clk_core cycles. -/
def aonCycles (n : Nat) : Nat := ceilDiv (n * 1200000000) 32768

/-- A period of `n` cycles has passed since cycle `from0`. -/
def elapsed (s : State) (from0 n : Nat) : Bool := decide (from0 + n ≤ s.now)

/-! ### Clock domains (R42, R43) -/

def domainOn (s : State) (i : Nat) : Bool := !s.power.pdIso.getLsbD i
def ctlOn (s : State) : Bool := domainOn s 1
def timeOn (s : State) : Bool := domainOn s 2
def storeOn (s : State) : Bool := domainOn s 3

/-- PD_PATH and PD_FARM are On: S0 without a transition (R409, R413 step 1). -/
def pathOn (s : State) : Bool :=
  s.power.bringUp == .done && s.power.present == 0 && s.power.transition == .idle && domainOn s 4 && domainOn s 5

/-- hp_ready and dn_rx_ready can be 1 (R416, R486). -/
def serverReady (s : State) : Bool :=
  s.power.bringUp == .done && ctlOn s &&
    match s.power.transition with
    | .idle => s.power.present.toNat < 3
    | .entering k => k.toNat < 3
    | .exiting k => k.toNat < 3
    | .fuses _ => false
    | .entropy _ => false

/-- The engine is in S0 with no transition running. -/
def inS0 (s : State) : Bool := s.power.bringUp == .done && s.power.present == 0 && s.power.transition == .idle

/-! ### The clocks of the Time Unit (R376, R380) -/

/-- One nanosecond in units of 2^-48 ns. -/
def nsUnit : Nat := 2 ^ 48
/-- One second in units of 2^-48 ns. -/
def secUnit : Nat := 1000000000 * nsUnit
/-- Values of a clock wrap with its 48-bit seconds count. -/
def clkWrap : Nat := 2 ^ 48 * secUnit

def domainOf (t : TimeUnit) (i : Fin 2) : Domain := if i = 0 then t.d0 else t.d1

def setDomain (t : TimeUnit) (i : Fin 2) (d : Domain) : TimeUnit :=
  if i = 0 then { t with d0 := d } else { t with d1 := d }

/-- Add an integer to a clock value. -/
def clkAdd (t : Nat) (x : Int) : Nat := ((t : Int) + x).emod clkWrap |>.toNat

/-- L = D_s + λ (R380). -/
def localTime (t : TimeUnit) : Nat := clkAdd (domainOf t t.sel).clk t.lam

/-- The TIME_STAMP of a clock value (Table 0.6, R376). -/
def timeStamp (dom : Bool) (epoch : Byte) (t : Nat) : TimeStamp :=
  let sec := t / secUnit
  let ns := t % secUnit / nsUnit
  let sub := t % nsUnit / 2 ^ 32
  (BitVec.ofNat 7 0) ++ BitVec.ofBool dom ++ epoch ++ BitVec.ofNat 48 sec ++ BitVec.ofNat 32 ns ++ BitVec.ofNat 16 sub

/-- The clocks as they stand now. -/
def presentView (s : State) : ClockView :=
  { at_ := s.now, d0 := ⟨s.time.d0.clk, s.time.d0.epoch⟩, d1 := ⟨s.time.d1.clk, s.time.d1.epoch⟩
    l := ⟨localTime s.time, s.time.epochL⟩, sel := s.time.sel }

/-- The clocks as every read of this cycle sees them: from before any step, set or switch made in it (R379). -/
def clockView (s : State) : ClockView :=
  match s.time.before with
  | some v => if v.at_ = s.now then v else presentView s
  | none => presentView s

/-- Keep what the reads of this cycle see, before a step, set or switch (R379). -/
def noteClocks (s : State) : State := { s with time := { s.time with before := some (clockView s) } }

/-- L(x) for every read in this cycle x. -/
def readTime (s : State) : Nat := (clockView s).l.t

/-- L as a TIME_STAMP with the selected domain and E_L, moved by `by_`. -/
def localStampAt (s : State) (by_ : Int) : TimeStamp :=
  let v := clockView s
  timeStamp (decide (v.sel = 1)) v.l.epoch (clkAdd v.l.t by_)

def localStamp (s : State) : TimeStamp := localStampAt s 0

/-- L in whole nanoseconds since 0. -/
def localNs (s : State) : Nat := localTime s.time / nsUnit

/-- One clk_core period of 5/6 ns, rounded down, in units of 2^-48 ns (R377). -/
def rNom : Nat := 234562480592213

/-- inc_i of R377: R_nom · (1 + f · 10^-9), f in units of 2^-40 ppb. -/
def incOf (f : Int) : Nat := (roundDiv (rNom * (1000000000 * 2 ^ 40 + f)) (1000000000 * 2 ^ 40)).toNat

/-! ### Events (R453 to R455) -/

/-- Sources that PD_AON units raise (R455). -/
def aonSource (src : Nat) : Bool := (193 ≤ src && src ≤ 196) || (224 ≤ src && src ≤ 226)

def heldDefault (_ : Nat) : HeldEvent := ⟨0, 0⟩
def w64Zero (_ : Nat) : W64 := 0
def w32Zero (_ : Nat) : W32 := 0
def w16Zero (_ : Nat) : W16 := 0
def tsZero (_ : Nat) : TimeStamp := 0
def natZero (_ : Nat) : Nat := 0
def boolFalse (_ : Nat) : Bool := false

/-- Record a raise of a source in the Fault Manager (R453). -/
def recordRaise (e : Events) (src : Nat) (detail : W16) (ts : TimeStamp) : Events :=
  { e with
    pending := setBit e.pending src true
    count := spSet w64Zero e.count src (satAdd64 (spGet w64Zero e.count src) 1)
    lastTime := spSet tsZero e.lastTime src ts
    detail := spSet w16Zero e.detail src detail }

/-- Hold a raise in PD_AON while PD_CTL is Off (R455). -/
def holdRaise (e : Events) (src : Nat) (detail : W16) : Events :=
  let h := spGet heldDefault e.held src
  { e with held := spPut e.held src ⟨BitVec.ofNat 16 (satInc 0xFFFF h.count.toNat), detail⟩ }

/-- Raise event source `src` with the unit number `detail` (R453, R455). -/
def raise (s : State) (src : Nat) (detail : Nat) : State :=
  if ctlOn s then
    { s with events := recordRaise s.events src (BitVec.ofNat 16 detail) (if timeOn s then localStamp s else 0) }
  else if aonSource src then { s with events := holdRaise s.events src (BitVec.ofNat 16 detail) }
  else s

/-- Raise a source that has a cause word, setting cause bit `b` (R454). -/
def raiseCause (s : State) (src b detail : Nat) : State :=
  let s1 := raise s src detail
  if ctlOn s then
    { s1 with events := { s1.events with cause := spSet w32Zero s1.events.cause src (setBit (spGet w32Zero s1.events.cause src) b true) } }
  else s1

/-! Event sources (Table 13.5). A port's, region's or channel's source has a cause word. -/

def evPort (p : Nat) : Nat := p
def evTransmitSwitch : Nat := 32
def evReceiveSwitch : Nat := 33
def evWatermark : Nat := 34
def evHardStop : Nat := 35
def evDeadlineDrop : Nat := 36
def evContextRetired : Nat := 37
def evStashHigh : Nat := 38
def evLearnRefused : Nat := 39
def evStationMove : Nat := 40
def evShadowMismatch : Nat := 41
def evTableEntryLost : Nat := 42
def evRebuildDone : Nat := 43
def evStagingTimeout : Nat := 64
def evCommitFail : Nat := 65
def evRemaskOverdue : Nat := 66
def evDrbgFault : Nat := 67
def evSlotRetired : Nat := 68
def evRetentionCopyLoss : Nat := 69
def evAttestRefused : Nat := 70
def evEntropyFault : Nat := 71
def evEntropyAbsent : Nat := 72
def evFieldProtocol : Nat := 73
def evSessionFail : Nat := 74
def evTransferTimeout : Nat := 75
def evRegion (r : Nat) : Nat := 96 + r
def evChannel (k : Nat) : Nat := 104 + k
/-- Trunk source `j` of trunk `t`: 0 up, 1 down, 2 training-failed, 3 partner-restart, 4 lane-miswired, 5 lane-degraded,
6 lane-change, 7 lane-FIFO fault, 8 credit-starved, 9 deadline-drop, 10 protocol-error, 11 auth-fail, 12 misaddressed,
13 receive-stuck, 14 rekey-done, 15 key-lost. -/
def evTrunk (t j : Nat) : Nat := 128 + 16 * t + j
/-- Domain source `j`: 0 discontinuity, 1 locked, 2 unlocked. -/
def evDomain (i j : Nat) : Nat := 160 + 3 * i + j
def evDomainSwitch : Nat := 166
def evSwitchRefused : Nat := 167
def evStampOverflow : Nat := 168
def evTimetableLate : Nat := 169
def evTimetableSkipped : Nat := 170
def evTimetableEvent : Nat := 171
def evPowerState : Nat := 192
def evPowerHandshake : Nat := 193
def evWakeStuck : Nat := 194
def evWakeChatter : Nat := 195
def evWakeAuthFail : Nat := 196
def evGrantTimeout : Nat := 197
def evGrantProtocol : Nat := 198
def evClockLost : Nat := 224
def evClockFault : Nat := 225
def evAonClockFault : Nat := 226
def evFuseFault : Nat := 227
def evTestMode : Nat := 228
def evSramTransient : Nat := 229
def evSramRepaired : Nat := 230
def evSramUncorrectable : Nat := 231
def evSparesLow : Nat := 232
def evSparesExhausted : Nat := 233
def evPipelineTransient : Nat := 234
def evPipelineSubstituted : Nat := 235
def evAllocationShrink : Nat := 236
def evPathOut : Nat := 237
def evUnitRetired : Nat := 238
def evReplayEntryLost : Nat := 239
def evPayloadLost : Nat := 240
def evReplayExhausted (t : Nat) : Nat := 241 + t
def evEsnEnd (t : Nat) : Nat := 243 + t
def evBistFail : Nat := 245

/-- Make one held raise pending (R455). -/
def releaseHeld (e : Events) (h : Nat × HeldEvent) : Events :=
  { e with
    pending := setBit e.pending h.1 true
    count := spSet w64Zero e.count h.1 (satAdd64 (spGet w64Zero e.count h.1) h.2.count.toNat)
    lastTime := spSet tsZero e.lastTime h.1 0
    detail := spSet w16Zero e.detail h.1 h.2.detail }

/-- The release of PD_CTL: every held source becomes pending and the held state is cleared (R455). -/
def releaseHeldEvents (e : Events) : Events := { e.held.foldl releaseHeld e with held := [] }

/-! ### Records by number -/

def ctxDefault (_ : Nat) : Context := Context.default
def slotDefault (_ : Nat) : KeySlot := KeySlot.default
def pairDefault (_ : Nat) : RetPair := ⟨RetCopy.default, RetCopy.default⟩
def shimDefault (_ : Nat) : Shim := Shim.default
def trunkDefault (_ : Nat) : TrunkSt := TrunkSt.default
def regionDefault (_ : Nat) : RegionDyn := RegionDyn.default
def chanDefault (_ : Nat) : MemChan := MemChan.default
def laneDefault (_ : Nat) : Lane := Lane.default
def pinDefault (_ : Nat) : OutPin := OutPin.default
def ttDefault (_ : Nat) : TtEntry := TtEntry.default

def context (s : State) (c : Nat) : Context := spGet ctxDefault s.contexts c
def setContext (s : State) (c : Nat) (x : Context) : State := { s with contexts := spSet ctxDefault s.contexts c x }
def shim (s : State) (n : Nat) : Shim := spGet shimDefault s.shims n
def setShim (s : State) (n : Nat) (x : Shim) : State := { s with shims := spSet shimDefault s.shims n x }
def trunk (s : State) (t : Trunk) : TrunkSt := spGet trunkDefault s.trunks t.val
def setTrunk (s : State) (t : Trunk) (x : TrunkSt) : State := { s with trunks := spSet trunkDefault s.trunks t.val x }
def regionDyn (s : State) (r : Region) : RegionDyn := spGet regionDefault s.mem.regions r.val
def setRegionDyn (s : State) (r : Region) (x : RegionDyn) : State :=
  { s with mem := { s.mem with regions := spSet regionDefault s.mem.regions r.val x } }
def memChan (s : State) (k : Chan) : MemChan := spGet chanDefault s.mem.chans k.val
def setMemChan (s : State) (k : Chan) (x : MemChan) : State :=
  { s with mem := { s.mem with chans := spSet chanDefault s.mem.chans k.val x } }
/-- Pipelines of a group: 0 frame-in, 1 frame-out, 2 trunk-in, 3 trunk-out, 4 memory, 5 spare, 6 retired (0x4800.02). -/
def groupCount (s : State) (g : Nat) : Nat := (s.faults.pipelines.filter (fun x => x.toNat == g)).length

/-- The port rate limit in Mb/s (R27, R450). -/
def portRateLimit (s : State) : Nat := 150000 * Nat.min (groupCount s 0) (groupCount s 1)

def domain (s : State) (i : Fin 2) : Domain := domainOf s.time i

/-- The values latched at a time-stamp point of port p (R383, Table 11.7). -/
def stampsNow (s : State) (p : Nat) : Stamps :=
  let v := clockView s
  { d0 := v.d0, d1 := v.d1, l := v.l, cycle := s.now, selected := v.sel
    cfg := { ptpControl := (reg s (0x4420 + p) 1).setWidth 32, dTx := (reg s (0x4420 + p) 2).setWidth 32
             dRx := (reg s (0x4420 + p) 3).setWidth 32, asym := (reg s (0x4420 + p) 4).setWidth 32
             linkDelay := (reg s (0x4420 + p) 5).setWidth 32, control0 := (reg s 0x4401 1).setWidth 32
             control1 := (reg s 0x4402 1).setWidth 32, inc0 := incOf s.time.d0.f, inc1 := incOf s.time.d1.f
             maxResidence := regN s 0x4400 5 } }

/-! ### Port settings (Table 3.1) -/

def portControl (s : State) (p : Nat) : W64 := reg s (0x2801 + p) 1
def portRate (s : State) (p : Nat) : Nat := field (portControl s p) 2 0
/-- Mb/s of a rate code. -/
def rateMbps (r : Nat) : Nat := [0, 10, 100, 1000, 2500, 5000, 10000, 25000].getD r 0
def validateFrames (s : State) (p : Nat) : Nat := field (portControl s p) 4 3
def replayProtect (s : State) (p : Nat) : Bool := bit (portControl s p) 5
def alwaysSci (s : State) (p : Nat) : Bool := bit (portControl s p) 6
def useEs (s : State) (p : Nat) : Bool := bit (portControl s p) 7
def useScb (s : State) (p : Nat) : Bool := bit (portControl s p) 8
def eapolBypass (s : State) (p : Nat) : Bool := bit (portControl s p) 9
def unmatchedTx (s : State) (p : Nat) : Nat := field (portControl s p) 11 10
/-- The confidentiality offset in bytes. -/
def confOffset (s : State) (p : Nat) : Nat := [0, 30, 50, 0].getD (field (portControl s p) 13 12) 0
def maxFrame (s : State) (p : Nat) : Nat := field (portControl s p) 30 16
def defaultTxContext (s : State) (p : Nat) : Nat := field (portControl s p) 44 32
def portEnabled (s : State) (p : Nat) : Bool := portRate s p != 0

/-! ### Grants: asking and releasing (R428, R430) -/

/-- The declared step of a heavy operation (Table 12.6). -/
def stepOf : HeavyOp → Nat
  | .derivation => 0x04
  | .signing => 0x06
  | .remask => 0x03
  | .rebuild => 0x08
  | .renorm _ => 0x02
  | .regionOp _ => 0x14
  | .fullBist => 0x3C
  | .spareBist => 0x3C
  | .training _ => 0x0C

def grantHeld (s : State) (op : HeavyOp) : Bool := s.grants.held.any (fun g => g.op == op)
/-- The external handshake under way is for this operation. -/
def inHandshake (g : Grants) (op : HeavyOp) : Bool :=
  match g.handshake with
  | some q => q.op == op
  | none => false

def grantQueued (s : State) (op : HeavyOp) : Bool :=
  s.grants.internalQ.any (fun g => g.op == op) || s.grants.externalQ.any (fun g => g.op == op) || inHandshake s.grants op

/-- The internal grants held: used of R428. -/
def usedBudget (g : Grants) : Nat := (g.held.filter (fun h => !h.external)).foldl (fun a h => a + h.step) 0

def isRenorm : HeavyOp → Bool
  | .renorm _ => true
  | _ => false

/-- used_other of R428. -/
def usedOther (g : Grants) : Nat :=
  (g.held.filter (fun h => !h.external && !isRenorm h.op)).foldl (fun a h => a + h.step) 0

/-- Join a queue: the internal one when the step fits internal_budget − 0x04, else the external one (R428). -/
def requestGrant (s : State) (op : HeavyOp) (noTimeout : Bool) : State :=
  if grantHeld s op || grantQueued s op then s else
  let q : GrantReq := { op := op, step := stepOf op, since := s.now, noTimeout := noTimeout }
  if stepOf op + 4 ≤ regN s 0x4A00 1 ∧ op ≠ .spareBist then
    { s with grants := { s.grants with internalQ := s.grants.internalQ ++ [q] } }
  else { s with grants := { s.grants with externalQ := s.grants.externalQ ++ [q] } }

/-- Give up a grant at the end of an operation, or a place in a queue (R428, R429 step 3, R431): pg_req falls with an
external grant, or with the request whose handshake is under way. -/
def releaseGrant (s : State) (op : HeavyOp) : State :=
  let ext := s.grants.held.any (fun g => g.op == op && g.external) || inHandshake s.grants op
  { s with grants := { s.grants with
      held := s.grants.held.filter (fun g => g.op != op)
      internalQ := s.grants.internalQ.filter (fun g => g.op != op)
      externalQ := s.grants.externalQ.filter (fun g => g.op != op)
      handshake := if inHandshake s.grants op then none else s.grants.handshake
      pgReq := if ext then false else s.grants.pgReq
      withdrawn := inHandshake s.grants op || s.grants.withdrawn } }

/-- Hold a grant from this cycle, and count it (0x4A01.01). -/
def holdGrant (s : State) (op : HeavyOp) (external : Bool) : State :=
  bump { s with grants := { s.grants with
      held := s.grants.held ++ [{ op := op, step := stepOf op, since := s.now, external := external }] } } 0x4A01 1

end Sys2Proof.Machine
end

