-- ==== Sys2Proof/Machine/Operands.lean ====
section
/-! DEFINITION. The objects of the dictionary (Tables 14.4, 14.5, 14.9 to 14.11 and the tables they name): size, access
code, reserved bits; who may access them (R457 to R461, R470, R476); and one dictionary access in the check order of
R459. -/

namespace Sys2Proof.Machine

/-- Access codes of Table 0.5. KW stands only in the key staging window, which has no index (R462). -/
inductive Acc where
  | ro | rw | wo | w1c | rws
  deriving DecidableEq, Repr

/-- What the dictionary says of an object. `minSize` differs from `size` only for the objects of R463. -/
structure ObjInfo where
  size : Nat
  minSize : Nat
  acc : Acc
  /-- OCTET_STRING. -/
  str : Bool
  /-- Bits of the value marked reserved (R10). -/
  resv : Nat
  deriving DecidableEq, Repr

/-- A numeric object. -/
def numObj (acc : Acc) (size : Nat) (resv : Nat := 0) : Option ObjInfo := some ⟨size, size, acc, false, resv⟩
/-- An OCTET_STRING object. -/
def octObj (acc : Acc) (size : Nat) : Option ObjInfo := some ⟨size, size, acc, true, 0⟩

/-- Bits [h:l] as a mask. -/
def bitsMask (h l : Nat) : Nat := (2 ^ (h + 1 - l) - 1) * 2 ^ l

/-- TIME_STAMP bits [111:105] are reserved (Table 0.6). -/
def tsReserved : Nat := bitsMask 111 105

/-- Communication and service objects (Tables 14.4 and 14.5). -/
def objService (idx sub : Nat) : Option ObjInfo :=
  match idx with
  | 0x1018 => if sub ≤ 4 then numObj .ro 4 else none
  | 0x1200 => if sub ≤ 2 then numObj .rw 4 else none
  | 0x2000 => if sub ≤ 3 then numObj .ro 1 else if sub = 4 then octObj .ro 8 else none
  | 0x2002 => if sub ≤ 7 then numObj .ro 8 else none
  | 0x2003 => if sub ≤ 2 then numObj .rw 2 else if sub = 3 then numObj .rw 1 0xFC else none
  | 0x2004 =>
    match sub with
    | 1 => octObj .wo 12
    | 2 => octObj .ro 8
    | 3 => octObj .wo 16
    | 4 => octObj .ro 16
    | 5 => numObj .ro 4 (bitsMask 15 4)
    | 6 => numObj .wo 1
    | 7 => numObj .ro 4
    | _ => none
  | 0x2005 => if sub = 1 then some ⟨172, 28, .wo, true, 0⟩ else if sub = 2 then some ⟨176, 32, .ro, true, 0⟩ else none
  | _ => none

/-- Power, wake, clock, event, grant, fault and test objects (Tables 12.7, 12.8, 13.4, 13.5, 14.10, 14.11). -/
def objControl (idx sub : Nat) : Option ObjInfo :=
  match idx with
  | 0x2100 =>
    if 0x0A ≤ sub ∧ sub ≤ 0x19 then numObj .rw 8 else
    match sub with
    | 1 => numObj .wo 1
    | 2 => numObj .ro 4 (bitsMask 31 11)
    | 3 => numObj .rw 2
    | 4 => numObj .rw 4 (bitsMask 31 13)
    | 5 => numObj .w1c 4
    | 6 => numObj .rws 2
    | 7 => numObj .rw 8
    | 8 => numObj .rw 2
    | 9 => numObj .rw 2
    | 0x1A => octObj .ro 16
    | 0x1B => numObj .rw 4 (bitsMask 15 5)
    | 0x1C => numObj .rw 4 (bitsMask 31 24)
    | 0x1D => numObj .w1c 1
    | 0x1E => numObj .ro 1
    | _ => none
  | 0x2101 => if sub ≤ 9 then numObj .ro 8 else none
  | 0x2200 => if sub = 1 then numObj .ro 4 (bitsMask 31 4) else if sub = 2 then numObj .ro 4 else none
  | 0x2400 => if sub ≤ 8 then numObj .w1c 4 else none
  | 0x2401 => if sub ≤ 8 then numObj .rw 4 else none
  | 0x2403 =>
    match sub with
    | 1 => numObj .rw 1
    | 2 => numObj .ro 8
    | 3 => numObj .ro 14 tsReserved
    | 4 => numObj .ro 4
    | _ => none
  | 0x2410 => if sub ≤ 32 then numObj .w1c 4 (bitsMask 31 5) else none
  | 0x2411 => if sub ≤ 8 then numObj .w1c 4 (bitsMask 31 4) else none
  | 0x2412 => if sub ≤ 2 then numObj .w1c 4 (bitsMask 31 2) else none
  | 0x4800 =>
    match sub with
    | 1 => numObj .ro 8
    | 2 => octObj .ro 24
    | 3 => numObj .ro 4
    | 4 => numObj .rw 4 (bitsMask 31 18)
    | 5 => numObj .rw 1
    | 6 => numObj .ro 2
    | _ => none
  | 0x4802 =>
    match sub with
    | 1 => numObj .rw 1
    | 2 => numObj .ro 2
    | 3 => numObj .ro 4
    | _ => if sub ≤ 7 then numObj .ro 8 else none
  | 0x4803 =>
    match sub with
    | 1 => numObj .ro 8
    | 2 => numObj .rws 8
    | 3 => numObj .ro 8
    | 4 => numObj .rws 4
    | 5 => numObj .ro 4
    | _ => none
  | 0x4A00 => if sub = 1 then numObj .rw 1 else if sub ≤ 4 then numObj .rw 2 else if sub = 5 then numObj .ro 4 (bitsMask 15 10) else none
  | 0x4A01 => if sub ≤ 6 then numObj .ro 8 else none
  | 0x5F00 =>
    match sub with
    | 1 => numObj .wo 1
    | 2 => numObj .ro 4 (bitsMask 7 4 + bitsMask 31 16)
    | 3 => numObj .rw 2
    | 4 => numObj .ro 4 (bitsMask 15 2)
    | 5 => numObj .ro 1 (bitsMask 7 2)
    | _ => none
  | _ => none

/-- Context words (Tables 4.2 to 4.5): word `k` at subindex k + 1. -/
def objContextWord (k : Nat) : Option ObjInfo :=
  match k with
  | 0 => numObj .rws 8 (bitsMask 31 12)
  | 1 => numObj .rws 8
  | 2 => numObj .rw 8
  | 3 => numObj .rws 8
  | 4 => numObj .rws 8 (bitsMask 15 8 + bitsMask 63 48)
  | 9 => numObj .rws 8 (bitsMask 15 8 + bitsMask 63 48)
  | 5 => numObj .rws 8
  | 10 => numObj .rws 8
  | 6 => numObj .rws 8 (bitsMask 63 32)
  | 11 => numObj .rws 8 (bitsMask 63 32)
  | 7 => numObj .rws 8
  | 12 => numObj .rws 8
  | 8 => numObj .rws 8
  | 13 => numObj .rws 8
  | 14 => numObj .rws 8 (bitsMask 63 14)
  | 15 => numObj .ro 8 (bitsMask 63 32)
  | _ => if k < 28 then numObj .ro 8 else none

/-- Port, context and classifier objects (Tables 3.1, 4.x, 5.5 to 5.8, R205, R208). -/
def objTables (idx sub : Nat) : Option ObjInfo :=
  if 0x2801 ≤ idx ∧ idx ≤ 0x2820 then
    match sub with
    | 1 => numObj .rws 8 (bitsMask 15 14 + bitsMask 31 31 + bitsMask 63 45)
    | 2 => numObj .rw 4
    | 3 => numObj .rw 4
    | _ => none
  else if 0x2841 ≤ idx ∧ idx ≤ 0x2860 then (if sub ≤ 18 then numObj .ro 8 else none)
  else
  match idx with
  | 0x3000 => if sub = 1 then numObj .rw 2 else none
  | 0x3001 => objContextWord (sub - 1)
  | 0x3400 =>
    match sub with
    | 1 => numObj .wo 4 (bitsMask 3 3 + bitsMask 31 6)
    | 2 => numObj .ro 4 (bitsMask 7 5 + bitsMask 31 10)
    | 6 => numObj .rw 4 (bitsMask 13 13 + bitsMask 31 25)
    | 7 => numObj .ro 4 (bitsMask 31 22)
    | _ => if sub ≤ 5 then numObj .rw 8 else none
  | 0x3401 => if sub ≤ 32 then numObj .rw 4 (bitsMask 7 2) else none
  | 0x3402 =>
    match sub with
    | 1 => numObj .rw 2
    | 2 => numObj .rws 4
    | 3 => numObj .rw 2
    | _ => none
  | 0x3403 => if sub ≤ 16 then numObj .rws 4 (bitsMask 31 19) else none
  | 0x3404 => if sub = 1 then numObj .wo 4 else if sub = 2 then numObj .ro 4 (bitsMask 31 5) else none
  | 0x3405 =>
    if sub ≤ 3 then octObj .rw 12 else if sub ≤ 6 then octObj .ro 12 else
    if sub = 7 then numObj .rw 4 (bitsMask 15 2) else if sub = 8 then numObj .w1c 4 else none
  | 0x3406 =>
    if sub ≤ 3 ∨ sub = 5 then numObj .ro 4 else if sub = 4 then numObj .ro 2
    else if sub ≤ 0x2B then numObj .ro 8 else if sub ≤ 0x2E then numObj .ro 4 else none
  | _ => none

/-- Key, derivation, DRBG and attestation objects (chapters 06 and 07). -/
def objKeys (idx sub : Nat) : Option ObjInfo :=
  match idx with
  | 0x3800 =>
    match sub with
    | 1 => numObj .ro 1
    | 2 => numObj .ro 8
    | 3 => numObj .ro 1
    | 4 => numObj .ro 4 (bitsMask 31 6)
    | 5 => numObj .ro 2
    | 6 => numObj .ro 1
    | 7 => numObj .ro 1
    | _ => none
  | 0x3801 => if sub = 1 then numObj .rw 2 else if sub = 2 then numObj .ro 8 (bitsMask 15 10 + bitsMask 63 63) else none
  | 0x3802 => if sub = 1 then numObj .wo 4 else if sub = 2 then numObj .ro 4 else none
  | 0x3804 =>
    match sub with
    | 1 => numObj .rw 2
    | 2 => numObj .rw 1 0xFE
    | 3 => numObj .rw 2
    | 4 => numObj .rw 4
    | 5 => octObj .rw 12
    | 6 => octObj .rw 24
    | 7 => numObj .rw 2
    | 8 => numObj .wo 1
    | 9 => numObj .ro 4 (bitsMask 15 5 + bitsMask 31 25)
    | _ => none
  | 0x3806 => if sub = 1 then numObj .rw 4 else if sub = 2 then numObj .ro 8 else none
  | 0x3808 =>
    match sub with
    | 1 => numObj .rws 1
    | 2 => numObj .wo 1
    | 4 => numObj .ro 8
    | 5 => numObj .rw 2
    | _ => none
  | 0x380A => if sub ≤ 8 then numObj .ro 8 else none
  | 0x3A01 =>
    match sub with
    | 1 => octObj .rw 16
    | 2 => numObj .wo 1
    | 3 => numObj .ro 4 (bitsMask 31 8)
    | 4 => octObj .ro 88
    | 5 => octObj .ro 144
    | _ => none
  | 0x3A02 =>
    if sub ≤ 8 then octObj .ro 32 else if sub = 9 then octObj .wo 33 else if sub = 10 then octObj .ro 32 else none
  | 0x3A03 =>
    match sub with
    | 1 => numObj .ro 4
    | 2 => numObj .ro 2
    | 3 => numObj .ro 4
    | 4 => numObj .ro 8
    | _ => none
  | 0x3A04 => if sub = 1 then numObj .rws 1 else none
  | 0x3A05 => if sub = 1 then octObj .ro 64 else if sub = 2 then octObj .ro 8 else none
  | 0x3A06 => if sub ≤ 2 then numObj .rw 2 else none
  | _ => none

/-- Memory and trunk objects (chapters 08, 09 and 10). -/
def objLinks (idx sub : Nat) : Option ObjInfo :=
  if 0x3C01 ≤ idx ∧ idx ≤ 0x3C08 then
    match sub with
    | 1 => numObj .rws 8 (bitsMask 3 2 + bitsMask 7 5 + bitsMask 63 9)
    | 6 => numObj .rws 2
    | 7 => numObj .rw 2
    | 8 => numObj .wo 4 (bitsMask 7 6)
    | 9 => numObj .ro 8 (bitsMask 7 6 + bitsMask 15 11 + bitsMask 63 21)
    | _ => if sub ≤ 5 then numObj .rws 8 else if sub ≤ 0x0C then numObj .ro 8 else none
  else if 0x3C11 ≤ idx ∧ idx ≤ 0x3C18 then (if sub ≤ 8 then numObj .ro 8 else none)
  else if idx = 0x4001 ∨ idx = 0x4002 then
    match sub with
    | 1 => numObj .rws 2
    | 2 => numObj .rws 2
    | 3 => numObj .rw 2
    | 4 => numObj .rw 8
    | 5 => numObj .rw 1
    | 0x0A => numObj .ro 4 (bitsMask 31 10)
    | 0x0B => numObj .wo 1
    | 0x0C => numObj .ro 2
    | 0x0D => numObj .ro 2
    | _ => if sub ≤ 9 then numObj .rws 2 else none
  else if idx = 0x4005 ∨ idx = 0x4006 then
    match sub with
    | 1 => numObj .rw 4 (bitsMask 31 9)
    | 2 => numObj .rws 1
    | 3 => numObj .rws 1
    | 0x0A => numObj .rws 4
    | 0x0B => numObj .rws 4
    | 0x0C => numObj .wo 1
    | 0x0D => numObj .ro 4 (bitsMask 31 17)
    | 0x11 => numObj .ro 2
    | 0x12 => numObj .ro 2
    | 0x13 => numObj .ro 1
    | 0x14 => numObj .ro 1
    | _ => if sub ≤ 9 then numObj .rw 2 else if sub ≤ 0x10 then numObj .ro 4 else none
  else if idx = 0x4011 ∨ idx = 0x4012 then (if sub ≤ 0x13 then numObj .ro 8 else none)
  else if idx = 0x4015 ∨ idx = 0x4016 then (if sub ≤ 0x0B then numObj .ro 8 else none)
  else
  match idx with
  | 0x3C00 => if sub ≤ 2 then numObj .rw 2 else if sub ≤ 4 then numObj .ro 8 else none
  | 0x3C20 => if sub = 1 then numObj .ro 2 else if sub = 2 then numObj .rw 1 else if sub = 3 then numObj .ro 8 else none
  | _ => none

/-- Time objects (Tables 11.4 to 11.7). -/
def objTime (idx sub : Nat) : Option ObjInfo :=
  if idx = 0x4401 ∨ idx = 0x4402 then
    match sub with
    | 1 => numObj .rw 4 (bitsMask 7 3 + bitsMask 31 16)
    | 8 => numObj .rw 1
    | 9 => numObj .rw 2
    | 0x0A => numObj .wo 8
    | 0x0B => numObj .ro 4 (bitsMask 31 19)
    | 0x0C => numObj .ro 4
    | 0x0D => numObj .ro 14 tsReserved
    | 0x0E => numObj .wo 1
    | 0x0F => numObj .rw 14 tsReserved
    | 0x10 => numObj .rw 8
    | 0x11 => numObj .ro 8
    | _ => if sub ≤ 7 then numObj .rw 4 else none
  else if 0x4420 ≤ idx ∧ idx ≤ 0x443F then
    (if sub = 1 then numObj .rw 4 (bitsMask 31 5) else if sub ≤ 5 then numObj .rw 4 else none)
  else if 0x4440 ≤ idx ∧ idx ≤ 0x4447 then
    match sub with
    | 1 => numObj .rw 4 (bitsMask 31 3)
    | 2 => numObj .ro 1
    | 3 => octObj .ro 16
    | 4 => numObj .ro 8
    | _ => none
  else if idx = 0x4448 ∨ idx = 0x4449 then
    match sub with
    | 1 => numObj .rw 4
    | 2 => numObj .ro 14 tsReserved
    | 3 => numObj .ro 8
    | _ => none
  else if 0x4450 ≤ idx ∧ idx ≤ 0x445B then
    (if sub = 1 then numObj .rw 4 (bitsMask 31 2) else if sub ≤ 4 then numObj .rw 4 else none)
  else
  match idx with
  | 0x4400 =>
    match sub with
    | 1 => numObj .rw 4 (bitsMask 15 3)
    | 2 => numObj .wo 1
    | 3 => numObj .ro 4 (bitsMask 31 10)
    | 4 => numObj .ro 14 tsReserved
    | 5 => numObj .rw 4
    | 6 => numObj .rw 4
    | _ => none
  | 0x4404 => if sub = 1 then numObj .ro 2 else if sub = 2 then octObj .ro 32 else none
  | 0x4405 => if sub ≤ 9 then numObj .ro 8 else none
  | 0x4600 => if sub = 1 then numObj .rw 1 else if sub = 2 then numObj .ro 2 else none
  | 0x4601 =>
    match sub with
    | 1 => numObj .rw 8
    | 4 => numObj .rw 4 (bitsMask 31 9)
    | 6 => numObj .ro 4 (bitsMask 15 3)
    | _ => if sub ≤ 5 then numObj .rw 4 else none
  | 0x4602 => if sub ≤ 2 then numObj .ro 8 else none
  | _ => none

/-- An object at a subindex from 1 (R479). -/
def objAt (idx sub : Nat) : Option ObjInfo :=
  if sub = 0 then none else
  (objService idx sub).orElse fun _ => (objControl idx sub).orElse fun _ => (objTables idx sub).orElse fun _ =>
    (objKeys idx sub).orElse fun _ => (objLinks idx sub).orElse fun _ => objTime idx sub

/-- The index has objects (Table 14.9). -/
def indexExists (idx : Nat) : Bool := idx = 0x1000 || idx = 0x1001 || (objAt idx 1).isSome

/-- The highest subindex of an index (R12). -/
def topSub (idx : Nat) : Nat := ((List.range 256).filter (fun s => (objAt idx s).isSome)).foldl Nat.max 0

/-- An object of the dictionary: 0x1000 and 0x1001 hold their value at subindex 0, every other index holds there the
highest subindex it has (R12). -/
def objInfo (idx sub : Nat) : Option ObjInfo :=
  if sub = 0 then
    (if idx = 0x1000 then numObj .ro 4 else if indexExists idx then numObj .ro 1 else none)
  else objAt idx sub

/-! ### Who may access an object -/

/-- On whose authority an access is made: a host master, plain field-network traffic, or a sealed request with the
rights to read class S objects and to write. -/
inductive Auth where
  | host (sec : Bool) (priv : BitVec 2)
  | dn
  | sealed (rd wr : Bool)
  deriving DecidableEq, Repr

def authOf : Master → Auth
  | .host sec priv => .host sec priv
  | .dn => .dn

/-- The class S objects (R470). -/
def classS (idx sub : Nat) : Bool :=
  idx = 0x2003 || (idx = 0x2100 && 6 ≤ sub && sub ≤ 0x19) || (0x3800 ≤ idx && idx ≤ 0x38FF) ||
    (0x3A00 ≤ idx && idx ≤ 0x3AFF)

/-- The objects that take plain field-network writes (R470). -/
def dnPlain (idx sub : Nat) : Bool := (idx = 0x2004 && (sub = 1 || sub = 3)) || (idx = 0x2005 && sub = 1)

/-- Channel and master of an access: third check of R459 (R223, R246, R433, R470, R473, R476 to R478). -/
def masterOk (au : Auth) (write : Bool) (idx sub : Nat) : Bool :=
  match au with
  | .host sec priv =>
    (sec || !classS idx sub) && !(idx = 0x3A02 && sub = 9 && priv.toNat < 2) &&
      !(write && dnPlain idx sub) && !(idx = 0x2005 && sub = 1) && !(write && idx = 0x2004 && sub = 6 && !sec)
  | .dn => if write then dnPlain idx sub else !classS idx sub
  | .sealed rd wr =>
    if write then wr && !(idx = 0x2003 && sub = 3) && !(idx = 0x2004 && sub ≠ 6) && !(idx = 0x2005)
    else rd || !classS idx sub

/-! ### Refusals (Table 14.1) -/

/-- An access and its refusal code, none when done. -/
abbrev Ack := State × Option W32

def done (s : State) : Ack := (s, none)
def refuse (c : W32) (s : State) : Ack := (s, some c)

def errTimeout : W32 := 0x05040000
def errCommand : W32 := 0x05040001
def errMaster : W32 := 0x06010000
def errReadWo : W32 := 0x06010001
def errWriteRo : W32 := 0x06010002
def errNoIndex : W32 := 0x06020000
def errLength : W32 := 0x06070010
def errNoSub : W32 := 0x06090011
def errRange : W32 := 0x06090030
def errBroken : W32 := 0x08000020
def errState : W32 := 0x08000022
def errFault : W32 := 0x08000000

/-- hp_resp of a refusal code (Table 14.1). -/
def hpRespOf : Option W32 → BitVec 2
  | none => 0
  | some c => if c = errNoIndex ∨ c = errNoSub then 2 else 1

/-- The first checks of R459, from existence to the length of a written value; none when they pass. -/
def checkAccess (au : Auth) (write : Bool) (idx sub len : Nat) : Option W32 :=
  if !indexExists idx then some errNoIndex else
  match objInfo idx sub with
  | none => some errNoSub
  | some o =>
    if !masterOk au write idx sub then some errMaster
    else if !write && o.acc == .wo then some errReadWo
    else if write && o.acc == .ro then some errWriteRo
    else if write && !(decide (o.minSize ≤ len) && decide (len ≤ o.size)) then some errLength
    else none

/-- Count a refusal on the channel of the access (R459). -/
def countRefusal (au : Auth) (s : State) : State :=
  match au with
  | .host _ _ => bump s 0x2002 1
  | _ => bump s 0x2002 2

/-- A written value as a number, most significant byte first. -/
def valueOf (data : Bytes) : Nat := beNat data

/-- The reserved bits of an object that a written value sets (R10). -/
def strayBits (idx sub : Nat) (data : Bytes) : Bool :=
  match objInfo idx sub with
  | some o => !o.str && decide (Nat.land (valueOf data) o.resv ≠ 0)
  | none => false

/-- Word j of an object carries padding or reserved bits (R8, R10). -/
def wordStray (o : ObjInfo) (j : Nat) (w : W32) : Bool :=
  decide (2 ^ (8 * o.size - 32 * j) ≤ w.toNat) || decide (Nat.land w.toNat (o.resv / 2 ^ (32 * j)) ≠ 0)

/-- The written value with its reserved bits ignored (R10). -/
def ownBits (idx sub : Nat) (data : Bytes) : Bytes :=
  match objInfo idx sub with
  | some o => if o.str then data else toBE data.length (valueOf data - Nat.land (valueOf data) o.resv)
  | none => data

/-- Full BIST runs: writes to 0x2800 to 0x4FFF are refused (R480). -/
def bistBlocks (s : State) (idx : Nat) : Bool := decide (s.faults.bist = .running) && decide (0x2800 ≤ idx ∧ idx ≤ 0x4FFF)

/-- One write access in the order of R459: the common checks, then what the object does with its value. -/
def writeAccess (au : Auth) (idx sub : Nat) (data : Bytes) (eff : Bytes → State → Ack) (s : State) : Ack :=
  let s1 := if strayBits idx sub data then bump s 0x2002 3 else s
  match checkAccess au true idx sub data.length with
  | some c => refuse c (countRefusal au s1)
  | none =>
    if bistBlocks s idx then refuse errState (countRefusal au s1) else
    match eff (ownBits idx sub data) s1 with
    | (s2, none) => done s2
    | (s2, some c) => refuse c (countRefusal au s2)

/-- The answer of the host port (Table 2.6). -/
def hpAnswer (resp : BitVec 2) (rdata : W32) (s : State) : State :=
  { s with server := { s.server with hpResp := resp, hpRdata := rdata, hpRvalid := true } }

/-- hp_ready: no response is being given and PD_CTL serves (R85, R416). -/
def hpReady (s : State) : Bool := serverReady s && !s.server.hpRvalid

/-- The port of this master takes an access now. -/
def accepts (m : Master) (s : State) : Bool :=
  match m with
  | .host _ _ => hpReady s
  | .dn => serverReady s

/-- A command that is a write of one object by a master. While hp_ready or dn_rx_ready is 0 no access is taken. -/
def commandWrite (m : Master) (idx sub : Nat) (data : Bytes) (eff : Bytes → State → Ack) (s : State) : State :=
  if !accepts m s then s else
  let r := writeAccess (authOf m) idx sub data eff s
  match m with
  | .host _ _ => hpAnswer (hpRespOf r.2) 0 r.1
  | .dn => r.1

/-- The words of a value in the host window, the lowest first (R8). -/
def hostWords (v : Bytes) : List W32 := (List.range (ceilDiv v.length 4)).map (fun j => BitVec.ofNat 32 (valueOf v / 2 ^ (32 * j)))

/-- A host read of a multi-word object goes from its lowest word, which takes a snapshot of the whole, to its highest
(R458). -/
def takeSnapshot (idx sub : Nat) (v : Bytes) (s : State) : State :=
  if v.length ≤ 4 then s else
  { s with server := { s.server with snapshots := spPut s.server.snapshots (oa idx sub) (hostWords v) } }

/-- A command that is a read of one object by a master, with the value it returns. hp_rdata shows the last word read. -/
def commandRead (m : Master) (idx sub : Nat) (eff : State → State × Except W32 Bytes) (s : State) : State :=
  if !accepts m s then s else
  match checkAccess (authOf m) false idx sub 0 with
  | some c =>
    let s1 := countRefusal (authOf m) s
    match m with
    | .host _ _ => hpAnswer (hpRespOf (some c)) 0 s1
    | .dn => s1
  | none =>
    match eff s, m with
    | (s1, .ok v), .host _ _ => hpAnswer 0 ((hostWords v).getLastD 0) (takeSnapshot idx sub v s1)
    | (s1, .ok _), .dn => s1
    | (s1, .error c), .host sec priv => hpAnswer (hpRespOf (some c)) 0 (countRefusal (.host sec priv) s1)
    | (s1, .error _), .dn => countRefusal .dn s1

/-! ### Settings -/

/-- The index under which a channel's own copy of an object is kept (R461). -/
def chanIdx (au : Auth) (idx : Nat) : Nat :=
  match au with
  | .host _ _ => idx
  | _ => idx + 0x10000

/-- Store a setting. -/
def putReg (idx sub : Nat) (data : Bytes) (s : State) : Ack := done (setReg s idx sub (BitVec.ofNat 64 (valueOf data)))

/-- Store a setting whose value lies in a range; any other value is refused. -/
def putRange (idx sub lo hi : Nat) (data : Bytes) (s : State) : Ack :=
  if lo ≤ valueOf data ∧ valueOf data ≤ hi then putReg idx sub data s else refuse errRange s

/-- The bytes of a numeric read of an object. -/
def numRead (size v : Nat) : Except W32 Bytes := .ok (toBE size v)

/-- Read a setting or a counter with the size of its object. -/
def regRead (s : State) (idx sub size : Nat) : Except W32 Bytes := numRead size (regN s idx sub)
def ctrRead (s : State) (idx sub size : Nat) : Except W32 Bytes :=
  numRead size (Nat.min (ctr s idx sub).toNat (256 ^ size - 1))

/-! ### KEY_REF (R14) -/

/-- The value that names no slot (R14). -/
def keyNone : W16 := 0x4000

/-- The reference names a slot of its bank (R14). -/
def refInRange (k : W16) : Bool := !k.getLsbD 14 && (!k.getLsbD 15 || decide (field k 13 0 < 64))

/-- The reference names a Retention Bank slot. -/
def refRetention (k : W16) : Bool := k.getLsbD 15

/-- A KEY_REF value is refused wherever it is written, unless it names a slot, or is NONE where NONE is accepted. -/
def keyRefOk (k : W16) (noneOk : Bool) : Bool := refInRange k || (noneOk && k == keyNone)

end Sys2Proof.Machine
end

