-- ==== Sys2Proof/Machine/KeyStore.lean ====
section
/-! DEFINITION. The Key Register File: slots, effective state, values, bindings, the DRBG as a source of random values,
zeroization (R211 to R224, R237 to R243). -/

namespace Sys2Proof.Machine

/-! ### Slots -/

def slotOf (s : State) (k : W16) : KeySlot := spGet slotDefault s.keys.slots k.toNat

def setKeys (s : State) (k : Keys) : State := { s with keys := k }

/-- The slots as they stood at the start of this cycle, once one of them changes in it (R214). -/
def slotsBefore (s : State) : Option (Nat × Sparse KeySlot) :=
  match s.keys.before with
  | some (n, m) => if n = s.now then some (n, m) else some (s.now, s.keys.slots)
  | none => some (s.now, s.keys.slots)

def setSlot (s : State) (k : W16) (x : KeySlot) : State :=
  { s with keys := { s.keys with slots := spSet slotDefault s.keys.slots k.toNat x, before := slotsBefore s } }

def pairOf (s : State) (k : W16) : RetPair := spGet pairDefault s.keys.copies k.toNat

def setPair (s : State) (k : W16) (p : RetPair) : State :=
  { s with keys := { s.keys with copies := spSet pairDefault s.keys.copies k.toNat p } }

/-- The effective state over at most `n` ancestors (R216). A chain of LIVE slots is at most 4 long (R228). -/
def effStateN (s : State) : Nat → W16 → SlotState
  | 0, k => (slotOf s k).state
  | n + 1, k =>
    let x := slotOf s k
    if x.state = .live ∧ x.hasParent then
      (if effStateN s n x.parent = .live ∧ (slotOf s x.parent).generation = x.parentGen then .live else .stale)
    else x.state

/-- The effective state of a slot (R216). -/
def effState (s : State) (k : W16) : SlotState := effStateN s 5 k

/-- A slot that frame, trunk and region users may use: effectively LIVE with usage DATA (R215). -/
def keyUsable (s : State) (k : W16) : Bool :=
  refInRange k && effState s k == .live && (slotOf s k).usage == .data

/-- The key store as a frame key read of this cycle sees it: without the changes made in the same cycle (R19, R214). -/
def frameView (s : State) : State :=
  match s.keys.before with
  | some (n, m) => if n = s.now then { s with keys := { s.keys with slots := m } } else s
  | none => s

/-- A key that a frame of this cycle may use (R118, R214, R215). -/
def frameKeyUsable (s : State) (k : W16) : Bool := keyUsable (frameView s) k

/-! ### Retention Bank copies (R240 to R243) -/

def copyValue (c : RetCopy) : KeyVal := c.masked ^^^ c.mask
def copyGood (c : RetCopy) : Bool := c.valid && c.crc == crc04 (wordBytes (copyValue c))

/-- Whether the newest good copy is A; none when neither is good (R241). -/
def newestIsA (p : RetPair) : Option Bool :=
  match copyGood p.a, copyGood p.b with
  | true, true => some (p.a.gen != p.b.gen)
  | true, false => some true
  | false, true => some false
  | false, false => none

/-- The unmasked value of a slot: a main row, or the newest good copy (R230, R241). -/
def slotValue (s : State) (k : W16) : KeyVal :=
  if refRetention k then
    match newestIsA (pairOf s k) with
    | some true => copyValue (pairOf s k).a
    | some false => copyValue (pairOf s k).b
    | none => 0
  else (slotOf s k).masked ^^^ (slotOf s k).mask

/-- The hash subkeys of a main slot (R21, R230). -/
def slotH256 (s : State) (k : W16) : Block := (slotOf s k).maskedH256 ^^^ (slotOf s k).mask.extractLsb' 128 128
def slotH128 (s : State) (k : W16) : Block := (slotOf s k).maskedH128 ^^^ (slotOf s k).mask.extractLsb' 0 128

/-! ### Bindings (R215) -/

def bindSaturated (s : State) (k : W16) : Bool := decide ((slotOf s k).bindings ≥ 32767)

/-- One more user of a slot. -/
def bindKey (s : State) (k : W16) : State :=
  setSlot s k { slotOf s k with bindings := satInc 32767 (slotOf s k).bindings }

/-- One user less; NONE names no slot. -/
def releaseKey (s : State) (k : W16) : State :=
  if refInRange k then setSlot s k { slotOf s k with bindings := (slotOf s k).bindings - 1 } else s

/-! ### Random values (R237, R238) -/

/-- 0x3800.04 [0]. -/
def drbgReady (s : State) : Bool := s.keys.drbg.phase == .ready || s.keys.drbg.phase == .reseeding

/-- The DRBG is ready and its 2^20 requests since the last reseed are not used up (R238). -/
def drbgServes (s : State) : Bool := drbgReady s && decide (s.keys.drbg.requests < 2 ^ 20)

/-- One generate request of `n` bytes. -/
def draw (s : State) (n : Nat) : Bytes × State :=
  let r := drbgGenerate s.keys.drbg.gen n
  (r.1, { s with keys := { s.keys with drbg := { s.keys.drbg with gen := r.2, requests := s.keys.drbg.requests + 1 } } })

/-! ### Lifecycle (Table 6.10) -/

/-- Staging and slot derivation are allowed: not in END or INVALID. -/
def keyWritesAllowed (s : State) : Bool := s.keys.lifecycle ≠ 5 && s.keys.lifecycle ≠ 6

/-- An internal purpose is refused in FAULT (R235), and no use is possible without the Device Root Secret. -/
def drsUsable (s : State) : Bool := s.keys.drs.isSome && !s.keys.fuseFault

/-! ### Commits (R221, R222, R242) -/

/-- H256 and H128 of a value (R221). -/
def subkey256 (v : KeyVal) : Block := aes256 v 0
def subkey128 (v : KeyVal) : Block := aes128 (v.extractLsb' 128 128) 0

/-- What a commit records about a slot's origin. -/
structure Origin where
  usage : Usage
  hasParent : Bool
  fromDrs : Bool
  depth : BitVec 2
  parent : W16
  parentGen : W16
  deriving DecidableEq, Repr

/-- A value written in the clear. -/
def Origin.clear (u : Usage) : Origin := ⟨u, false, false, 0, 0, 0⟩

/-- The metadata of a slot after its commit (R221, R227). -/
def committed (x : KeySlot) (o : Origin) : KeySlot :=
  { x with state := .live, usage := o.usage, txu := false, hasParent := o.hasParent, fromDrs := o.fromDrs, depth := o.depth,
           parent := o.parent, parentGen := o.parentGen, generation := x.generation + 1 }

/-- The row of a main slot with a value under a mask (Table 6.8). -/
def rowWith (x : KeySlot) (v m : KeyVal) (h : Bool) : KeySlot :=
  { x with masked := v ^^^ m, mask := m
           maskedH256 := if h then subkey256 v ^^^ m.extractLsb' 128 128 else 0
           maskedH128 := if h then subkey128 v ^^^ m.extractLsb' 0 128 else 0 }

/-- A retention copy complete with a value (R242 step 3). -/
def copyWith (v m : KeyVal) (g : Bool) (o : Origin) (generation : W16) : RetCopy :=
  { masked := v ^^^ m, mask := m, crc := crc04 (wordBytes v), valid := true, gen := g, usage := o.usage,
    generation := generation }

/-- The pair after a retention commit: the copy that is not the newest good one is written (R242). -/
def commitPair (p : RetPair) (v m : KeyVal) (o : Origin) (generation : W16) : RetPair :=
  match newestIsA p with
  | some true => { p with b := copyWith v m p.a.gen o generation }
  | _ => { p with a := copyWith v m (!p.b.gen) o generation }

/-- Commit a value to a slot: draw a mask, write the row or the copy, make the slot LIVE (R221, R222). -/
def commitValue (s : State) (k : W16) (v : KeyVal) (o : Origin) : State :=
  let r := draw s 32
  let m : KeyVal := BitVec.ofNat 256 (beNat r.1)
  let s1 := bump r.2 0x380A 1
  let x := committed (slotOf s1 k) o
  if refRetention k then
    setPair (setSlot s1 k { x with masked := 0, mask := 0, maskedH256 := 0, maskedH128 := 0 }) k
      (commitPair (pairOf s1 k) v m o x.generation)
  else setSlot s1 k (rowWith x v m (o.usage == .data))

/-! ### Staging and derivation ends (R213, R220, R229) -/

/-- A STAGED slot returns to its state before (R213). -/
def unstage (s : State) (k : W16) : State :=
  let x := slotOf s k
  if x.state = .staged then setSlot s k { x with state := x.before, before := .empty } else s

/-- Enter STAGED, remembering the state before. -/
def stage (s : State) (k : W16) : State :=
  let x := slotOf s k
  setSlot s k { x with state := .staged, before := effState s k }

/-- Abort an open staging with a code (R220). -/
def abortStaging (s : State) (code : BitVec 4) : State :=
  match s.keys.staging with
  | none => s
  | some st =>
    let s1 := unstage s st.target
    setKeys s1 { s1.keys with staging := none, stagingCode := code }

/-- The KEY_REF of target j of a batch (R227). -/
def batchTarget (b : Batch) (j : Nat) : W16 := b.first + BitVec.ofNat 16 j

/-- The targets of a batch not yet committed return to their earlier state (R213, R227, R229). -/
def endBatch (s : State) (code : BitVec 4) : State :=
  match s.keys.batch with
  | none => s
  | some b =>
    let s1 := ((List.range b.count).drop b.next).foldl (fun s j => unstage s (batchTarget b j)) s
    let s2 := releaseGrant s1 .derivation
    setKeys s2 { s2.keys with batch := none, deriveCode := code }

/-! ### Zeroization (R224) -/

/-- A slot after zeroization: EMPTY, value, mask and subkeys overwritten, the generation raised; usage, origin, bindings and
txu stay (R215, R224). -/
def zeroedSlot (x : KeySlot) : KeySlot :=
  { x with state := .empty, before := .empty, generation := x.generation + 1, masked := 0, mask := 0, maskedH256 := 0
           maskedH128 := 0 }

/-- The staging or the running batch names this slot, a target that the batch has committed included (R229). -/
def stagingOn (s : State) (k : W16) : Bool :=
  match s.keys.staging with
  | some st => st.target == k
  | none => false

def batchOn (s : State) (k : W16) : Bool :=
  match s.keys.batch with
  | some b => (List.range b.count).any (fun j => batchTarget b j == k)
  | none => false

/-- Zeroize one slot that is not EMPTY or RETIRED. -/
def zeroizeOne (s : State) (k : W16) : State :=
  let s1 := if stagingOn s k then abortStaging s 13 else s
  let s2 := if batchOn s1 k then endBatch s1 13 else s1
  let s3 := setSlot s2 k (zeroedSlot (slotOf s2 k))
  if refRetention k then setPair s3 k ⟨RetCopy.default, RetCopy.default⟩ else s3

/-- A listed slot after its bank is zeroized. -/
def bankZeroed (retention : Bool) (e : Nat × KeySlot) : Nat × KeySlot :=
  if decide (e.1 ≥ 2 ^ 15) = retention ∧ e.2.state ≠ .retired ∧ e.2.state ≠ .empty then (e.1, zeroedSlot e.2) else e

/-- Every listed slot of a bank becomes EMPTY (R224). -/
def zeroizeSlots (slots : Sparse KeySlot) (retention : Bool) : Sparse KeySlot :=
  slots.foldr (fun e m => spSet slotDefault m e.1 (bankZeroed retention e).2) []

/-- Zeroize a bank: a STAGED slot of it counts as one that held a value; staging cleared and any derivation aborted, both
with code 13 (R224). -/
def zeroizeBank (s : State) (retention : Bool) : State :=
  let s1 := setKeys s { s.keys with slots := zeroizeSlots s.keys.slots retention, before := slotsBefore s
                                    copies := if retention then [] else s.keys.copies }
  endBatch (abortStaging s1 13) 13

/-- An OPEN session ends: K_S, ne, confirm, last_seq and the stored response are cleared (R478). -/
def endSession (s : State) : State :=
  if s.server.session.state = .opened then
    { s with server := { s.server with session := { Session.default with failRun := s.server.session.failRun } } }
  else s

/-! ### What the Device Root Secret carries (R224, R247, R255, R258, R471) -/

/-- One extend: mr_i = SHA-256(mr_i ‖ data) (R247). -/
def applyExtend (a : Attest) (data : Bytes) : Attest :=
  let i := (byteAt data 0).toNat
  { a with mr := a.mr.set i (sha256 (a.mr.getD i (zeros 32) ++ data.drop 1))
           extendCount := satInc 0xFFFFFFFF a.extendCount }

/-- A request ends with a code: its grant is released and held extends are applied in arrival order (R247). -/
def endRequest (s : State) (code : BitVec 4) : State :=
  let s1 := releaseGrant s .signing
  let a := s1.attest.held.foldl applyExtend s1.attest
  { s1 with attest := { a with running := none, held := [], code := code } }

/-- A running request is abandoned (R258). -/
def abandonRequest (s : State) (code : BitVec 4) : State :=
  if s.attest.running.isSome then endRequest s code else s

/-- d, Q, key_id and key_ready are cleared with K_AT (R255). -/
def clearSigning (s : State) : State :=
  { s with attest := { s.attest with signKey := none, publicKey := zeros 64, keyId := zeros 8, keyReady := false } }

/-- The Device Root Secret register and what hangs on it are cleared: K_AT, K_DR, the signing key, a running request with
code 2, an open session (R224, R253, R255, R258, R471). -/
def clearDrs (s : State) : State :=
  endSession (clearSigning (abandonRequest (setKeys s { s.keys with drs := none, kAt := none, kDr := none }) 2))

/-! ### Derivation (R225) -/

def tagDATA : W32 := 0x44415441
def tagDKEY : W32 := 0x444B4559
def tagMACK : W32 := 0x4D41434B
def tagATCM : W32 := 0x4154434D
def tagATSG : W32 := 0x41545347
def tagDSES : W32 := 0x44534553

/-- The ASCII bytes of a label. -/
def asciiBytes (t : String) : Bytes := t.toList.map (fun c => BitVec.ofNat 8 c.toNat)

/-- A derivation from the Device Root Secret or a key in its place: the binding is the device identifier. -/
def deriveBound (s : State) (k : KeyVal) (purpose : W32) (label context : Bytes) (index : W32) : KeyVal :=
  kdf k purpose label (wordBytes s.keys.deviceId) context index

/-- K_DR of R471. -/
def deriveKdr (s : State) (d : KeyVal) : KeyVal := deriveBound s d tagDSES (asciiBytes "ULU-DICTROOT") (zeros 20) 0

/-! ### Retention evaluation (R243) -/

/-- A retention slot that was LIVE or STALE and has no good copy becomes EMPTY and is counted. -/
def evaluateRetentionSlot (s : State) (e : Nat × KeySlot) : State :=
  let k : W16 := BitVec.ofNat 16 e.1
  if e.1 ≥ 2 ^ 15 ∧ (e.2.state = .live ∨ e.2.state = .stale) ∧ newestIsA (pairOf s k) = none then
    raise (bump (setSlot s k { e.2 with state := .empty }) 0x380A 8) evRetentionCopyLoss e.1
  else s

end Sys2Proof.Machine
end

