-- ==== Sys2Proof/Machine/Attest.lean ====
section
/-! DEFINITION. Attestation: measurement registers, the configuration digest, native responses and compatibility reports
(07_attestation.md). -/

namespace Sys2Proof.Machine

def setAttest (s : State) (a : Attest) : State := { s with attest := a }

/-! ### The configuration digest (R249) -/

def stateCode : SlotState → Nat
  | .empty => 0
  | .staged => 1
  | .live => 2
  | .stale => 3
  | .retired => 4

def usageField : Usage → Nat
  | .data => 0
  | .derive => 1
  | .mac => 2

/-- declared_version (R252). -/
def declaredVersion (s : State) : Nat := regN s 0x3A04 1

def undeclared (s : State) : Bool := declaredVersion s == 0xFF
def rollback (s : State) : Bool := !undeclared s && decide (declaredVersion s < s.keys.antiRollback)

def cfgHeader (s : State) : Bytes :=
  [2, 1, Config.patchLevel, s.keys.lifecycle.setWidth 8, BitVec.ofNat 8 s.keys.antiRollback,
   BitVec.ofNat 8 (declaredVersion s), 0, 0] ++ wordBytes s.keys.deviceId

def cfgPort (s : State) (p : Nat) : Bytes := toBE 8 (regN s (0x2801 + p) 1) ++ toBE 4 (regN s (0x2801 + p) 2)

def cfgRegion (s : State) (r : Nat) : Bytes :=
  toBE 1 (regN s (0x3C01 + r) 1 % 256) ++ [0] ++ toBE 2 (regN s (0x3C01 + r) 6) ++ toBE 5 (regN s (0x3C01 + r) 2) ++
    toBE 5 (regN s (0x3C01 + r) 3) ++ [0, 0]

def cfgTrunk (s : State) (t : Fin 2) : Bytes :=
  toBE 2 (regN s (0x4001 + t.val) 1) ++ toBE 2 (regN s (0x4001 + t.val) 2) ++ toBE 2 (regN s (0x4001 + t.val) 3) ++
    wordBytes (trunk s t).epoch ++ zeros 6

def cfgWake (s : State) : Bytes := toBE 2 (regN s 0x2100 6) ++ [0, 0]

/-- Slots covered by the digest, in ascending order of KEY_REF. -/
def cfgKeys (s : State) : List (Nat × KeySlot) :=
  s.keys.slots.filter (fun e => effState s (BitVec.ofNat 16 e.1) == .live || effState s (BitVec.ofNat 16 e.1) == .stale)

def cfgKey (s : State) (e : Nat × KeySlot) : Bytes :=
  let x := e.2
  toBE 2 e.1 ++ [BitVec.ofNat 8 (stateCode (effState s (BitVec.ofNat 16 e.1))),
    BitVec.ofNat 8 (usageField x.usage * 64 + x.depth.toNat * 16 + x.fromDrs.toNat * 8 + x.hasParent.toNat * 4)] ++
    toBE 2 (if x.hasParent then x.parent.toNat else 0) ++ toBE 2 x.generation.toNat

/-- The input of CFG (Table 7.3). -/
def cfgInput (s : State) : Bytes :=
  cfgHeader s ++ (List.range 32).flatMap (cfgPort s) ++ (List.range 8).flatMap (cfgRegion s) ++ cfgTrunk s 0 ++ cfgTrunk s 1 ++
    cfgWake s ++ (cfgKeys s).flatMap (cfgKey s) ++ toBE 4 (cfgKeys s).length

/-- CFG (R249). -/
def cfgDigest (s : State) : Bytes := sha256 (cfgInput s)

/-- D = SHA-256(mr0 ‖ … ‖ mr7 ‖ CFG) (R251). -/
def measurement (s : State) (cfg : Bytes) : Bytes := sha256 (s.attest.mr.flatten ++ cfg)

/-! ### Keys (R253, R255) -/

/-- K_AT from a Device Root Secret. -/
def attestKey (s : State) (d : KeyVal) : KeyVal := deriveBound s d tagATCM (asciiBytes "ULU-ATTEST-1") (zeros 20) 0
/-- The derived value K of the signing key. -/
def signSource (s : State) (d : KeyVal) : KeyVal := deriveBound s d tagATSG (asciiBytes "ULU-SIGNKEY1") (zeros 20) 0

/-! ### Responses (R257, Tables 7.4 and 7.5) -/

/-- Bytes 0 to 71 of a native response with a sequence number. -/
def nativeBody (s : State) (cfg : Bytes) (seq : Nat) : Bytes :=
  [0x01, s.keys.lifecycle.setWidth 8, BitVec.ofNat 8 s.keys.antiRollback,
   BitVec.ofNat 8 ((rollback s).toNat + (undeclared s).toNat * 2)] ++
    s.attest.nonce ++ wordBytes s.keys.deviceId ++ measurement s cfg ++ toBE 4 seq ++ toBE 2 s.attest.resetCount ++ [0, 0] ++
    toBE 4 s.attest.extendCount

/-- Bytes 0 to 79 of a compatibility report. -/
def reportBody (s : State) (cfg : Bytes) (seq : Nat) : Bytes :=
  [0x46, 0x4B, 0x41, 0x52, 0x04, 0x16, 0x00, 0x90] ++ wordBytes s.keys.deviceId ++ s.attest.nonce ++
    [s.keys.lifecycle.setWidth 8, BitVec.ofNat 8 s.keys.antiRollback, 0, 0] ++ toBE 4 seq ++ measurement s cfg ++ s.attest.keyId

/-- response_count after one more response. -/
def nextCount (s : State) : Nat := satInc 0xFFFFFFFF s.attest.responseCount

/-- CFG of the request that runs: over the values that it has read (R250). -/
def requestCfg (s : State) : Bytes :=
  match s.attest.running with
  | some q => sha256 q.cfg
  | none => cfgDigest s

def finishNative (s : State) (d : KeyVal) : State :=
  let cfg := requestCfg s
  let k := s.keys.kAt.getD (attestKey s d)
  let body := nativeBody s cfg (nextCount s)
  let s1 := setKeys s { s.keys with kAt := some k }
  endRequest (setAttest s1 { s1.attest with cfgDigest := cfg, responseCount := nextCount s, response := body ++ cmac256 k body }) 0

def finishReport (s : State) (d : KeyVal) : State :=
  let cfg := requestCfg s
  let body := reportBody s cfg (nextCount s)
  let k := s.attest.signKey.getD (signSource s d)
  endRequest (setAttest s { s.attest with
    cfgDigest := cfg, responseCount := nextCount s, report := body ++ ecdsaSign (signingScalar k) body
    signKey := some k, lastSign := some s.now }) 0

def finishPublicKey (s : State) (d : KeyVal) : State :=
  let k := signSource s d
  let q := publicKey (signingScalar k)
  endRequest (setAttest s { s.attest with
    cfgDigest := requestCfg s, publicKey := q, keyId := keyIdOf q, keyReady := true, signKey := some k, lastSign := some s.now }) 0

/-! ### Requests (R256, R250) -/

def isKind (s : State) (k : AttestKind) : Bool :=
  match s.attest.running with
  | some q => q.kind == k
  | none => false

/-- The native limit of the current Classifier second is reached. -/
def nativeSpent (s : State) : Bool := decide (regN s 0x3A06 1 ≤ s.attest.nativeThisSecond)

/-- Less than sign_interval has passed since the last signature or public-key computation. -/
def signTooSoon (s : State) : Bool :=
  match s.attest.lastSign with
  | some c => !elapsed s c (msCycles (regN s 0x3A06 2))
  | none => false

/-- The first condition of R256 items 1 to 7 that applies. -/
def requestRefusal (s : State) (k : AttestKind) : Option (BitVec 4) :=
  if s.attest.running.isSome then some 1
  else if !drsUsable s then some 2
  else if k ≠ .publicKey ∧ allZeroBytes s.attest.nonce then some 3
  else if k = .native ∧ nativeSpent s then some 4
  else if k = .report ∧ !s.attest.keyReady then some 8
  else if k = .report ∧ rollback s then some 5
  else if k ≠ .native ∧ signTooSoon s then some 4
  else none
where
  allZeroBytes (bs : Bytes) : Bool := bs.all (· == 0)

/-- A refusal is counted, and attestation-refused at most once a Classifier second. -/
def noteRefusal (s : State) : State :=
  let s1 := bump s 0x3A03 4
  let s2 := if s1.attest.refusedThisSecond then s1 else raise s1 evAttestRefused 0
  setAttest s2 { s2.attest with refusedThisSecond := true }

/-- K_AT is derived at the first request after a fuse load (R253). -/
def holdKat (s : State) : State :=
  match s.keys.drs with
  | some d => setKeys s { s.keys with kAt := some (s.keys.kAt.getD (attestKey s d)) }
  | none => s

/-- A request of a kind begins with its reading for CFG, or is refused; the code shows the reason (R250, R460). -/
def startRequest (k : AttestKind) (s : State) : Ack :=
  match requestRefusal s k with
  | some c =>
    let s1 := noteRefusal s
    refuse errState (setAttest s1 { s1.attest with code := c })
  | none =>
    let s0 := holdKat s
    let s1 := setAttest s0 { s.attest with running := some ⟨k, 0, cfgInput s⟩
                                           nativeThisSecond := s.attest.nativeThisSecond + (if k = .native then 1 else 0) }
    done (if k = .native then s1 else requestGrant s1 .signing false)

/-- A write of 0x3A01.02. -/
def startCommand (data : Bytes) (s : State) : Ack :=
  match valueOf data with
  | 1 => startRequest .native s
  | 2 => startRequest .report s
  | 3 => startRequest .publicKey s
  | _ => refuse errRange s

/-- No grant was obtained: the request is refused with code 6 (R256 item 8). -/
def signingDenied (s : State) : State :=
  if s.attest.running.isSome then endRequest (noteRefusal s) 6 else s

/-- The request is at work: a native response, or a signing operation with its grant. -/
def atWork (s : State) (k : AttestKind) : Bool := isKind s k && (k == .native || grantHeld s .signing)

/-- A value that CFG covers has changed after it was read: CFG restarts over the present values, and the third restart
refuses the request (R250). -/
def restartDigest (s : State) (k : AttestKind) : State :=
  match s.attest.running with
  | some q =>
    if q.kind ≠ k ∨ q.cfg = cfgInput s then s
    else if 2 ≤ q.restarts then endRequest (noteRefusal s) 7
    else setAttest s { s.attest with running := some { q with restarts := q.restarts + 1, cfg := cfgInput s } }
  | none => s

/-- The work of a request is complete. -/
def completeRequest (s : State) (k : AttestKind) (finish : State → KeyVal → State) : State :=
  if atWork s k then
    match s.keys.drs with
    | some d => finish s d
    | none => endRequest s 2
  else s

def execNativeResponse (e : ReqEvent) (s : State) : Out :=
  .next (match e with
    | .write m => commandWrite m 0x3A01 2 [1] startCommand s
    | .covered => restartDigest s .native
    | .done => completeRequest s .native finishNative)

def execCompatibilityReport (e : ReqEvent) (s : State) : Out :=
  .next (match e with
    | .write m => commandWrite m 0x3A01 2 [2] startCommand s
    | .covered => restartDigest s .report
    | .done => completeRequest s .report finishReport)

def execPublicKey (e : ReqEvent) (s : State) : Out :=
  .next (match e with
    | .write m => commandWrite m 0x3A01 2 [3] startCommand s
    | .covered => restartDigest s .publicKey
    | .done => completeRequest s .publicKey finishPublicKey)

/-! ### Extends (R247) -/

/-- A write of 0x3A02.09. -/
def extendRegister (data : Bytes) (s : State) : Ack :=
  if 8 ≤ (byteAt data 0).toNat then refuse errRange s
  else if s.attest.running.isSome then
    (if s.attest.held.length < 8 then done (setAttest s { s.attest with held := s.attest.held ++ [data] }) else refuse errBroken s)
  else done (setAttest s (applyExtend s.attest data))

def execExtend (m : Master) (data : Bytes) (s : State) : Out := .next (commandWrite m 0x3A02 9 data extendRegister s)

/-! ### Objects of the Attestation area (Table 7.1) -/

def writeAttestObj (idx sub : Nat) (data : Bytes) (s : State) : Ack :=
  let busy := s.attest.running.isSome
  match idx with
  | 0x3A01 =>
    if sub = 2 then startCommand data s
    else if busy then refuse errState s else done (setAttest s { s.attest with nonce := data })
  | 0x3A02 => extendRegister data s
  | 0x3A04 => if undeclared s then putRange idx sub 0 64 data s else refuse errState s
  | 0x3A06 =>
    if busy then refuse errState s
    else if sub = 1 then putRange idx sub 1 1000 data s else putRange idx sub 100 60000 data s
  | _ => refuse errWriteRo s

/-- 0x3A01.03 (Table 7.2). -/
def attestStatus (s : State) : Nat :=
  s.attest.running.isSome.toNat + s.attest.code.toNat * 2 + (rollback s).toNat * 32 + s.attest.keyReady.toNat * 64 +
    (undeclared s).toNat * 128

def readAttestObj (idx sub : Nat) (s : State) : Except W32 Bytes :=
  let a := s.attest
  match idx with
  | 0x3A01 =>
    match sub with
    | 1 => .ok a.nonce
    | 3 => numRead 4 (attestStatus s)
    | 4 => .ok a.response
    | _ => .ok a.report
  | 0x3A02 => if sub = 10 then .ok a.cfgDigest else .ok (a.mr.getD (sub - 1) (zeros 32))
  | 0x3A03 =>
    match sub with
    | 1 => numRead 4 a.responseCount
    | 2 => numRead 2 a.resetCount
    | 3 => numRead 4 a.extendCount
    | _ => ctrRead s idx sub 8
  | 0x3A04 => regRead s idx sub 1
  | 0x3A05 => if sub = 1 then .ok a.publicKey else .ok a.keyId
  | _ => regRead s idx sub 2

/-! ### Resets and power (R248, Table 7.6) -/

/-- Warm reset, or loss of PD_CTL power: registers, responses and a running request are cleared, reset_count rises. -/
def attestRestart (s : State) : State :=
  let s1 := setReg (releaseGrant s .signing) 0x3A04 1 0xFF
  setAttest s1 { Attest.default with responseCount := s.attest.responseCount, resetCount := satInc 0xFFFF s.attest.resetCount }

/-- tm_mode rises and is honoured. -/
def attestTestMode (s : State) : State :=
  let s1 := setReg (releaseGrant s .signing) 0x3A04 1 0xFF
  setAttest s1 { Attest.default with responseCount := s.attest.responseCount, resetCount := s.attest.resetCount }

end Sys2Proof.Machine
end

