-- ==== Sys2Proof/Machine/Classifier.lean ====
section
/-! DEFINITION. The Classifier: Stream, Station and Prefix Tables, table commands, learning, aging, shadow compare and
rebuild (05_classification_tables.md). -/

namespace Sys2Proof.Machine

/-! ### Units and retirement -/

def retiredUnit (s : State) (array unit : Nat) : Bool := spGet boolFalse s.faults.retired (array * 2 ^ 32 + unit)

def setCls (s : State) (c : Classifier) : State := { s with cls := c }

/-- Every entry carries its result; the hit mark is bit [24], learned bit [23] (Table 5.3). -/
def resContext (r : W32) : Nat := field r 12 0
def resAction (r : W32) : Nat := field r 15 14
def resPort (r : W32) : Nat := field r 20 16
def resStatic (r : W32) : Bool := bit r 21
def resPinned (r : W32) : Bool := bit r 22
def resLearned (r : W32) : Bool := bit r 23

/-! ### Hashes (Table 5.4) -/

/-- Stream bucket of a key in way `w`, as a unit: way · 16,384 + index. -/
def streamUnit (w : Nat) (key : Bytes) : Nat :=
  let poly : W32 := if w = 0 then 0x04C11DB7 else if w = 1 then 0x1EDC6F41 else if w = 2 then 0x741B8CD7 else 0x814141AB
  w * 16384 + field (crc poly 0xFFFFFFFF key) 31 18

def stationSet (s : State) (key : Bytes) : Nat :=
  field (crc 0x1EDC6F41 (0xFFFFFFFF ^^^ (reg s 0x3402 2).setWidth 32) key) 31 19

/-- Prefix bucket in a bank range, as a unit: bank · 1,024 + bucket. -/
def prefixUnit (first count : Nat) (key : Bytes) : Nat :=
  let c := crc 0x741B8CD7 0xFFFFFFFF key
  (first + field c 31 16 % count) * 1024 + field c 9 0

/-- The two filter bits of a key. -/
def filterBits (key : Bytes) : Nat × Nat :=
  let c := crc 0x04C11DB7 0xFFFFFFFF key
  (field c 11 0, field c 23 12)

/-! ### Stream Table (R185 to R191) -/

/-- Units from 65,536 on are stash entries. -/
def stashBase : Nat := 65536

def streamAt (s : State) (u : Nat) : Option Entry :=
  if u < stashBase then spFind s.cls.stream u else spFind s.cls.stash (u - stashBase)

def byteZero (_ : Nat) : Byte := 0

def putStream (s : State) (u : Nat) (e : Entry) : State :=
  if u < stashBase then setCls s { s.cls with stream := spPut s.cls.stream u e }
  else setCls s { s.cls with stash := spPut s.cls.stash (u - stashBase) e }

/-- What a mark of one cycle holds in this one. -/
def marksOf {α : Type} (now : Nat) (m : Option (Nat × List α)) : List α :=
  match m with
  | some (n, l) => if n = now then l else []
  | none => []

/-- A location is bumped in this cycle, with the key that lay there. -/
def noteBump (s : State) (u : Nat) : State :=
  match streamAt s u with
  | some e => setCls s { s.cls with bumped := some (s.now, (u, e.key) :: marksOf s.now s.cls.bumped) }
  | none => s

/-- Bump the version of a location and clear it (R187). -/
def bumpClear (s0 : State) (u : Nat) : State :=
  let s := noteBump s0 u
  if u < stashBase then
    setCls s { s.cls with stream := spDel s.cls.stream u
                          streamVer := spSet byteZero s.cls.streamVer u (spGet byteZero s.cls.streamVer u + 1) }
  else
    let j := u - stashBase
    setCls s { s.cls with stash := spDel s.cls.stash j
                          stashVer := spSet byteZero s.cls.stashVer j (spGet byteZero s.cls.stashVer j + 1) }

/-- Where a key lies: the lowest way first, the stash last (R185). -/
def findStream (s : State) (key : Bytes) : Option Nat :=
  match ((List.range 4).map (fun w => streamUnit w key)).find?
      (fun u => match streamAt s u with | some e => e.key == key | none => false) with
  | some u => some u
  | none => (s.cls.stash.find? (fun e => e.2.key == key)).map (fun e => stashBase + e.1)

def streamFree (s : State) (u : Nat) : Bool := (streamAt s u).isNone && !retiredUnit s 3 u

/-- The buckets that an entry of bucket `b` could move to, in ascending way order (R186). -/
def moveTargets (s : State) (p : List Nat) : List Nat :=
  match p with
  | [] => []
  | b :: _ =>
    match streamAt s b with
    | none => []
    | some e =>
      (((List.range 4).filter (fun v => v ≠ b / 16384)).map (fun v => streamUnit v e.key)).filter
        (fun c => !p.contains c && !retiredUnit s 3 c)

/-- One level of the search: the first free bucket reached, and the paths of the next level (R186). -/
def searchLevel (s : State) (paths : List (List Nat)) : Option (List Nat) × List (List Nat) :=
  let next := paths.flatMap (fun p => (moveTargets s p).map (fun c => c :: p))
  (next.find? (fun p => match p with | c :: _ => (streamAt s c).isNone | [] => false), next)

/-- The search of R186: a path from the free bucket back to a candidate of the key, at most 3 moves. -/
def searchStream (s : State) : Nat → List (List Nat) → Option (List Nat)
  | 0, _ => none
  | n + 1, paths =>
    match searchLevel s paths with
    | (some p, _) => some p
    | (none, next) => searchStream s n next

/-- Relocate along a path, the last move first (R186, R187). -/
def relocate (s : State) : List Nat → State
  | d :: b :: rest =>
    match streamAt s b with
    | some e => relocate (bumpClear (putStream s d e) b) (b :: rest)
    | none => relocate s (b :: rest)
  | _ => s

/-- The lowest free stash entry. -/
def freeStash (s : State) : Option Nat :=
  (List.range 512).find? (fun j => (spFind s.cls.stash j).isNone && !retiredUnit s 3 (stashBase + j))

/-- Stash occupancy rises to 384: stash-high (R191). -/
def noteStash (s : State) : State :=
  let n := s.cls.stash.length
  if n = 384 && !s.cls.stashHigh then raise (setCls s { s.cls with stashHigh := true }) evStashHigh 0
  else if n ≤ 256 then setCls s { s.cls with stashHigh := false } else s

/-- What a table operation reports: the code of Table 5.7, where, and the moves made. -/
structure TableResult where
  code : BitVec 4
  place : Option Nat
  moves : BitVec 2
  deriving DecidableEq, Repr

/-- Insert into the Stream Table (R186). -/
def insertStream (s : State) (e : Entry) : State × TableResult :=
  match findStream s e.key with
  | some u => (s, ⟨2, some u, 0⟩)
  | none =>
    let cand := (List.range 4).map (fun w => streamUnit w e.key)
    match cand.find? (streamFree s) with
    | some u => (putStream s u e, ⟨0, some u, 0⟩)
    | none =>
      match searchStream s 3 ((cand.filter (fun u => !retiredUnit s 3 u)).map (fun u => [u])) with
      | some path =>
        let b := path.getLast?.getD 0
        (putStream (relocate s path) b e, ⟨0, some b, BitVec.ofNat 2 (path.length - 1)⟩)
      | none =>
        match freeStash s with
        | some j => (noteStash (putStream s (stashBase + j) e), ⟨1, some (stashBase + j), 0⟩)
        | none => (s, ⟨4, none, 0⟩)

/-- A freed bucket takes the lowest stash entry that has it as candidate (R191). -/
def drainStash (s : State) (u : Nat) : State :=
  match s.cls.stash.find? (fun e => streamUnit (u / 16384) e.2.key == u) with
  | some e => noteStash (bumpClear (putStream s u e.2) (stashBase + e.1))
  | none => s

/-- Delete from the Stream Table (R187, R191). -/
def deleteStream (s : State) (u : Nat) : State :=
  let s1 := bumpClear s u
  if u < stashBase then drainStash s1 u else noteStash s1

/-! ### Station Table (R196 to R203) -/

def stationAt (s : State) (u : Nat) : Option StationEntry := spFind s.cls.station u

def putStation (s : State) (u : Nat) (e : StationEntry) : State :=
  setCls s { s.cls with station := spPut s.cls.station u e }

def delStation (s : State) (u : Nat) : State := setCls s { s.cls with station := spDel s.cls.station u }

def stationWays (s : State) (key : Bytes) : List Nat := (List.range 4).map (fun w => stationSet s key * 4 + w)

def findStation (s : State) (key : Bytes) : Option Nat :=
  (stationWays s key).find? (fun u => match stationAt s u with | some e => e.key == key | none => false)

def freeStation (s : State) (key : Bytes) : Option Nat :=
  (stationWays s key).find? (fun u => (stationAt s u).isNone && !retiredUnit s 4 u)

/-- Insert into the Station Table. DESIGN CHOICE (log 78): the manual does not say when code 7, entry retired, is given; here
for a set whose four ways are retired, and in the Prefix Table for a retired bucket, never in the Stream Table. -/
def insertStation (s : State) (key : Bytes) (r : W32) : State × TableResult :=
  match findStation s key with
  | some u => (s, ⟨2, some u, 0⟩)
  | none =>
    match freeStation s key with
    | some u => (putStation s u ⟨key, r, s.cls.second⟩, ⟨0, some u, 0⟩)
    | none => (s, ⟨if (stationWays s key).all (retiredUnit s 4) then 7 else 4, none, 0⟩)

/-! ### Prefix Table (R192 to R195) -/

/-- Descriptor n (0 to 15) of Table 5.5. -/
def descriptor (s : State) (n : Nat) : W64 := reg s 0x3403 (n + 1)
def descLength (d : W64) : Nat := field d 7 0
def descV6 (d : W64) : Bool := bit d 8
def descEnable (d : W64) : Bool := bit d 9
def descFirst (d : W64) : Nat := field d 13 10
def descCount (d : W64) : Nat := field d 18 14

def keyV6 (key : Bytes) : Bool := byteAt key 0 == 0x06
def keyLength (key : Bytes) : Nat := (byteAt key 2).toNat

/-- The key belongs to the length table of a descriptor. -/
def keyOfDesc (d : W64) (key : Bytes) : Bool :=
  (if descV6 d then byteAt key 0 == 0x06 else byteAt key 0 == 0x04) && keyLength key == descLength d

/-- The enabled descriptor whose family and length a key has. -/
def descOfKey (s : State) (key : Bytes) : Option Nat :=
  (List.range 16).find? (fun n => descEnable (descriptor s n) && keyOfDesc (descriptor s n) key)

/-- The entry lies in the length table of a descriptor; a disabled one has no entry (R192). -/
def entryOfDesc (d : W64) (e : Nat × Entry) : Bool := descEnable d && keyOfDesc d e.2.key

/-- Entries of a length table. -/
def tableEntries (s : State) (d : W64) : List (Nat × Entry) := s.cls.pfxEntries.filter (entryOfDesc d)

/-- The four entry units of a key's bucket in a length table. -/
def prefixPlaces (d : W64) (key : Bytes) : List Nat :=
  (List.range 4).map (fun j => prefixUnit (descFirst d) (descCount d) key * 4 + j)

def findPrefix (s : State) (d : W64) (key : Bytes) : Option Nat :=
  (prefixPlaces d key).find? (fun u => match spFind s.cls.pfxEntries u with | some e => e.key == key | none => false)

def filterZero (_ : Nat) : BitVec 4096 := 0

/-- Set the two filter bits of a key (R194). -/
def addFilter (f : BitVec 4096) (key : Bytes) : BitVec 4096 :=
  setBit (setBit f (filterBits key).1 true) (filterBits key).2 true

def putPrefix (s : State) (u : Nat) (e : Entry) : State :=
  setCls s { s.cls with pfxEntries := spPut s.cls.pfxEntries u e }

/-- Insert into length table n (R193). DESIGN CHOICE (log 78): code 7 for a retired bucket. -/
def insertPrefix (s : State) (n : Nat) (e : Entry) : State × TableResult :=
  let d := descriptor s n
  match findPrefix s d e.key with
  | some u => (s, ⟨2, some u, 0⟩)
  | none =>
    if retiredUnit s 5 (prefixUnit (descFirst d) (descCount d) e.key) then (s, ⟨7, none, 0⟩) else
    match (prefixPlaces d e.key).find? (fun u => (spFind s.cls.pfxEntries u).isNone) with
    | some u =>
      let s1 := putPrefix s u e
      (setCls s1 { s1.cls with filters := spSet filterZero s1.cls.filters n (addFilter (spGet filterZero s1.cls.filters n) e.key) },
       ⟨0, some u, 0⟩)
    | none => (s, ⟨4, none, 0⟩)

/-- Delete from length table n; its filter is cleared when it becomes empty (R194). -/
def deletePrefix (s : State) (n u : Nat) : State :=
  let s1 := setCls s { s.cls with pfxEntries := spDel s.cls.pfxEntries u }
  if (tableEntries s1 (descriptor s1 n)).isEmpty then setCls s1 { s1.cls with filters := spDel s1.cls.filters n } else s1

/-! ### Checks of R183 -/

def keyBytesOf : TableSel → Nat
  | .stream => 16
  | .station => 8
  | .pfx => 20

def allZero (bs : Bytes) : Bool := bs.all (· == 0)

/-- Address bits beyond the prefix length are zero. -/
def prefixClean (key : Bytes) : Bool :=
  let a := beNat (slice key 4 16)
  decide (keyLength key ≤ 128) && decide (a % 2 ^ (128 - keyLength key) = 0)

/-- Reserved bytes and bits of a key are zero; the key fills 24 bytes in the access record (R181, R183). DESIGN CHOICE
(log 74): a Stream key whose byte 0 is neither 0x01 nor 0x02 counts as a bad key in every command. DESIGN CHOICE (log 75):
bytes 8 to 19 of an IPv4 Prefix key are no reserved bytes for a delete or read, which finds no such entry. -/
def keyClean (t : TableSel) (key : Bytes) : Bool :=
  allZero (key.drop (keyBytesOf t)) &&
  match t with
  | .stream =>
    (byteAt key 1).toNat / 32 == 0 &&
      (if byteAt key 0 = 0x01 then (byteAt key 8).toNat / 16 % 8 == 0 && allZero (slice key 12 4)
       else byteAt key 0 == 0x02 && allZero (slice key 10 6))
  | .station => (byteAt key 0).toNat / 16 == 0
  | .pfx => byteAt key 3 == 0

/-- An insert or replace that R183 allows. -/
def entryOk (s : State) (t : TableSel) (key : Bytes) (r : W32) : Bool :=
  keyClean t key &&
  match t with
  | .stream => resPort r == 0 && !(byteAt key 0 == 0x02 && resAction r != 1)
  | .station => !(resAction r == 1 && !resStatic r)
  | .pfx => resPort r == 0 && (descOfKey s key).isSome && prefixClean key

/-! ### Table access record (R202, R203, Table 5.7) -/

def tableRegs (s : State) (au : Auth) : TableRegs :=
  match au with
  | .host _ _ => s.cls.hostRegs
  | _ => s.cls.dnRegs

def setTableRegs (s : State) (au : Auth) (t : TableRegs) : State :=
  match au with
  | .host _ _ => setCls s { s.cls with hostRegs := t }
  | _ => setCls s { s.cls with dnRegs := t }

/-- The 24 key bytes of the record. -/
def recordKey (t : TableRegs) : Bytes := t.key.flatMap wordBytes

/-- The location word of a unit (Table 5.7). -/
def locationWord (t : TableSel) (u : Nat) : W32 :=
  match t with
  | .stream =>
    if u < stashBase then BitVec.ofNat 32 (u % 16384 + u / 16384 * 2 ^ 16) else BitVec.ofNat 32 (u - stashBase + 2 ^ 20)
  | .station => BitVec.ofNat 32 (u / 4 + u % 4 * 2 ^ 16)
  | .pfx => BitVec.ofNat 32 (u / 4 % 1024 + u / 4096 * 2 ^ 16)

def tableIndex : TableSel → Nat
  | .stream => 0
  | .station => 1
  | .pfx => 2

/-- A software command changed a table: a running shadow pass over it restarts (R205). -/
def noteChange (s : State) (t : TableSel) : State :=
  if s.cls.passRunning.getLsbD (tableIndex t) then
    setCls s { s.cls with shadowStatus := setBit s.cls.shadowStatus (6 + tableIndex t) true } else s

/-- Where a key lies in a table. -/
def findEntry (s : State) (t : TableSel) (key : Bytes) : Option Nat :=
  match t with
  | .stream => findStream s key
  | .station => findStation s key
  | .pfx => (descOfKey s key).bind (fun n => findPrefix s (descriptor s n) key)

/-- The result word at a place. -/
def resultAt (s : State) (t : TableSel) (u : Nat) : W32 :=
  match t with
  | .stream => ((streamAt s u).map Entry.result).getD 0
  | .station => ((stationAt s u).map StationEntry.result).getD 0
  | .pfx => ((spFind s.cls.pfxEntries u).map Entry.result).getD 0

/-- Rewrite the result word at a place; `seen` also writes last_seen of a Station entry. -/
def setResultAt (s : State) (t : TableSel) (u : Nat) (r : W32) (seen : Bool) : State :=
  match t with
  | .stream => match streamAt s u with
    | some e => putStream s u { e with result := r }
    | none => s
  | .station => match stationAt s u with
    | some e => putStation s u { e with result := r, lastSeen := if seen then s.cls.second else e.lastSeen }
    | none => s
  | .pfx => match spFind s.cls.pfxEntries u with
    | some e => putPrefix s u { e with result := r }
    | none => s

/-- The result word software may set: reserved, learned and hit bits cleared. -/
def softResult (r : W32) : W32 := r &&& 0x007FDFFF

def deleteEntry (s : State) (t : TableSel) (key : Bytes) (u : Nat) : State :=
  match t with
  | .stream => deleteStream s u
  | .station => delStation s u
  | .pfx => match descOfKey s key with
    | some n => deletePrefix s n u
    | none => s

def insertEntry (s : State) (t : TableSel) (key : Bytes) (r : W32) : State × TableResult :=
  match t with
  | .stream => insertStream s ⟨key, r⟩
  | .station => insertStation s key r
  | .pfx => match descOfKey s key with
    | some n => insertPrefix s n ⟨key, r⟩
    | none => (s, ⟨5, none, 0⟩)

/-- Report a command's end in the status and in the location of its channel. -/
def reportTable (s : State) (au : Auth) (t : TableSel) (r : TableResult) : State :=
  let s1 := setCls s { s.cls with code := r.code, moves := r.moves }
  match r.place with
  | some u => setTableRegs s1 au { tableRegs s1 au with location := locationWord t u }
  | none => s1

/-- A rebuild runs and the command is on the Prefix Table (R208). -/
def rebuildBlocks (s : State) (t : TableSel) : Bool := t == .pfx && s.cls.rebuild.isSome

/-- The access record's key, cut to the table's length, and its result word. -/
def commandKey (s : State) (au : Auth) (t : TableSel) : Bytes := (recordKey (tableRegs s au)).take (keyBytesOf t)

/-- `moves` of the status belongs to the last Stream insert: a command on another table keeps it (Table 5.7). -/
def ownMoves (s : State) (t : TableSel) (r : TableResult) : TableResult :=
  if t = .stream then r else { r with moves := s.cls.moves }

def insertCommand (au : Auth) (t : TableSel) (s : State) : State :=
  let key := commandKey s au t
  let r := softResult (tableRegs s au).result
  if rebuildBlocks s t then reportTable s au t (ownMoves s t ⟨6, none, 0⟩)
  else if !keyClean t (recordKey (tableRegs s au)) || !entryOk s t key r then reportTable s au t (ownMoves s t ⟨5, none, 0⟩)
  else
    let q := insertEntry s t key r
    let s1 := if q.2.code = 0 ∨ q.2.code = 1 then noteChange q.1 t else q.1
    reportTable s1 au t (ownMoves s t q.2)

def deleteCommand (au : Auth) (t : TableSel) (s : State) : State :=
  let key := commandKey s au t
  if rebuildBlocks s t then reportTable s au t ⟨6, none, s.cls.moves⟩
  else if !keyClean t (recordKey (tableRegs s au)) then reportTable s au t ⟨5, none, s.cls.moves⟩
  else match findEntry s t key with
    | some u => reportTable (noteChange (deleteEntry s t key u) t) au t ⟨0, some u, s.cls.moves⟩
    | none => reportTable s au t ⟨3, none, s.cls.moves⟩

def readCommand (au : Auth) (t : TableSel) (s : State) : State :=
  let key := commandKey s au t
  if rebuildBlocks s t then reportTable s au t ⟨6, none, s.cls.moves⟩
  else if !keyClean t (recordKey (tableRegs s au)) then reportTable s au t ⟨5, none, s.cls.moves⟩
  else match findEntry s t key with
    | some u =>
      let r := resultAt s t u
      let s1 := setTableRegs s au { tableRegs s au with result := r }
      reportTable (setResultAt s1 t u (setBit r 24 false) false) au t ⟨0, some u, s.cls.moves⟩
    | none => reportTable s au t ⟨3, none, s.cls.moves⟩

def replaceCommand (au : Auth) (t : TableSel) (s : State) : State :=
  let key := commandKey s au t
  let r := softResult (tableRegs s au).result
  if rebuildBlocks s t then reportTable s au t ⟨6, none, s.cls.moves⟩
  else if !keyClean t (recordKey (tableRegs s au)) || !entryOk s t key r then reportTable s au t ⟨5, none, s.cls.moves⟩
  else match findEntry s t key with
    | some u =>
      let hit := bit (resultAt s t u) 24
      reportTable (noteChange (setResultAt s t u (setBit r 24 hit) true) t) au t ⟨0, some u, s.cls.moves⟩
    | none => reportTable s au t ⟨3, none, s.cls.moves⟩

def tableOf (n : Nat) : TableSel := if n = 0 then .stream else if n = 1 then .station else .pfx

/-- A write of 0x3400.01. -/
def tableCommand (au : Auth) (data : Bytes) (s : State) : Ack :=
  let v := valueOf data
  let t := tableOf (v / 16 % 4)
  if v / 16 % 4 = 3 then refuse errRange s else
  match v % 8 with
  | 1 => done (insertCommand au t s)
  | 2 => done (deleteCommand au t s)
  | 3 => done (readCommand au t s)
  | 4 => done (replaceCommand au t s)
  | _ => refuse errRange s

def tableOpBytes (op : Nat) (t : TableSel) : Bytes := toBE 4 (op + tableIndex t * 16)

def execTableInsert (m : Master) (table : TableSel) (s : State) : Out :=
  .next (commandWrite m 0x3400 1 (tableOpBytes 1 table) (tableCommand (authOf m)) s)
def execTableDelete (m : Master) (table : TableSel) (s : State) : Out :=
  .next (commandWrite m 0x3400 1 (tableOpBytes 2 table) (tableCommand (authOf m)) s)
def execTableRead (m : Master) (table : TableSel) (s : State) : Out :=
  .next (commandWrite m 0x3400 1 (tableOpBytes 3 table) (tableCommand (authOf m)) s)
def execTableReplace (m : Master) (table : TableSel) (s : State) : Out :=
  .next (commandWrite m 0x3400 1 (tableOpBytes 4 table) (tableCommand (authOf m)) s)

/-! ### Descriptors and rebuild (R192, R208) -/

def rangesOverlap (f1 c1 f2 c2 : Nat) : Bool := decide (f1 < f2 + c2) && decide (f2 < f1 + c1)

/-- No other enabled descriptor has the same family and length, or a range that overlaps. -/
def descClash (s : State) (n : Nat) (d : W64) : Bool :=
  (List.range 16).any (fun j => j ≠ n && descEnable (descriptor s j) &&
    ((descV6 (descriptor s j) == descV6 d && descLength (descriptor s j) == descLength d) ||
      rangesOverlap (descFirst d) (descCount d) (descFirst (descriptor s j)) (descCount (descriptor s j))))

/-- The fields of a descriptor are in range. -/
def descRangeOk (d : W64) : Bool :=
  decide (descLength d ≤ if descV6 d then 128 else 32) && decide (descCount d ≤ 16) &&
    decide (descFirst d + descCount d ≤ 16) && !(descEnable d && descCount d == 0)

/-- The running rebuild moves length table n + 1. -/
def rebuilds (s : State) (n : Nat) : Bool :=
  match s.cls.rebuild with
  | some r => r.desc.val == n
  | none => false

def writeDescriptor (n : Nat) (data : Bytes) (s : State) : Ack :=
  let d : W64 := BitVec.ofNat 64 (valueOf data)
  let old := descriptor s n
  if !(tableEntries s old).isEmpty || rebuilds s n then refuse errState s
  else if !descRangeOk d || (descEnable d && descClash s n d) then refuse errRange s
  else
    let s1 := setReg s 0x3403 (n + 1) d
    done (setCls s1 { s1.cls with filters := spDel s1.cls.filters n })

def execDescriptorWrite (m : Master) (n : Fin 16) (value : W32) (s : State) : Out :=
  .next (commandWrite m 0x3403 (n.val + 1) (wordBytes value) (writeDescriptor n.val) s)

/-- A write of 0x3404.01 (R208). -/
def startRebuild (data : Bytes) (s : State) : Ack :=
  let v := valueOf data
  let n := v % 16
  let first := v / 16 % 16
  let count := v / 256 % 32
  if s.cls.rebuild.isSome then refuse errState s
  else if count = 0 || 16 < first + count ||
      (List.range 16).any (fun j => j ≠ n && descEnable (descriptor s j) &&
        rangesOverlap first count (descFirst (descriptor s j)) (descCount (descriptor s j))) then refuse errRange s
  else done (requestGrant (setCls s { s.cls with rebuild := some ⟨Fin.ofNat 16 n, first, count⟩ }) .rebuild false)

def execRebuild (m : Master) (value : W32) (s : State) : Out :=
  .next (commandWrite m 0x3404 1 (wordBytes value) startRebuild s)

/-- A rebuild ends with a code of 0x3404.02. -/
def endRebuild (s : State) (code : BitVec 4) : State :=
  if s.cls.rebuild.isNone then s else
  let s1 := releaseGrant s .rebuild
  setCls s1 { s1.cls with rebuild := none, rebuildCode := code }

/-- Copy one entry into the new range; none once a bucket has overflowed. -/
def copyEntry (s : State) (d : W64) (acc : Option (Sparse Entry)) (e : Nat × Entry) : Option (Sparse Entry) :=
  acc.bind fun m =>
    if retiredUnit s 5 (prefixUnit (descFirst d) (descCount d) e.2.key) then none else
    ((prefixPlaces d e.2.key).find? (fun u => (spFind m u).isNone)).map (fun u => spPut m u e.2)

/-- The copy is complete: switch the descriptor, or abandon the rebuild on overflow (R208). -/
def execRebuildSwitch (s : State) : Out :=
  .next (match s.cls.rebuild with
    | none => s
    | some r =>
      if !grantHeld s .rebuild then s else
      let old := descriptor s r.desc.val
      let d := setField (setField old 13 10 r.firstBank) 18 14 r.bankCount
      let own := tableEntries s old
      let rest := s.cls.pfxEntries.filter (fun e => !entryOfDesc old e)
      match own.foldl (copyEntry s d) (some rest) with
      | none => endRebuild s 4
      | some m =>
        let s1 := setReg s 0x3403 (r.desc.val + 1) d
        let s2 := setCls s1 { s1.cls with
          pfxEntries := m
          filters := spSet filterZero s1.cls.filters r.desc.val (own.foldl (fun f e => addFilter f e.2.key) 0) }
        raise (endRebuild s2 0) evRebuildDone 0)

/-! ### Lookups (R177 to R181, R189, R193) -/

/-- The second compare of a lookup in this cycle differs: its entry has been moved or deleted in it, or it misses and one of
its candidate buckets has been bumped (R189). -/
def lookupRepeats (s : State) (key : Bytes) : Bool :=
  let b := marksOf s.now s.cls.bumped
  b.any (fun e => e.2 == key) ||
    ((findStream s key).isNone && b.any (fun e => (List.range 4).any (fun w => streamUnit w key == e.1)))

/-- A Stream lookup: the result word of its final read, and the state with the hit mark set there. -/
def lookupStream (s0 : State) (key : Bytes) : Option W32 × State :=
  let s := if lookupRepeats s0 key then bump s0 0x3406 0x2A else s0
  match findStream s key with
  | some u => (some (resultAt s .stream u), setResultAt s .stream u (setBit (resultAt s .stream u) 24 true) false)
  | none => (none, s)

/-- The Prefix key of an address in a length table: bits beyond the length are zero. -/
def prefixKeyFor (d : W64) (zone : Byte) (addr : Bytes) : Bytes :=
  let a := beNat (fitTo 16 addr)
  let cut := 2 ^ (128 - descLength d)
  [if descV6 d then 0x06 else 0x04, zone, BitVec.ofNat 8 (descLength d), 0] ++ toBE 16 (a / cut * cut)

/-- The match of an address in length table n, unless its filter rules it out (R194). -/
def probePrefix (s : State) (zone : Byte) (addr : Bytes) (n : Nat) : Option Nat :=
  let d := descriptor s n
  let key := prefixKeyFor d zone addr
  let f := spGet filterZero s.cls.filters n
  if f.getLsbD (filterBits key).1 && f.getLsbD (filterBits key).2 then findPrefix s d key else none

/-- The longest match among the enabled length tables of a family, with its hit mark set (R193). -/
def lookupPrefix (s : State) (v6 : Bool) (zone : Byte) (addr : Bytes) : Option W32 × State :=
  let hits := (List.range 16).filterMap (fun n =>
    if descEnable (descriptor s n) && descV6 (descriptor s n) == v6 then
      (probePrefix s zone addr n).map (fun u => (descLength (descriptor s n), u)) else none)
  let best := hits.foldl (fun b h => match b with
    | none => some h
    | some x => if x.1 < h.1 then some h else some x) none
  match best with
  | some (_, u) => (some (resultAt s .pfx u), setResultAt s .pfx u (setBit (resultAt s .pfx u) 24 true) false)
  | none => (none, s)

def stationKey (vid : BitVec 12) (mac : Bytes) : Bytes := toBE 2 vid.toNat ++ mac

/-- A Station entry has been read in this cycle. -/
def noteHit (s : State) (u : Nat) : State := setCls s { s.cls with hits := some (s.now, u :: marksOf s.now s.cls.hits) }

/-- A Station lookup: the result word, and the state with the entry marked as read. -/
def lookupStation (s : State) (key : Bytes) : Option W32 × State :=
  match findStation s key with
  | some u => (some (resultAt s .station u), noteHit s u)
  | none => (none, s)

/-! ### Learning and aging (R197 to R201) -/

def learnedCount (s : State) : Nat := (s.cls.station.filter (fun e => resLearned e.2.result)).length

/-- Queue a learning request (R197). -/
def pushLearn (s : State) (q : LearnReq) : State :=
  if s.cls.learnQ.length < 64 then setCls s { s.cls with learnQ := s.cls.learnQ ++ [q] } else bump s 0x3406 8

/-- The result word of a learned entry. -/
def learnedResult (port : Nat) : W32 := BitVec.ofNat 32 (port * 2 ^ 16 + 2 ^ 23)

/-- A request that finds no entry (R197). DESIGN CHOICE (log 76): where the set is full or learned_max is reached, and
learn_rate is spent as well, learn-full alone counts. -/
def learnNew (s : State) (q : LearnReq) (key : Bytes) : State :=
  let p := q.port.val
  let made := spGet natZero s.cls.learned p
  match freeStation s key with
  | none => raise (bump s 0x3406 6) evLearnRefused p
  | some u =>
    if regN s 0x3402 3 ≤ learnedCount s then raise (bump s 0x3406 6) evLearnRefused p
    else if field (reg s 0x3401 (p + 1)) 31 16 ≤ made then raise (bump s 0x3406 7) evLearnRefused p
    else
      let s1 := putStation s u ⟨key, learnedResult p, s.cls.second⟩
      setCls s1 { s1.cls with learned := spSet natZero s1.cls.learned p (made + 1) }

/-- A request that finds an entry (R198). DESIGN CHOICE (log 77): a software entry of another port that is neither pinned
nor static stays as it is. -/
def learnHit (s : State) (q : LearnReq) (u : Nat) (e : StationEntry) : State :=
  let p := q.port.val
  if resPort e.result = p then putStation s u { e with lastSeen := s.cls.second }
  else if resStatic e.result || resPinned e.result then
    let s1 := bump s 0x3406 (0x0A + p)
    if s1.cls.pinRaised.getLsbD p then s1
    else raiseCause (setCls s1 { s1.cls with pinRaised := setBit s1.cls.pinRaised p true }) (evPort p) 4 p
  else if resLearned e.result then
    raise (bump (putStation s u { e with result := setField e.result 20 16 p, lastSeen := s.cls.second }) 0x3406 9)
      evStationMove p
  else s

/-- The head of the learning queue is served. DESIGN CHOICE (log 80): requests queued before learning was stopped wait until
it is allowed again (R206). -/
def execLearningRequest (s : State) : Out :=
  .next (match s.cls.learnQ with
    | [] => s
    | q :: rest =>
      if s.cls.learnStopped then s else
      let s1 := setCls s { s.cls with learnQ := rest }
      let key := stationKey q.vid q.mac
      match findStation s1 key with
      | none => learnNew s1 q key
      | some u => match stationAt s1 u with
        | some e => learnHit (noteHit s1 u) q u e
        | none => s1)

/-- The aging rule of R200 removes the entry. -/
def agedOut (second : W16) (aging : Nat) (e : StationEntry) : Bool :=
  !resStatic e.result && decide (aging ≤ (second - e.lastSeen).toNat)

/-- The Classifier second advances and the aging sweep visits every entry; one that a lookup or learning request of this
cycle has read stays for the visit (R201). It runs on clk_ctl while PD_PATH is powered. -/
def execClassifierSecond (s : State) : Out :=
  .next (if decide (s.power.bringUp = .done) && domainOn s 4 && elapsed s s.cls.secondStart (ctlCycles 200000000) then
    let t := s.cls.second + 1
    let s1 := { s with attest := { s.attest with nativeThisSecond := 0, refusedThisSecond := false } }
    let kept := s.cls.station.filter (fun e => (marksOf s.now s.cls.hits).contains e.1 || !agedOut t (regN s 0x3402 1) e.2)
    setCls s1 { s.cls with second := t, secondStart := s.now, learned := [], pinRaised := 0, station := kept }
  else s)

/-! ### Shadow compare (R204 to R206) -/

def entryDigest (key : Bytes) (r : W32) : W32 := crc04 (key ++ wordBytes (r &&& 0xFE7FFFFF))

/-- The digests of a table's entries in scope. -/
def tableDigests (s : State) (t : TableSel) : List W32 :=
  match t with
  | .stream => (s.cls.stream ++ s.cls.stash).map (fun e => entryDigest e.2.key e.2.result)
  | .station => (s.cls.station.filter (fun e => !resLearned e.2.result)).map (fun e => entryDigest e.2.key e.2.result)
  | .pfx => s.cls.pfxEntries.map (fun e => entryDigest e.2.key e.2.result)

/-- The 12-byte signature of a table (R204). -/
def signature (s : State) (t : TableSel) : Bytes :=
  let ds := tableDigests s t
  toBE 4 ds.length ++ wordBytes (ds.foldl (· ^^^ ·) 0) ++ wordBytes (ds.foldl (· + ·) (0 : W32))

def execShadowPassStart (s : State) : Out :=
  .next (if pathOn s && bit (reg s 0x3405 7) 0 && elapsed s s.cls.passStart (secCycles (field (reg s 0x3405 7) 31 16)) then
    setCls s { s.cls with passRunning := 7, passStart := s.now }
  else s)

/-- A pass over one table ends (R206). -/
def execShadowPassEnd (table : TableSel) (s : State) : Out :=
  let i := tableIndex table
  .next (if s.cls.passRunning.getLsbD i then
    let m := signature s table
    let bad := m != s.cls.expected.getD i []
    let st := setBit s.cls.shadowStatus (3 + i) true
    let s1 := setCls s { s.cls with
      measured := s.cls.measured.set i m, passRunning := setBit s.cls.passRunning i false
      shadowStatus := if bad then setBit st i true else st
      learnStopped := s.cls.learnStopped || (bad && bit (reg s 0x3405 7) 1) }
    if bad then raise s1 evShadowMismatch 0 else s1
  else s)

/-! ### Retirement (R207) -/

/-- An entry of a retired place is lost: counted, raised, with its location in 0x3400.07 (R207). DESIGN CHOICE (log 79): no
channel caused it, so both channels' copies show the location. -/
def loseEntry (s : State) (t : TableSel) (u : Nat) : State :=
  let w := locationWord t u
  let s1 := setCls s { s.cls with hostRegs := { s.cls.hostRegs with location := w }
                                  dnRegs := { s.cls.dnRegs with location := w } }
  raise (bump s1 0x3406 0x2B) evTableEntryLost (field w 15 0)

/-- The entry of a retired Stream bucket or stash entry is reinserted, or lost (R207). -/
def retireStream (s : State) (u : Nat) (readable : Bool) : State :=
  match streamAt s u with
  | none => s
  | some e =>
    let s1 := noteStash (bumpClear s u)
    let q := insertStream s1 e
    if readable && decide (q.2.code.toNat ≤ 1) then q.1 else loseEntry s1 .stream u

def retireStation (s : State) (u : Nat) (readable : Bool) : State :=
  match stationAt s u with
  | none => s
  | some e =>
    let s1 := delStation s u
    match freeStation s1 e.key with
    | some v => if readable then putStation s1 v e else loseEntry s1 .station u
    | none => loseEntry s1 .station u

/-- The entries of a retired Prefix bucket: its whole bucket is gone, so no entry finds a place in it again. -/
def retirePrefix (s : State) (b : Nat) : State :=
  (List.range 4).foldl (fun s j => match spFind s.cls.pfxEntries (b * 4 + j) with
    | none => s
    | some e => loseEntry (deleteEntry s .pfx e.key (b * 4 + j)) .pfx (b * 4 + j)) s

/-- Retired units of an array. -/
def retiredCount (s : State) (array : Nat) : Nat :=
  (s.faults.retired.filter (fun e => e.1 / 2 ^ 32 == array && e.2)).length

/-- Retired Stream buckets, without stash entries. -/
def retiredBuckets (s : State) : Nat :=
  (s.faults.retired.filter (fun e => e.1 / 2 ^ 32 == 3 && e.1 % 2 ^ 32 < stashBase && e.2)).length

/-! ### Objects of the classifier area -/

def writeClassifierObj (au : Auth) (idx sub : Nat) (data : Bytes) (s : State) : Ack :=
  let v := valueOf data
  match idx with
  | 0x3400 =>
    let t := tableRegs s au
    match sub with
    | 1 => tableCommand au data s
    | 6 => done (setTableRegs s au { t with result := softResult (BitVec.ofNat 32 v) ||| (t.result &&& 0x01800000) })
    | _ => done (setTableRegs s au { t with key := t.key.set (sub - 3) (BitVec.ofNat 64 v) })
  | 0x3401 => if v % 4 = 3 then refuse errRange s else putReg idx sub data s
  | 0x3402 =>
    match sub with
    | 1 => putRange idx sub 1 65535 data s
    | 2 => if s.cls.station.isEmpty then putReg idx sub data s else refuse errState s
    | _ => putRange idx sub 0 32768 data s
  | 0x3403 => writeDescriptor (sub - 1) data s
  | 0x3404 => startRebuild data s
  | 0x3405 =>
    if sub ≤ 3 then done (setCls s { s.cls with expected := s.cls.expected.set (sub - 1) data })
    else if sub = 7 then (if v / 2 ^ 16 = 0 then refuse errRange s else putReg idx sub data s)
    else
      let st := s.cls.shadowStatus &&& ~~~(BitVec.ofNat 32 v)
      done (setCls s { s.cls with shadowStatus := st, learnStopped := s.cls.learnStopped && field st 2 0 != 0 })
  | _ => refuse errWriteRo s

def readClassifierObj (au : Auth) (idx sub : Nat) (s : State) : Except W32 Bytes :=
  match idx with
  | 0x3400 =>
    match sub with
    | 2 => numRead 4 (s.cls.code.toNat * 2 + s.cls.moves.toNat * 2 ^ 8)
    | 6 => numRead 4 (tableRegs s au).result.toNat
    | 7 => numRead 4 (tableRegs s au).location.toNat
    | _ => numRead 8 ((tableRegs s au).key.getD (sub - 3) 0).toNat
  | 0x3401 => regRead s idx sub 4
  | 0x3402 => regRead s idx sub (if sub = 2 then 4 else 2)
  | 0x3403 => regRead s idx sub 4
  | 0x3404 => numRead 4 (s.cls.rebuild.isSome.toNat + s.cls.rebuildCode.toNat * 2)
  | 0x3405 =>
    if sub ≤ 3 then .ok (s.cls.expected.getD (sub - 1) []) else if sub ≤ 6 then .ok (s.cls.measured.getD (sub - 4) [])
    else if sub = 7 then regRead s idx sub 4 else numRead 4 s.cls.shadowStatus.toNat
  | _ =>
    match sub with
    | 1 => numRead 4 (s.cls.stream.length + s.cls.stash.length)
    | 2 => numRead 4 s.cls.station.length
    | 3 => numRead 4 s.cls.pfxEntries.length
    | 4 => numRead 2 s.cls.stash.length
    | 5 => numRead 4 (learnedCount s)
    | 0x2C => numRead 4 (65536 - retiredBuckets s)
    | 0x2D => numRead 4 (32768 - retiredCount s 4)
    | 0x2E => numRead 4 (65536 - 4 * retiredCount s 5)
    | _ => ctrRead s idx sub 8

/-! ### Resets (R493) -/

/-- Warm reset: a running command is lost with code 8, learning requests and shadow passes are dropped; a rebuild is
abandoned, the descriptor unchanged. -/
def classifierWarm (s : State) (tableRunning : Bool) : State :=
  let s1 := endRebuild s 3
  setCls s1 { s1.cls with code := if tableRunning then 8 else s1.cls.code, learnQ := [], passRunning := 0
                          hostRegs := TableRegs.default, dnRegs := TableRegs.default }

end Sys2Proof.Machine
end

