-- ==== Sys2Proof/Machine/Contexts.lean ====
section
/-! DEFINITION. The Context Store and the Numbering Stage (04_stream_contexts_and_rekey.md). -/

namespace Sys2Proof.Machine

/-! ### Association slots -/

def assocOf (x : Context) : SlotId → Assoc
  | .A => x.a
  | .B => x.b

def setAssoc (x : Context) (i : SlotId) (a : Assoc) : Context :=
  match i with
  | .A => { x with a := a }
  | .B => { x with b := a }

def otherSlot : SlotId → SlotId
  | .A => .B
  | .B => .A

def assocCode : AssocState → Nat
  | .empty => 0
  | .next => 1
  | .current => 2
  | .old => 3
  | .stopped => 4

/-- Word +j of a slot (Table 4.4). -/
def assocWord (a : Assoc) (j : Nat) : Nat :=
  match j with
  | 0 => a.an.toNat + assocCode a.state * 4 + a.klen.toNat * 2 ^ 5 + a.wm.toNat * 2 ^ 6 + a.pnEnd.toNat * 2 ^ 7 +
           a.key.toNat * 2 ^ 16 + a.inflight.toNat * 2 ^ 32
  | 1 => a.salt.toNat / 2 ^ 32
  | 2 => a.salt.toNat % 2 ^ 32
  | 3 => a.nextPn.toNat
  | _ => a.switchAt.toNat

/-- Word k of a record (Tables 4.1 to 4.5). -/
def contextWord (x : Context) (k : Nat) : Nat :=
  if k = 0 then
    x.enable.toNat + x.rx.toNat * 2 + x.port.toNat * 4 + x.cls.toNat * 2 ^ 7 + x.periodic.toNat * 2 ^ 9 +
      x.conf.toNat * 2 ^ 10 + x.retired.toNat * 2 ^ 11 + x.ssci.toNat * 2 ^ 32
  else if k = 1 then x.sci.toNat
  else if k = 2 then x.watermark.toNat
  else if k = 3 then x.period.toNat + x.phase.toNat * 2 ^ 32
  else if k ≤ 8 then assocWord x.a (k - 4)
  else if k ≤ 13 then assocWord x.b (k - 9)
  else if k = 14 then x.shareCtx.toNat + x.shareEn.toNat * 2 ^ 13
  else if k = 15 then x.switchCount.toNat
  else (spGet w64Zero x.ctrs k).toNat

/-- Add to a context counter word (R146); the counters of a retired record stay 0 (R173). -/
def tallyContext (s : State) (c word n : Nat) : State :=
  let x := context s c
  if x.retired then s else
  setContext s c { x with ctrs := spSet w64Zero x.ctrs word (satAdd64 (spGet w64Zero x.ctrs word) n) }

/-! ### A slot leaves use -/

/-- The frame's plan no longer refers to a live slot. -/
def forgetFrame (c : Nat) (i : SlotId) (f : QFrame) : QFrame :=
  match f.disp with
  | .protect p => if p.owner = c ∧ p.slot = i then { f with disp := .protect { p with slotKept := false } } else f
  | _ => f

def forgetDir (c : Nat) (i : SlotId) (d : ShimDir) : ShimDir := { d with frames := d.frames.map (forgetFrame c i) }

/-- Frames in the buffers that used a slot of context `c` keep their number and key and settle without it (R162). -/
def forgetSlot (s : State) (c : Nat) (i : SlotId) : State :=
  { s with shims := s.shims.map (fun e => (e.1, { tx := forgetDir c i e.2.tx, rx := forgetDir c i e.2.rx })) }

/-- A slot that is not EMPTY returns to its defaults and releases its key (R155, R160, R215). -/
def clearSlot (s : State) (c : Nat) (i : SlotId) : State :=
  let x := context s c
  let a := assocOf x i
  if a.state = .empty then s
  else forgetSlot (setContext (releaseKey s a.key) c (setAssoc x i Assoc.default)) c i

/-- A transmit slot in OLD with nothing in flight becomes EMPTY (R160). -/
def emptyOld (s : State) (c : Nat) (i : SlotId) : State :=
  let a := assocOf (context s c) i
  if !(context s c).rx && a.state == .old && a.inflight == 0 then clearSlot s c i else s

/-! ### Writes of the context window (R148 to R156) -/

/-- The control word that a write of word 0 gives, its RO fields kept. DESIGN CHOICE (log 73): a write that changes dir
while slots are not EMPTY leaves the slots in the states they have. -/
def controlWrite (x : Context) (v : W64) : Context :=
  { x with enable := bit v 0, rx := bit v 1, port := v.extractLsb' 2 5, cls := v.extractLsb' 7 2, periodic := bit v 9
           conf := bit v 10, ssci := v.extractLsb' 32 32 }

/-- R149 holds of the record a write would leave. -/
def enableOk (s : State) (c : Nat) (x : Context) : Bool :=
  let o := context s x.shareCtx.toNat
  !x.retired && !(x.periodic && x.period == 0) && !(x.rx && x.conf) && !(x.rx && x.shareEn) &&
    !(x.shareEn && (x.shareCtx.toNat == c || o.rx || o.shareEn || o.retired)) &&
    !(x.shareEn && !(x.a.state == .empty && x.b.state == .empty))

/-- A write of word 0. -/
def writeControl (c : Nat) (v : W64) (s : State) : Ack :=
  let x := context s c
  let y := controlWrite x v
  if x.enable && !(y == { x with enable := false }) then refuse errState s
  else if x.enable then done (setContext s c y)
  else if x.retired then refuse errState s
  else if y.enable && !enableOk s c y then refuse errState s
  else if 2 ≤ y.cls.toNat then refuse errRange s
  else done (setContext s c y)

/-- A period of 0, or from 1,000 to 10^9 and an exact divisor of 10^9 (Tables 4.3, 10.2). -/
def periodOk (p : Nat) : Bool := p = 0 || (1000 ≤ p && p ≤ 1000000000 && 1000000000 % p == 0)

/-- The install of an association meets R153 and the binding rule of R215. -/
def installOk (s : State) (x : Context) (i : SlotId) (an : BitVec 2) (key : W16) : Bool :=
  let o := assocOf x (otherSlot i)
  !(o.state == .next) && !(o.state != .empty && o.an == an) && !refRetention key && keyUsable s key &&
    !(!x.rx && (slotOf s key).txu) && !(x.rx && (assocOf x i).switchAt != 0) && !x.retired && !x.shareEn &&
    !bindSaturated s key

/-- A write of state = 1 (R153, R154). -/
def installSlot (s : State) (c : Nat) (i : SlotId) (an : BitVec 2) (klen : Bool) (key : W16) : State :=
  let x := context s c
  let s1 := bindKey s key
  let s2 := if x.rx then s1 else setSlot s1 key { slotOf s1 key with txu := true }
  setContext s2 c (setAssoc x i { assocOf x i with an := an, klen := klen, key := key, state := .next })

/-- Table 4.7 lets software write state = 0 to this slot. -/
def clearAllowed (x : Context) (a : Assoc) : Bool :=
  match a.state with
  | .empty => true
  | .next => true
  | .old => x.rx
  | .stopped => true
  | .current => x.rx || (!x.enable && a.inflight == 0)

/-- A write of word +0 of a slot (R150, R153 to R156). -/
def writeSlotState (c : Nat) (i : SlotId) (v : W64) (s : State) : Ack :=
  let x := context s c
  let a := assocOf x i
  let an : BitVec 2 := v.extractLsb' 0 2
  let st := field v 4 2
  let klen := bit v 5
  let key : W16 := v.extractLsb' 16 16
  if x.retired then refuse errState s
  else if 5 ≤ st then refuse errRange s
  else if st = 1 then
    if a.state ≠ .empty then refuse errState s
    else if !keyRefOk key false then refuse errRange s
    else if !installOk s x i an key then refuse errState s
    else done (installSlot s c i an klen key)
  else if st = 0 then
    if a.state = .empty then
      (if !keyRefOk key false then refuse errRange s
       else done (setContext s c (setAssoc x i { a with an := an, klen := klen, key := key })))
    else if clearAllowed x a then done (clearSlot s c i) else refuse errState s
  else refuse errState s

/-- A write of word +1 to +4 of a slot (R150). -/
def writeSlotWord (c : Nat) (i : SlotId) (j : Nat) (v : W64) (s : State) : Ack :=
  let x := context s c
  let a := assocOf x i
  let put (a : Assoc) : Ack := done (setContext s c (setAssoc x i a))
  if x.retired ∨ a.state ≠ .empty then refuse errState s
  else match j with
    | 1 => put { a with salt := v ++ a.salt.extractLsb' 0 32 }
    | 2 => put { a with salt := a.salt.extractLsb' 32 64 ++ v.extractLsb' 0 32 }
    | 3 => if v = 0 then refuse errRange s else put { a with nextPn := v }
    | _ => put { a with switchAt := v }

/-- A write of word k of record c. -/
def writeContextWord (c k : Nat) (v : W64) (s : State) : Ack :=
  let x := context s c
  if k = 0 then writeControl c v s
  else if k = 4 then writeSlotState c .A v s
  else if k = 9 then writeSlotState c .B v s
  else if 5 ≤ k ∧ k ≤ 8 then writeSlotWord c .A (k - 4) v s
  else if 10 ≤ k ∧ k ≤ 13 then writeSlotWord c .B (k - 9) v s
  else if x.retired then refuse errState s
  else if k = 2 then (if v = 0 then refuse errRange s else done (setContext s c { x with watermark := v }))
  else if x.enable then refuse errState s
  else if k = 1 then done (setContext s c { x with sci := v })
  else if k = 3 then
    let p := field v 31 0
    let f := field v 63 32
    if !periodOk p ∨ (p ≠ 0 ∧ p ≤ f) then refuse errRange s
    else done (setContext s c { x with period := v.extractLsb' 0 32, phase := v.extractLsb' 32 32 })
  else if k = 14 then done (setContext s c { x with shareCtx := v.extractLsb' 0 13, shareEn := bit v 13 })
  else refuse errWriteRo s

/-- The record that the window of a channel shows (0x3000.01, R461). -/
def selectedContext (au : Auth) (s : State) : Nat := regN s (chanIdx au 0x3000) 1

/-- Writes of 0x3000 and 0x3001. -/
def writeContextObj (au : Auth) (idx sub : Nat) (data : Bytes) (s : State) : Ack :=
  if idx = 0x3000 then putRange (chanIdx au idx) sub 0 8191 data s
  else writeContextWord (selectedContext au s) (sub - 1) (BitVec.ofNat 64 (valueOf data)) s

def readContextObj (au : Auth) (idx sub : Nat) (s : State) : Except W32 Bytes :=
  if idx = 0x3000 then regRead s (chanIdx au idx) sub 2
  else numRead 8 (contextWord (context s (selectedContext au s)) (sub - 1))

def execContextEnable (m : Master) (value : W64) (s : State) : Out :=
  .next (commandWrite m 0x3001 1 (wordBytes value) (writeContextObj (authOf m) 0x3001 1) s)

/-- The subindex of word +0 of a slot. -/
def slotSub : SlotId → Nat
  | .A => 5
  | .B => 10

def execAssociationInstall (m : Master) (slot : SlotId) (value : W64) (s : State) : Out :=
  .next (commandWrite m 0x3001 (slotSub slot) (wordBytes (setField value 4 2 1))
    (writeContextObj (authOf m) 0x3001 (slotSub slot)) s)

def execAssociationClear (m : Master) (slot : SlotId) (value : W64) (s : State) : Out :=
  .next (commandWrite m 0x3001 (slotSub slot) (wordBytes (setField value 4 2 0))
    (writeContextObj (authOf m) 0x3001 (slotSub slot)) s)

/-! ### The Numbering Stage (R157 to R164) -/

/-- The slot of a record in one of some states. -/
def slotIn (x : Context) (p : AssocState → Bool) : Option SlotId :=
  if p x.a.state then some .A else if p x.b.state then some .B else none

/-- What the choice of R158 gives a frame, with the events it raises when it settles (R145). -/
inductive Choice where
  | noAssociation
  | staleKey (ev : List Tally)
  | numbered (p : CipherPlan) (ev : List Tally)
  deriving DecidableEq, Repr

/-- The IV of a frame: (SSCI ‖ PN) ⊕ salt (R124). -/
def ivOf (ssci : W32) (pn : W64) (salt : BitVec 96) : BitVec 96 := (ssci ++ pn) ^^^ salt

/-- The switch of R158: the CURRENT or STOPPED slot becomes OLD and the NEXT slot CURRENT. -/
def switchSlots (s : State) (o : Nat) (cur : Option SlotId) (nxt : SlotId) : State :=
  let x := context s o
  let x1 := match cur with
    | some i => setAssoc x i { assocOf x i with state := .old }
    | none => x
  let x2 := setAssoc x1 nxt { assocOf x1 nxt with state := .current }
  let s1 := setContext s o { x2 with switchCount := BitVec.ofNat 32 (satInc 0xFFFFFFFF x2.switchCount.toNat) }
  match cur with
  | some i => emptyOld s1 o i
  | none => s1

/-- The plan of a frame on slot `a` of owner `x` with number pn (R19, R117, R124). -/
def planOf (s0 : State) (x : Context) (a : Assoc) (c o : Nat) (i : SlotId) (conf : Bool) (pn : W64) (late : Bool) : CipherPlan :=
  let s := frameView s0
  { ctx := c, owner := o, slot := i, an := a.an, conf := conf, klen := a.klen, key := slotValue s a.key
    h := if a.klen then slotH256 s a.key else slotH128 s a.key, iv := ivOf x.ssci pn a.salt, pn := pn, sci := x.sci
    sc := false, late := late, slotKept := true }

/-- Reserve the next number of slot `i` of owner `o` for a frame of context `c` (R158, R163, R164). -/
def reservePn (s : State) (c o : Nat) (i : SlotId) (ev : List Tally) : State × Choice :=
  let x := context s o
  let a := assocOf x i
  let pn := a.nextPn
  let mark := decide (x.watermark.toNat ≤ pn.toNat) && !a.wm
  let last := pn == BitVec.allOnes 64
  let a1 := { a with wm := a.wm || mark, state := if last then .stopped else a.state
                     nextPn := if last then pn else pn + 1, inflight := a.inflight + 1 }
  (setContext s o (setAssoc x i a1),
   .numbered (planOf s x a c o i x.conf pn false)
     (ev ++ (if mark then [.event evWatermark o] else []) ++ (if last then [.event evHardStop o] else [])))

/-- The chosen slot supplies the number, unless its key is not LIVE (R118, R158). -/
def takeSlot (s : State) (c o : Nat) (i : SlotId) (ev : List Tally) : State × Choice :=
  if !frameKeyUsable s (assocOf (context s o) i).key then (s, .staleKey ev) else reservePn s c o i ev

/-- The owner of a context's associations (R158). -/
def ownerOf (s : State) (c : Nat) : Nat := if (context s c).shareEn then (context s c).shareCtx.toNat else c

/-- The threshold of R158. -/
def switchThreshold (x : Context) (nxt : Option SlotId) : W64 :=
  match nxt with
  | some i => if (assocOf x i).switchAt ≠ 0 then (assocOf x i).switchAt else x.watermark
  | none => x.watermark

/-- The CURRENT or STOPPED slot lets a NEXT slot take over (R158). -/
def curRipe (x : Context) (cur : Option SlotId) (thr : W64) : Bool :=
  match cur with
  | none => true
  | some i => (assocOf x i).state == .stopped || decide (thr.toNat ≤ (assocOf x i).nextPn.toNat)

/-- The CURRENT slot goes on numbering, or none can (R158, R159). -/
def stayOn (s : State) (c o : Nat) (x : Context) (cur : Option SlotId) : State × Choice :=
  match cur with
  | some i => if (assocOf x i).state = .current then takeSlot s c o i [] else (s, .noAssociation)
  | none => (s, .noAssociation)

/-- Association choice and number reservation for a transmit frame on context c (R158, R159). -/
def chooseTx (s : State) (c : Nat) : State × Choice :=
  let o := ownerOf s c
  let x := context s o
  let cur := slotIn x (fun t => t == .current || t == .stopped)
  let nxt := slotIn x (· == .next)
  if !(context s c).enable || !x.enable then (s, .noAssociation) else
  match nxt with
  | some i =>
    if frameKeyUsable s (assocOf x i).key && curRipe x cur (switchThreshold x nxt) then
      takeSlot (switchSlots s o cur i) c o i [.event evTransmitSwitch o]
    else stayOn s c o x cur
  | none => stayOn s c o x cur

/-- A frame that took its number from a slot settles (R160). -/
def settleSlot (s : State) (p : CipherPlan) : State :=
  let x := context s p.owner
  if p.slotKept && !x.rx then
    let a := assocOf x p.slot
    emptyOld (setContext s p.owner (setAssoc x p.slot { a with inflight := a.inflight - 1 })) p.owner p.slot
  else s

/-! ### Receive slots (R161, R152) -/

/-- NEXT, CURRENT and OLD are live on receive (R152). -/
def rxLive (a : Assoc) : Bool := a.state == .next || a.state == .current || a.state == .old

/-- The live slot with an association number (R161). -/
def rxSlot (x : Context) (an : BitVec 2) : Option SlotId :=
  if rxLive x.a && x.a.an == an then some .A else if rxLive x.b && x.b.an == an then some .B else none

/-- A frame delivered under row 16 or 17 on a NEXT slot makes it CURRENT (R161). -/
def rxSwitch (s : State) (c : Nat) (i : SlotId) : State × List Tally :=
  let x := context s c
  if (assocOf x i).state = .next then
    let j := otherSlot i
    let o := assocOf x j
    let x1 := if o.state = .current then setAssoc x j { o with state := .old } else x
    let x2 := setAssoc x1 i { assocOf x1 i with state := .current }
    (setContext s c { x2 with switchCount := BitVec.ofNat 32 (satInc 0xFFFFFFFF x2.switchCount.toNat) },
     [.event evReceiveSwitch c])
  else (s, [])

/-! ### Failure, resets and power (R173, R175, R176) -/

/-- Retire a record (R173). -/
def retireContext (s : State) (c : Nat) : State :=
  let s1 := clearSlot (clearSlot s c .A) c .B
  raise (setContext s1 c { Context.default with retired := true, watermark := 0, a := { Assoc.default with nextPn := 0 }
                                                b := { Assoc.default with nextPn := 0 } }) evContextRetired c

/-- Context records not retired (0x4800.06). -/
def contextCapacity (s : State) : Nat := 8192 - (s.contexts.filter (fun e => e.2.retired)).length

/-- A slot after warm reset: inflight 0, an OLD transmit slot EMPTY (R176). -/
def warmSlot (s : State) (c : Nat) (i : SlotId) : State :=
  let x := context s c
  emptyOld (setContext s c (setAssoc x i { assocOf x i with inflight := 0 })) c i

def warmContext (s : State) (e : Nat × Context) : State := warmSlot (warmSlot s e.1 .A) e.1 .B

def contextsWarm (s : State) : State := s.contexts.foldl warmContext s

end Sys2Proof.Machine
end

