-- ==== Sys2Proof/Machine/Keys.lean ====
section
/-! DEFINITION. Commands of the Key Register File, the Derivation Unit, the remasking sweep and the DRBG
(06_key_register_and_derivation.md). -/

namespace Sys2Proof.Machine

/-! ### Key staging window (R217 to R221) -/

/-- A write of a word of the key staging window: KW, no index, not reachable over dn_ (R217). `resv` marks its reserved
bits. -/
def stagingWrite (m : Master) (resv : Nat) (value : W32) (eff : State → Ack) (s : State) : State :=
  match m with
  | .dn => s
  | .host sec priv =>
    if !hpReady s then s else
    let s1 := if Nat.land value.toNat resv ≠ 0 then bump s 0x2002 3 else s
    let r := if sec && priv == 3 then eff s1 else refuse errMaster s1
    hpAnswer (hpRespOf r.2) 0 (if r.2.isSome then countRefusal (.host sec priv) r.1 else r.1)

def usageOf (n : Nat) : Usage := if n = 1 then .derive else if n = 2 then .mac else .data

/-- The reason a target cannot be staged, as a code of Table 6.4, in the order of R219. -/
def stagingRefusal (s : State) (k : W16) : Option (BitVec 4) :=
  let st := effState s k
  if !refInRange k ∨ st = .retired then some 14
  else if st ≠ .empty ∧ st ≠ .stale then some 3
  else if (slotOf s k).bindings ≠ 0 then some 4
  else if !drbgReady s then some 6
  else if !keyWritesAllowed s then some 7
  else none

def setStagingCode (s : State) (code : BitVec 4) : State := setKeys s { s.keys with stagingCode := code }

/-- A write of target (R219). -/
def openStaging (value : W32) (s : State) : Ack :=
  let k : W16 := value.extractLsb' 0 16
  let u := field value 17 16
  if s.keys.staging.isSome then refuse errState (setStagingCode s 5)
  else if u = 3 then refuse errRange s
  else match stagingRefusal s k with
    | some c => refuse errState (setStagingCode s c)
    | none =>
      let s1 := stage s k
      done (setKeys s1 { s1.keys with
        staging := some { target := k, usage := usageOf u, value := List.replicate 8 none, check := none, since := s.now }
        stagingCode := 1, stagingSlot := k })

def execStagingOpen (m : Master) (value : W32) (s : State) : Out :=
  .next (stagingWrite m (bitsMask 31 18) value (openStaging value) s)

/-- The code of an open staging: value incomplete or complete (Table 6.4). -/
def openCode (st : Staging) : BitVec 4 := if st.value.all Option.isSome then 2 else 1

/-- A write of value word `w` (0 to 7) or of the check word (8). -/
def writeStagingWord (w : Fin 9) (value : W32) (s : State) : Ack :=
  match s.keys.staging with
  | none => refuse errState s
  | some st =>
    let st1 := if w.val = 8 then { st with check := some value } else { st with value := st.value.set w.val (some value) }
    done (setKeys s { s.keys with staging := some st1, stagingCode := openCode st1 })

def execStagingWordWrite (m : Master) (word : Fin 9) (value : W32) (s : State) : Out :=
  .next (stagingWrite m 0 value (writeStagingWord word value) s)

/-- The 256-bit value of the window, word j holding bits [32j + 31:32j]. -/
def stagedValue (st : Staging) : KeyVal :=
  BitVec.ofNat 256 ((st.value.reverse.map (fun w => (w.getD 0).toNat)).foldl (fun a w => a * 2 ^ 32 + w) 0)

/-- The check that a commit fails, as a code of Table 6.4 (R221). -/
def commitFailure (st : Staging) : Option (BitVec 4) :=
  if !st.value.all Option.isSome then some 10
  else if stagedValue st = 0 then some 9
  else if st.check.getD 0 ≠ crc04 (wordBytes (stagedValue st)) then some 8
  else none

/-- A commit command (R221, R222). DESIGN CHOICE (log 68): with every check passed and the DRBG refusing requests, it is
refused and the staging stays open. -/
def commitStaging (s : State) : Ack :=
  match s.keys.staging with
  | none => refuse errState s
  | some st =>
    match commitFailure st with
    | some c => done (raise (bump (abortStaging s c) 0x380A 2) evCommitFail st.target.toNat)
    | none =>
      if !drbgServes s then refuse errState s else
      let s1 := commitValue s st.target (stagedValue st) (Origin.clear st.usage)
      done (setKeys s1 { s1.keys with staging := none, stagingCode := 0 })

def execCommit (m : Master) (s : State) : Out := .next (stagingWrite m (bitsMask 31 2) 1 commitStaging s)

/-- An abort command (R220). -/
def abortByCommand (s : State) : Ack :=
  if s.keys.staging.isSome then done (abortStaging s 11) else refuse errState s

def execAbort (m : Master) (s : State) : Out := .next (stagingWrite m (bitsMask 31 2) 2 abortByCommand s)

/-- A staging 10 ms old is aborted with code 12 (R220). -/
def execStagingTimeout (s : State) : Out :=
  .next (match s.keys.staging with
    | none => s
    | some st =>
      if elapsed s st.since (msCycles 10) then
        raise (bump (abortStaging s 12) 0x380A 3) evStagingTimeout st.target.toNat
      else s)

/-- The word at offset 0x2C (Table 6.3). -/
def stagingStatus (s : State) : W32 :=
  BitVec.ofNat 32 (s.keys.staging.isSome.toNat + s.keys.stagingCode.toNat * 4 + s.keys.stagingSlot.toNat * 2 ^ 16)

/-- A host read of a word of the window: only the status word can be read, by a master that may write the others (R217). -/
def stagingWindowRead (sec : Bool) (priv : BitVec 2) (offset : Nat) (s : State) : State × Except W32 W32 :=
  let au : Auth := .host sec priv
  if !(sec && priv == 3) then (countRefusal au s, .error errMaster)
  else if offset = 0x2C then (s, .ok (stagingStatus s))
  else (countRefusal au s, .error errReadWo)

/-- A word of the window by its offset (Table 6.3). -/
def stagingWindowWrite (m : Master) (offset : Nat) (value : W32) (s : State) : State :=
  if h : offset / 4 < 8 then stagingWrite m 0 value (writeStagingWord ⟨offset / 4, by omega⟩ value) s
  else if offset = 0x20 then stagingWrite m (bitsMask 31 18) value (openStaging value) s
  else if offset = 0x24 then stagingWrite m 0 value (writeStagingWord 8 value) s
  else if offset = 0x28 then
    stagingWrite m (bitsMask 31 2) value
      (if field value 1 0 = 1 then commitStaging else if field value 1 0 = 2 then abortByCommand else refuse errRange) s
  else stagingWrite m 0 value (refuse errWriteRo) s

/-! ### Slot commands (R223, R224) -/

def setSlotCode (s : State) (busy : Bool) (code : BitVec 4) : State :=
  setKeys s { s.keys with slotBusy := busy, slotCode := code }

/-- Op 1: invalidate. -/
def invalidateSlot (k : W16) (s : State) : Ack :=
  if !refInRange k then refuse errState (setSlotCode s false 2)
  else if effState s k ≠ .live then refuse errState (setSlotCode s false 1)
  else done (setSlotCode (setSlot s k { slotOf s k with state := .stale }) false 0)

/-- Op 2: zeroize slot. -/
def zeroizeBySlot (k : W16) (s : State) : Ack :=
  if !refInRange k then refuse errState (setSlotCode s false 2)
  else match (slotOf s k).state with
    | .retired => refuse errState (setSlotCode s false 1)
    | .empty => done (setSlotCode s false 0)
    | _ => done (setSlotCode (zeroizeOne s k) false 0)

/-- Ops 3 to 5: the bank or banks are EMPTY in this cycle, and busy stays until the rows are overwritten. -/
def zeroizeMain (s : State) : Ack := done (setSlotCode (clearDrs (zeroizeBank s false)) true 0)
def zeroizeRetention (s : State) : Ack := done (setSlotCode (zeroizeBank s true) true 0)
def zeroizeBoth (s : State) : Ack := done (setSlotCode (clearDrs (zeroizeBank (zeroizeBank s false) true)) true 0)

/-- A write of 0x3802.01 (R223). -/
def slotCommand (data : Bytes) (s : State) : Ack :=
  let v := valueOf data
  let k : W16 := BitVec.ofNat 16 (v / 2 ^ 16)
  if s.keys.slotBusy then refuse errState s else
  match v % 8 with
  | 1 => invalidateSlot k s
  | 2 => zeroizeBySlot k s
  | 3 => zeroizeMain s
  | 4 => zeroizeRetention s
  | 5 => zeroizeBoth s
  | _ => refuse errRange s

/-- The value of 0x3802.01 for an op on a slot. -/
def slotOpBytes (op : Nat) (k : W16) : Bytes := toBE 4 (k.toNat * 2 ^ 16 + op)

def execInvalidate (m : Master) (key : W16) (s : State) : Out :=
  .next (commandWrite m 0x3802 1 (slotOpBytes 1 key) slotCommand s)
def execZeroizeSlot (m : Master) (key : W16) (s : State) : Out :=
  .next (commandWrite m 0x3802 1 (slotOpBytes 2 key) slotCommand s)
def execZeroizeMainBank (m : Master) (s : State) : Out :=
  .next (commandWrite m 0x3802 1 (slotOpBytes 3 0) slotCommand s)
def execZeroizeRetentionBank (m : Master) (s : State) : Out :=
  .next (commandWrite m 0x3802 1 (slotOpBytes 4 0) slotCommand s)
def execZeroizeBothBanks (m : Master) (s : State) : Out :=
  .next (commandWrite m 0x3802 1 (slotOpBytes 5 0) slotCommand s)

/-- The background overwrite ends and busy clears (R223, R224). -/
def execBankOverwriteDone (s : State) : Out := .next (setSlotCode s false s.keys.slotCode)

/-- Write STALE into one effectively STALE slot that is recorded LIVE. -/
def staleOne (s : State) (e : Nat × KeySlot) : State :=
  let k : W16 := BitVec.ofNat 16 e.1
  if e.2.state = .live ∧ effState s k = .stale then bump (setSlot s k { e.2 with state := .stale }) 0x380A 5 else s

/-- The background walk of R216. -/
def execStaleWalk (s : State) : Out := .next (s.keys.slots.foldl staleOne s)

/-! ### Derivation (R226 to R229) -/

/-- The usage that a software purpose gives (Table 6.6). -/
def purposeUsage (p : W32) : Option Usage :=
  if p = tagDATA then some .data else if p = tagDKEY then some .derive else if p = tagMACK then some .mac else none

def deriveSource (s : State) : Bool := bit (reg s 0x3804 2) 0
def deriveParent (s : State) : W16 := (reg s 0x3804 1).setWidth 16
def deriveFirst (s : State) : W16 := (reg s 0x3804 3).setWidth 16
def deriveCount (s : State) : Nat := regN s 0x3804 7

/-- A slot that a staging or a derivation may take as target (R213, R227). -/
def stageable (s : State) (k : W16) : Bool :=
  refInRange k && (effState s k == .empty || effState s k == .stale) && (slotOf s k).bindings == 0

/-- Every target of a start exists in the target's bank and is stageable. -/
def targetsOk (s : State) (first : W16) (count : Nat) : Bool :=
  decide (field first 13 0 + count ≤ (if refRetention first then 64 else 16384)) &&
    (List.range count).all (fun j => stageable s (first + BitVec.ofNat 16 j))

/-- The first check of R227 that fails, as a code of Table 6.7. -/
def deriveRefusal (s : State) : Option (BitVec 4) :=
  let p := deriveParent s
  if s.keys.batch.isSome then some 10
  else if !keyWritesAllowed s then some 7
  else if !drbgReady s then some 6
  else if deriveSource s && !drsUsable s then some 2
  else if !deriveSource s && !(effState s p == .live && (slotOf s p).usage == .derive) then some 1
  else if (purposeUsage ((reg s 0x3804 4).setWidth 32)).isNone then some 5
  else if !deriveSource s && (slotOf s p).depth == 3 then some 4
  else if !targetsOk s (deriveFirst s) (deriveCount s) then some 3
  else none

/-- A write of 1 to 0x3804.08 (R227). -/
def deriveStart (s : State) : Ack :=
  match deriveRefusal s with
  | some c => refuse errState (setKeys s { s.keys with deriveCode := c })
  | none =>
    let n := deriveCount s
    let b : Batch := { source := deriveSource s, parent := deriveParent s, first := deriveFirst s, count := n, next := 0,
                       purpose := (reg s 0x3804 4).setWidth 32, label := s.keys.label, context := s.keys.context }
    let s1 := (List.range n).foldl (fun s j => stage s (batchTarget b j)) s
    let s2 := setKeys s1 { s1.keys with batch := some b, deriveDone := 0, deriveCode := 0 }
    done (if 2 ≤ n then requestGrant s2 .derivation false else s2)

/-- A write of 0x3804.08: bit [0] starts, 0 does nothing, other values are outside the object's range. -/
def deriveCommand (data : Bytes) (s : State) : Ack :=
  match valueOf data with
  | 0 => done s
  | 1 => deriveStart s
  | _ => refuse errRange s

def execDerivationStart (m : Master) (s : State) : Out := .next (commandWrite m 0x3804 8 [1] deriveCommand s)

/-- The value of target j of a batch (R225, R227). -/
def targetValue (s : State) (b : Batch) (d : KeyVal) : KeyVal :=
  let index : W32 := BitVec.ofNat 32 (beNat (b.context.drop 20) + b.next)
  if b.source then deriveBound s d b.purpose b.label (b.context.take 20) index
  else kdf (slotValue s b.parent) b.purpose b.label (zeros 8) (b.context.take 20) index

/-- What a derived slot records of its origin (R227, R228). -/
def batchOrigin (s : State) (b : Batch) : Origin :=
  let u := (purposeUsage b.purpose).getD .data
  let x := slotOf s b.parent
  if b.source then { usage := u, hasParent := false, fromDrs := true, depth := 0, parent := 0, parentGen := 0 }
  else { usage := u, hasParent := true, fromDrs := false, depth := x.depth + 1, parent := b.parent, parentGen := x.generation }

/-- The next target is computed and committed, or the rest of the batch is returned (R227, R229). -/
def commitTarget (s : State) (b : Batch) (d : KeyVal) : State :=
  if !b.source && !(effState s b.parent == .live) then endBatch s 9 else
  let s1 := bump (commitValue s (batchTarget b b.next) (targetValue s b d) (batchOrigin s b)) 0x380A 4
  let s2 := setKeys s1 { s1.keys with batch := some { b with next := b.next + 1 }, deriveDone := s1.keys.deriveDone + 1 }
  if b.next + 1 = b.count then endBatch s2 0 else s2

def execDerivationTargetCommit (s : State) : Out :=
  .next (match s.keys.batch with
    | none => s
    | some b =>
      if (2 ≤ b.count && !grantHeld s .derivation) || !drbgServes s then s
      else commitTarget s b (s.keys.drs.getD 0))

/-! ### Remasking (R232, R233) -/

/-- A remask period ends: a sweep is asked for, and the fourth period without one raises remask-overdue. -/
def execRemaskPeriodExpiry (s : State) : Out :=
  .next (if drbgReady s && elapsed s s.keys.remaskStart (msCycles (regN s 0x3806 1)) then
    let n := s.keys.remaskMissed + 1
    let late := decide (4 ≤ n) && !s.keys.remaskOverdue
    let s1 := setKeys s { s.keys with remaskStart := s.now, remaskMissed := n, remaskDue := true
                                      remaskOverdue := s.keys.remaskOverdue || late }
    let s2 := requestGrant s1 .remask false
    if late then raise s2 evRemaskOverdue 0 else s2
  else s)

/-- The slots a sweep visits (R232). -/
def sweptSlots (s : State) : List W16 :=
  (s.keys.slots.map (fun e => (BitVec.ofNat 16 e.1 : W16))).filter
    (fun k => !refRetention k && (effState s k == .live || effState s k == .stale))

/-- The mask pool of a sweep: one request of 2,048 masks for each 2,048 slots (R238). -/
def maskPool : Nat → State → Bytes × State
  | 0, s => ([], s)
  | n + 1, s =>
    let r := draw s 65536
    let q := maskPool n r.2
    (r.1 ++ q.1, q.2)

/-- Rewrite rows with the masks of the pool. -/
def remaskRows : List W16 → Bytes → State → State
  | [], _, s => s
  | k :: ks, pool, s =>
    let x := slotOf s k
    let m : KeyVal := BitVec.ofNat 256 (beNat (pool.take 32))
    remaskRows ks (pool.drop 32)
      (setSlot s k { x with masked := slotValue s k ^^^ m, mask := m
                            maskedH256 := slotH256 s k ^^^ m.extractLsb' 128 128
                            maskedH128 := slotH128 s k ^^^ m.extractLsb' 0 128 })

/-- The mask requests of a sweep. -/
def sweepRequests (s : State) : Nat := ceilDiv (sweptSlots s).length 2048

/-- The sweep runs under its grant and ends (R232, R233); it waits while the DRBG would refuse one of its requests (R238). -/
def execRemaskingSweep (s : State) : Out :=
  .next (if s.keys.remaskDue && grantHeld s .remask && drbgReady s && decide (s.keys.drbg.requests + sweepRequests s ≤ 2 ^ 20) then
    let ks := sweptSlots s
    let r := maskPool (sweepRequests s) s
    let s1 := bump (remaskRows ks r.1 r.2) 0x3806 2
    let s2 := releaseGrant s1 .remask
    setKeys s2 { s2.keys with remaskMissed := 0, remaskDue := false, remaskOverdue := false }
  else s)

/-! ### DRBG (R96, R237, R238, R245) -/

def setDrbg (s : State) (d : Drbg) : State := setKeys s { s.keys with drbg := d }

/-- Start collecting samples. -/
def startCollect (s : State) (phase : DrbgPhase) : State :=
  setDrbg s { s.keys.drbg with phase := phase, samples := [], entropyBits := 0, repeated := none, collectStart := s.now,
                               sampleSeen := false, absentRaised := false }

/-- Instantiation after its known-answer tests (R237). -/
def startInstantiation (s : State) (testsPass : Bool) : State :=
  if testsPass then startCollect s .instantiating else raise s evDrbgFault 0

/-- A write of 0x3808.02, with the outcome of the known-answer tests that a write of 1 runs. -/
def drbgCommand (testsPass : Bool) (data : Bytes) (s : State) : Ack :=
  match valueOf data, s.keys.drbg.phase with
  | 1, .uninstantiated => done (startInstantiation s testsPass)
  | 1, _ => refuse errState s
  | 2, .ready => done (startCollect s .reseeding)
  | 2, .reseeding => done s
  | 2, _ => refuse errState s
  | _, _ => refuse errRange s

def execDrbgInstantiate (m : Master) (testsPass : Bool) (s : State) : Out :=
  .next (commandWrite m 0x3808 2 [1] (drbgCommand testsPass) s)
def execDrbgReseed (m : Master) (s : State) : Out := .next (commandWrite m 0x3808 2 [2] (drbgCommand true) s)

/-- The reseed interval ends (R238). -/
def execReseedInterval (s : State) : Out :=
  .next (if s.keys.drbg.phase = .ready && elapsed s s.keys.drbg.reseedStart (secCycles (regN s 0x3808 5)) then
    startCollect s .reseeding else s)

/-- DRBG ready is set: instantiated from the samples, the permutation drawn when it is due (R231, R237), and the remask
periods start (R233). -/
def finishInstantiation (s : State) : State :=
  let pers := wordBytes s.keys.deviceId ++ [s.keys.lifecycle.setWidth 8]
  let d := s.keys.drbg
  let s1 := setDrbg s { d with phase := .ready, gen := drbgInstantiateFrom d.samples pers, requests := 0, samples := []
                               entropyBits := 0, repeated := none, reseedStart := s.now }
  let s2 := setKeys s1 { s1.keys with remaskStart := s.now, remaskMissed := 0, remaskDue := false }
  if s2.keys.permDrawn then s2 else
  let r := draw s2 32
  setKeys r.2 { r.2.keys with permSeed := BitVec.ofNat 256 (beNat r.1), permDrawn := true }

/-- A reseed has its entropy (R238). -/
def finishReseed (s : State) : State :=
  let d := s.keys.drbg
  bump (setDrbg s { d with phase := .ready, gen := drbgReseedFrom d.gen d.samples, requests := 0, samples := []
                           entropyBits := 0, repeated := none, reseedStart := s.now }) 0x380A 7

/-- A sample is collected (R96); the collection ends when its declared min-entropy is enough. -/
def collectSample (s : State) (sample : W32) (need : Nat) (finish : State → State) : State :=
  let d := s.keys.drbg
  let n := match d.repeated with
    | some (v, n) => if v = sample then n + 1 else 1
    | none => 1
  if n ≥ 4 then raise (startCollect s d.phase) evEntropyFault 0 else
  let s1 := setDrbg s { d with samples := d.samples ++ wordBytes sample, entropyBits := d.entropyBits + regN s 0x3808 1
                               repeated := some (sample, n), sampleSeen := true }
  if need ≤ s1.keys.drbg.entropyBits then finish s1 else s1

/-- No sample within 10 ms of the start of collection (R96). -/
def execEntropyAbsent (s : State) : Out :=
  let d := s.keys.drbg
  .next (if (d.phase = .instantiating ∨ d.phase = .reseeding) ∧ !d.sampleSeen ∧ !d.absentRaised ∧
      elapsed s d.collectStart (msCycles 10) then
    raise (setDrbg s { d with absentRaised := true }) evEntropyAbsent 0
  else s)

/-- A read of 0x3808.04: 64 fresh bits, or refused until DRBG ready (R237). -/
def drbgOutput (s : State) : State × Except W32 Bytes :=
  if drbgServes s then
    let r := draw s 8
    (r.2, .ok r.1)
  else (s, .error errState)

def execDrbgOutputRead (m : Master) (s : State) : Out := .next (commandRead m 0x3808 4 drbgOutput s)

/-! ### Objects of the Keys area -/

/-- Writes of 0x3801 to 0x3808. -/
def writeKeysObj (au : Auth) (idx sub : Nat) (data : Bytes) (s : State) : Ack :=
  let k : W16 := BitVec.ofNat 16 (valueOf data)
  match idx with
  | 0x3801 => if keyRefOk k false then putReg (chanIdx au idx) sub data s else refuse errRange s
  | 0x3802 => slotCommand data s
  | 0x3804 =>
    if sub = 8 then deriveCommand data s
    else if s.keys.batch.isSome then refuse errState s
    else match sub with
      | 1 => if keyRefOk k false then putReg idx sub data s else refuse errRange s
      | 3 => if keyRefOk k false then putReg idx sub data s else refuse errRange s
      | 5 => done (setKeys s { s.keys with label := data })
      | 6 => done (setKeys s { s.keys with context := data })
      | 7 => putRange idx sub 1 256 data s
      | _ => putReg idx sub data s
  | 0x3806 => putRange idx sub 100 60000 data s
  | 0x3808 =>
    match sub with
    | 1 => if s.keys.drbg.phase = .uninstantiated ∨ s.keys.drbg.phase = .instantiating then putRange idx sub 1 32 data s
           else refuse errState s
    | 2 => drbgCommand (Config.drbgTestsPass s.now) data s
    | _ => putRange idx sub 1 3600 data s
  | _ => refuse errWriteRo s

def slotStateCode : SlotState → Nat
  | .empty => 0
  | .staged => 1
  | .live => 2
  | .stale => 3
  | .retired => 4

def usageCode : Usage → Nat
  | .data => 0
  | .derive => 1
  | .mac => 2

/-- 0x3801.02 (Table 6.1). -/
def slotWord (s : State) (k : W16) : Nat :=
  let x := slotOf s k
  slotStateCode (effState s k) + usageCode x.usage * 2 ^ 3 + x.txu.toNat * 2 ^ 5 + x.hasParent.toNat * 2 ^ 6 +
    x.fromDrs.toNat * 2 ^ 7 + x.depth.toNat * 2 ^ 8 + (if x.hasParent then x.parent.toNat else 0) * 2 ^ 16 +
    x.generation.toNat * 2 ^ 32 + Nat.min x.bindings 32767 * 2 ^ 48

/-- RETIRED slots of a bank. -/
def retiredSlots (s : State) (retention : Bool) : Nat :=
  (s.keys.slots.filter (fun e => decide (e.1 ≥ 2 ^ 15) == retention && e.2.state == .retired)).length

/-- 0x3800.04. -/
def keyStatus (s : State) : Nat :=
  (drbgReady s).toNat + s.keys.fuseFault.toNat * 2 + s.keys.drs.isSome.toNat * 4 + s.keys.staging.isSome.toNat * 8 +
    s.keys.batch.isSome.toNat * 16 + s.keys.remaskOverdue.toNat * 32

/-- Spare rows of the main bank left (array code 0). -/
def mainSparesLeft (s : State) : Nat := 32 - spGet natZero s.faults.sparesUsed 0

/-- Reads of the Keys area, but for 0x3808.04. -/
def readKeysObj (au : Auth) (idx sub : Nat) (s : State) : Except W32 Bytes :=
  match idx with
  | 0x3800 =>
    match sub with
    | 1 => numRead 1 s.keys.lifecycle.toNat
    | 2 => numRead 8 s.keys.deviceId.toNat
    | 3 => numRead 1 s.keys.antiRollback
    | 4 => numRead 4 (keyStatus s)
    | 5 => numRead 2 (16384 - retiredSlots s false)
    | 6 => numRead 1 (64 - retiredSlots s true)
    | _ => numRead 1 (mainSparesLeft s)
  | 0x3801 =>
    if sub = 1 then regRead s (chanIdx au idx) 1 2 else numRead 8 (slotWord s ((reg s (chanIdx au idx) 1).setWidth 16))
  | 0x3802 => numRead 4 (s.keys.slotBusy.toNat + s.keys.slotCode.toNat * 2)
  | 0x3804 =>
    match sub with
    | 5 => .ok s.keys.label
    | 6 => .ok s.keys.context
    | 9 => numRead 4 (s.keys.batch.isSome.toNat + s.keys.deriveCode.toNat * 2 + s.keys.deriveDone * 2 ^ 16)
    | 2 => regRead s idx sub 1
    | 4 => regRead s idx sub 4
    | _ => regRead s idx sub 2
  | 0x3806 => if sub = 1 then regRead s idx sub 4 else ctrRead s idx sub 8
  | 0x3808 => if sub = 1 then regRead s idx sub 1 else regRead s idx sub 2
  | _ => ctrRead s idx sub 8

/-! ### Resets and power (Table 6.13, R244, R245) -/

/-- Loss of PD_STORE content: main slots EMPTY at generation 0, staging and derivation aborted, the permutation redrawn
at the next instantiation. -/
def keysLoseStore (s : State) : State :=
  let s1 := endBatch (abortStaging s 13) 13
  setKeys s1 { s1.keys with slots := s1.keys.slots.filter (fun e => decide (e.1 ≥ 2 ^ 15)), before := none, permDrawn := false }

/-- Warm reset or loss of PD_CTL power: staging and derivation aborted with code 13, the DRBG uninstantiated until it is
instantiated again, the Device Root Secret register empty until the fuse load, a sweep request dropped. -/
def keysRestart (s : State) : State :=
  let s1 := clearDrs (endBatch (abortStaging s 13) 13)
  setKeys s1 { s1.keys with slotBusy := false, drbg := Drbg.default, remaskDue := false, remaskMissed := 0 }

end Sys2Proof.Machine
end

