-- ==== Sys2Proof/Machine/Memory.lean ====
section
/-! DEFINITION. The Memory Guard: decoding, counters, tags, the counter tree and its cache, and the requests of mq_ and mc_
(08_memory_guard.md, R78 to R83, R262 to R292). An operation is evaluated over the lines it has gathered; where a line is
missing it asks mc_ for it and is evaluated again when the answer comes. -/

namespace Sys2Proof.Machine

/-! ### Region records (R262, R276, R277) -/

/-- A region's record, addresses in lines of 64 bytes. -/
structure RegionCfg where
  region : Region
  mode : Nat
  chan : Nat
  enable : Bool
  base : Nat
  /-- Data lines. -/
  lines : Nat
  tagBase : Nat
  ctrBase : Nat
  key : W16
  nextKey : W16
  deriving DecidableEq, Repr

def regionIdx (r : Region) : Nat := 0x3C01 + r.val

def regionCfg (s : State) (r : Region) : RegionCfg :=
  let c := reg s (regionIdx r) 1
  { region := r, mode := field c 1 0, chan := field c 4 4, enable := bit c 8, base := regN s (regionIdx r) 2 / 64
    lines := regN s (regionIdx r) 3 / 64, tagBase := regN s (regionIdx r) 4 / 64, ctrBase := regN s (regionIdx r) 5 / 64
    key := (reg s (regionIdx r) 6).setWidth 16, nextKey := (reg s (regionIdx r) 7).setWidth 16 }

/-- Objects .01 to .07 of a region. -/
def regionRecord (s : State) (r : Region) : List W64 := (List.range 7).map (fun i => reg s (regionIdx r) (i + 1))

def setRecord (s : State) (r : Region) (vs : List W64) : State :=
  (List.range 7).foldl (fun s i => setReg s (regionIdx r) (i + 1) (vs.getD i 0)) s

/-- The same record as kept for requests that outlive a disable (R265). -/
def recordCfg (r : Region) (vs : List W64) : RegionCfg :=
  let v (i : Nat) : W64 := vs.getD i 0
  { region := r, mode := field (v 0) 1 0, chan := field (v 0) 4 4, enable := bit (v 0) 8, base := (v 1).toNat / 64
    lines := (v 2).toNat / 64, tagBase := (v 3).toNat / 64, ctrBase := (v 4).toNat / 64
    key := (v 5).setWidth 16, nextKey := (v 6).setWidth 16 }

/-- The record that an operation goes by. -/
def opCfg (s : State) (op : MemOp) (r : Region) : RegionCfg :=
  match op.old.bind (spFind (regionDyn s r).old) with
  | some o => recordCfg r o.record
  | none => regionCfg s r

/-- N_ℓ for a range of data lines; N_0 is the number of lines. -/
def nodesAt (lines : Nat) : Nat → Nat
  | 0 => lines
  | n + 1 => ceilDiv (nodesAt lines n) 64

/-- L: the smallest ℓ with lines ≤ 64 · 64^ℓ (R276). Sizes reach 64 GiB, so 4 levels are the most. -/
def levelsOf (lines : Nat) : Nat :=
  if lines ≤ 64 ^ 2 then 1 else if lines ≤ 64 ^ 3 then 2 else if lines ≤ 64 ^ 4 then 3 else 4

/-- O_ℓ in lines (R277). -/
def levelOffset (lines : Nat) : Nat → Nat
  | 0 => 0
  | 1 => 0
  | n + 1 => levelOffset lines n + nodesAt lines n + ceilDiv (nodesAt lines n) 8

/-- The counter area in lines (R277). -/
def ctrLines (lines : Nat) : Nat := levelOffset lines (levelsOf lines + 1)

def nodeAddr (c : RegionCfg) (level j : Nat) : Nat := c.ctrBase + levelOffset c.lines level + j
def nodeTagAddr (c : RegionCfg) (level j : Nat) : Nat := c.ctrBase + levelOffset c.lines level + nodesAt c.lines level + j / 8
def dataTagAddr (c : RegionCfg) (i : Nat) : Nat := c.tagBase + i / 8

/-! ### Lines (R274, R275) -/

abbrev Line := BitVec 512

def lineOf (bs : Bytes) : Line := BitVec.ofNat 512 (beNat (fitTo 64 bs))
def nodeMajor (d : Line) : W64 := d.extractLsb' 448 64
def nodeMinor (d : Line) (k : Nat) : BitVec 7 := d.extractLsb' (441 - 7 * k) 7
/-- Replace bits [lo + n - 1 : lo] of a line. -/
def putField (d : Line) (lo n v : Nat) : Line :=
  (d &&& ~~~(BitVec.ofNat 512 ((2 ^ n - 1) * 2 ^ lo))) ||| BitVec.ofNat 512 (v % 2 ^ n * 2 ^ lo)
def setMinor (d : Line) (k : Nat) (v : BitVec 7) : Line := putField d (441 - 7 * k) 7 v.toNat
/-- A node (M, 0 … 0). -/
def freshNode (m : W64) : Line := BitVec.ofNat 512 (m.toNat * 2 ^ 448)
def tagAt (d : Line) (t : Nat) : W64 := d.extractLsb' (448 - 64 * t) 64
def setTag (d : Line) (t : Nat) (v : W64) : Line := putField d (448 - 64 * t) 64 v.toNat

/-- Block j of a line. -/
def lineBlock (d : Line) (j : Nat) : Block := d.extractLsb' (384 - 128 * j) 128
def lineBlocks (d : Line) : List Block := [lineBlock d 0, lineBlock d 1, lineBlock d 2, lineBlock d 3]
def joinBlocks (a b c d : Block) : Line := a ++ b ++ c ++ d

/-! ### Cipher inputs and tags (R278, R279) -/

/-- Table 8.7. -/
def ctrBlock (m : W64) (minor : BitVec 7) (type block : BitVec 2) (addr : Nat) : Block :=
  m ++ minor ++ type ++ block ++ BitVec.ofNat 34 addr ++ (0 : BitVec 19)

/-- The keystream of a data line. -/
def lineStream (k : KeyVal) (m : W64) (minor : BitVec 7) (a : Nat) : Line :=
  let e (j : BitVec 2) := aes256 k (ctrBlock m minor 0 j a)
  joinBlocks (e 0) (e 1) (e 2) (e 3)

/-- [GHASH_H(blocks) ⊕ AES(K, type)][127:64]. -/
def lineTag (k : KeyVal) (m : W64) (minor : BitVec 7) (type : BitVec 2) (a : Nat) (d : Line) : W64 :=
  (ghash (aes256 k 0) (lineBlocks d) ^^^ aes256 k (ctrBlock m minor type 0 a)).extractLsb' 64 64

def dataTag (k : KeyVal) (m : W64) (minor : BitVec 7) (a : Nat) (c : Line) : W64 := lineTag k m minor 1 a c
def nodeTag (k : KeyVal) (m : W64) (minor : BitVec 7) (a : Nat) (d : Line) : W64 := lineTag k m minor 2 a d

/-! ### Keys of lines and nodes (R272, R294) -/

/-- The key that serves data line i of a region. -/
def lineKey (s : State) (c : RegionCfg) (i : Nat) : W16 :=
  let d := regionDyn s c.region
  if d.nextBound && decide (i * 64 < d.rekeyAt) then d.nextRef else c.key

/-- Data line i stands under the next_key of a sweep that stopped (R295). -/
def lineDead (s : State) (c : RegionCfg) (i : Nat) : Bool :=
  let d := regionDyn s c.region
  decide (i * 64 < d.deadBelow) && !(d.nextBound && decide (i * 64 < d.rekeyAt))

/-- The first data line past the span of a node. -/
def spanEnd (c : RegionCfg) (level j : Nat) : Nat := Nat.min ((j + 1) * 64 ^ level) c.lines

/-- The key under which a node's tag stands: next_key once its whole span lies below P. -/
def nodeKey (s : State) (c : RegionCfg) (level j : Nat) : W16 :=
  let d := regionDyn s c.region
  if d.nextBound && decide (spanEnd c level j * 64 ≤ d.rekeyAt) then d.nextRef else c.key

def nodeDead (s : State) (c : RegionCfg) (level j : Nat) : Bool :=
  let d := regionDyn s c.region
  decide (spanEnd c level j * 64 ≤ d.deadBelow) && !(d.nextBound && decide (spanEnd c level j * 64 ≤ d.rekeyAt))

/-! ### Poison (R289) -/

/-- The entry covers data line i. -/
def covers (p : PoisonEntry) (r : Region) (i : Nat) : Bool := p.region == r && i / 64 ^ p.level == p.node

/-- The line lies in a subtree that a reseed rewrites, from its step 2 on (R290). -/
def underReseed (s : State) (r : Region) (i : Nat) : Bool :=
  match (regionDyn s r).run with
  | some run =>
    match run.kind with
    | .reseed level node => decide (1 ≤ run.item) && i / 64 ^ level == node
    | _ => false
  | none => false

/-- A request to data line i is answered as poisoned (R281, R289, R290). -/
def poisonedLine (s : State) (r : Region) (i : Nat) : Bool :=
  (regionDyn s r).poisoned || s.mem.poison.any (fun e => covers e.2 r i) || underReseed s r i

/-- A subtree already inside a listed one needs no entry of its own. -/
def poisonListed (s : State) (p : PoisonEntry) : Bool :=
  s.mem.poison.any (fun e => e.2.region == p.region && decide (p.level ≤ e.2.level) && p.node / 64 ^ (e.2.level - p.level) == e.2.node)

/-- Poison a subtree (R289). -/
def addPoison (s : State) (p : PoisonEntry) : State :=
  if (regionDyn s p.region).poisoned || poisonListed s p then s else
  let s1 := raiseCause s (evRegion p.region.val) 1 p.region.val
  match (List.range 256).find? (fun n => (spFind s.mem.poison n).isNone) with
  | some n => { s1 with mem := { s1.mem with poison := spPut s1.mem.poison n p } }
  | none => setRegionDyn s1 p.region { regionDyn s1 p.region with poisoned := true }

/-- Poison a whole region (R289). -/
def poisonRegion (s : State) (r : Region) : State :=
  if (regionDyn s r).poisoned then s
  else setRegionDyn (raiseCause s (evRegion r.val) 1 r.val) r { regionDyn s r with poisoned := true }

/-! ### The counter cache (R286) -/

def cacheSet (a : Nat) : Nat := Nat.xor (a % 2048) (a / 2048 % 2048)

/-- The places of a line address. -/
def cachePlaces (a : Nat) : List Nat := (List.range 16).map (fun w => cacheSet a * 16 + w)

def cachePlace (s : State) (a : Nat) : Option Nat :=
  (cachePlaces a).find? (fun n => match spFind s.mem.cache n with
    | some l => l.addr == a
    | none => false)

def cached (s : State) (a : Nat) : Option CacheLine :=
  match cachePlace s a with
  | some n => spFind s.mem.cache n
  | none => none

def setCache (s : State) (n : Nat) (l : CacheLine) : State := { s with mem := { s.mem with cache := spPut s.mem.cache n l } }

def plruZero (_ : Nat) : BitVec 15 := 0

/-- Point the tree bits on the path to a way away from it. -/
def plruTouch (bits : BitVec 15) (way : Nat) : BitVec 15 :=
  let n0 := 0
  let b0 := way / 8 % 2
  let n1 := 1 + b0
  let b1 := way / 4 % 2
  let n2 := 2 * n1 + 1 + b1
  let b2 := way / 2 % 2
  let n3 := 2 * n2 + 1 + b2
  setBit (setBit (setBit (setBit bits n0 (b0 == 0)) n1 (b1 == 0)) n2 (b2 == 0)) n3 (way % 2 == 0)

/-- Follow the tree to a way that may be chosen. -/
def plruFind (ok : Nat → Bool) (bits : BitVec 15) : Nat → Nat → Option Nat
  | 0, i => if ok (i - 15) then some (i - 15) else none
  | n + 1, i =>
    let right := bits.getLsbD i
    let a := if right then 2 * i + 2 else 2 * i + 1
    let b := if right then 2 * i + 1 else 2 * i + 2
    (plruFind ok bits n a).orElse (fun _ => plruFind ok bits n b)

/-- Record a use of a place. -/
def touchPlace (s : State) (n : Nat) : State :=
  { s with mem := { s.mem with plru := spSet plruZero s.mem.plru (n / 16) (plruTouch (spGet plruZero s.mem.plru (n / 16)) (n % 16)) } }

/-! ### Operations of a channel -/

def newOp (work : MemWork) (addr : Nat) (id : BitVec 12) (r : Option Region) : MemOp :=
  { seq := 0, work := work, addr := addr, id := id, region := r, got := [], once := [], failed := [], done := [], cipher := none,
    children := [], cause := .none, stalled := false, old := none }

/-- Queue an operation behind the others. -/
def appendOp (s : State) (k : Chan) (op : MemOp) : State :=
  let c := memChan s k
  setMemChan s k { c with ops := c.ops ++ [{ op with seq := c.nextSeq }], nextSeq := c.nextSeq + 1 }

def putOp (s : State) (k : Chan) (op : MemOp) : State :=
  let c := memChan s k
  setMemChan s k { c with ops := c.ops.map (fun o => if o.seq = op.seq then op else o) }

def dropOp (s : State) (k : Chan) (seq : Nat) : State :=
  let c := memChan s k
  setMemChan s k { c with ops := c.ops.filter (fun o => o.seq != seq), noted := c.noted.filter (fun e => e.1 != seq) }

/-- The channel that serves a region. -/
def chanOf (c : RegionCfg) : Chan := if c.chan = 0 then 0 else 1

/-- The cached lines of a region belong to the full-protection record that its outstanding requests go by (R265). -/
def cacheOwner (s : State) (r : Region) : Option Nat :=
  ((regionDyn s r).old.find? (fun e => (recordCfg r e.2.record).mode == 3)).map Prod.fst

/-- The record that a cached line belongs to. -/
def lineCfg (s : State) (l : CacheLine) : RegionCfg :=
  match (cacheOwner s l.region).bind (spFind (regionDyn s l.region).old) with
  | some o => recordCfg l.region o.record
  | none => regionCfg s l.region

/-- A cached line lies on the path of data line i: its tag line, its nodes and their tag lines. -/
def onPath (i : Nat) : LineKind → Bool
  | .node level j => j == i / 64 ^ level
  | .nodeTags level q => q == i / 64 ^ level / 8
  | .dataTags q => q == i / 8

/-- The cached line is a child of a node, or holds the tags of its children. -/
def childLine (level node : Nat) : LineKind → Bool
  | .node l j => l + 1 == level && j / 64 == node
  | .nodeTags l q => l + 1 == level && q / 8 == node
  | .dataTags q => level == 1 && q / 8 == node

/-- What stays in the cache: the node a renormalisation works on with its children and their tags, the path of the line a
rekey has in work, and a line whose write-back is not yet answered. -/
def pinned (s : State) (l : CacheLine) : Bool :=
  (memChan s 0).ops.any hold || (memChan s 1).ops.any hold
where
  hold (o : MemOp) : Bool :=
    match o.work, o.region with
    | .renorm level node, some r => r == l.region && (l.kind == .node level node || childLine level node l.kind)
    | .evict _, some r => r == l.region && o.cipher.isSome && o.addr == l.addr
    | .sweepLine, some r => r == l.region && o.cipher.isSome && (match (regionDyn s r).run with
      | some run => run.kind == .rekey && onPath run.item l.kind
      | none => false)
    | _, _ => false

def isEvict (op : MemOp) : Bool :=
  match op.work with
  | .evict _ => true
  | _ => false

/-- The granted work under which an operation's own work runs (R284, R430). -/
def ledBy (op : MemOp) : OpCause :=
  match op.work with
  | .renorm _ _ => .renorm
  | .sweepLine => .sweep
  | _ => op.cause

/-- Write-back of a dirty line is asked for once; one that granted work waits for becomes part of that work. -/
def startEviction (s : State) (n : Nat) (cause : OpCause) : State :=
  match spFind s.mem.cache n with
  | none => s
  | some l =>
    let k := chanOf (lineCfg s l)
    let c := memChan s k
    if !l.dirty then s
    else if c.ops.any (fun o => isEvict o && o.addr == l.addr) then
      setMemChan s k { c with ops := c.ops.map (fun o =>
        if isEvict o && o.addr == l.addr && o.cause == .none then { o with cause := cause } else o) }
    else appendOp s k { newOp (.evict l.kind) l.addr 0 (some l.region) with cause := cause, old := cacheOwner s l.region }

/-- The write-back of a line waits for a renormalisation; a renormalisation may take over a write-back outside any grant. -/
def stalledBack (s : State) (cause : OpCause) (l : CacheLine) : Bool :=
  (memChan s (chanOf (lineCfg s l))).ops.any (fun o => isEvict o && o.stalled && o.addr == l.addr &&
    !(o.cause == .none && cause == .renorm))

/-! ### Evaluation -/

/-- Why an evaluation stops before its end. -/
inductive Halt where
  /-- Lines are missing. -/
  | need (as : List Nat)
  /-- A tag mismatched on the first attempt: the lines are read again. -/
  | retry (as : List Nat)
  /-- A node fetch failed for good (R288). -/
  | poisoned (level node : Nat)
  /-- A line failed for good, or the request is refused, with this status. -/
  | status (st : Nat)
  /-- Another operation must end first. -/
  | wait
  /-- A minor counter stands at 127 (R283). -/
  | renorm (level node : Nat)
  /-- A major counter is exhausted (R285). -/
  | locked
  deriving DecidableEq, Repr

/-- An evaluation: the state it leaves, and its value or why it stopped. -/
abbrev Ev (α : Type) := ExceptT Halt (StateM State) α

def evGet : Ev State := get
def evSet (s : State) : Ev Unit := set s
def evMod (g : State → State) : Ev Unit := modify g

/-- mq_rsp_status of a lasting mc_ status (Table 8.5). -/
def lastingStatus (st : BitVec 2) : Nat := if st = 1 then 1 else 7

/-- A line the operation has read from mc_. -/
def gathered (op : MemOp) (a : Nat) : Ev Line :=
  match spFind op.failed a, spFind op.got a with
  | some st, _ => throw (.status (lastingStatus st))
  | none, some d => pure d
  | none, none => throw (.need [a])

/-- The stored bytes of a line, also when its last answer was not good (R283, R294). -/
def stored (op : MemOp) (a : Nat) : Ev Line :=
  match spFind op.got a with
  | some d => pure d
  | none => throw (.need [a])

/-- None where a line has failed for good or a key may not be used. -/
def optional {α : Type} (x : Ev α) : Ev (Option α) :=
  tryCatch (do
    let v ← x
    pure (some v)) (fun h => match h with
    | .status _ => pure none
    | _ => throw h)

/-- Enter a line into the cache: its own place, a free way, a clean way by pseudo-LRU; with none, a dirty way whose
write-back is not held up is written back first (R286, R287). -/
def fillLine (cause : OpCause) (l : CacheLine) : Ev Unit := do
  let s ← evGet
  let base := cacheSet l.addr * 16
  let usable (w : Nat) : Bool := !retiredUnit s 6 (base + w)
  let at0 (w : Nat) : Option CacheLine := spFind s.mem.cache (base + w)
  let bits := spGet plruZero s.mem.plru (cacheSet l.addr)
  match cachePlace s l.addr with
  | some n => evSet (touchPlace (setCache s n l) n)
  | none =>
    match (List.range 16).find? (fun w => usable w && (at0 w).isNone) with
    | some w => evSet (touchPlace (setCache s (base + w) l) (base + w))
    | none =>
      let clean (w : Nat) : Bool := usable w && (match at0 w with
        | some o => !o.dirty && !pinned s o
        | none => false)
      match plruFind clean bits 4 0 with
      | some w => evSet (touchPlace (setCache s (base + w) l) (base + w))
      | none =>
        let dirty (w : Nat) : Bool := usable w && (match at0 w with
          | some o => o.dirty && !pinned s o && !stalledBack s cause o
          | none => false)
        match plruFind dirty bits 4 0 with
        | some w => do
          evSet (startEviction s (base + w) cause)
          throw .wait
        | none => throw .wait

/-- Note a fault of an access of an operation, once. -/
def noteFault (c : RegionCfg) (op : MemOp) (key : Nat) (g : State → State) : Ev Unit :=
  evMod (fun s =>
    let x := memChan s (chanOf c)
    if x.noted.contains (op.seq, key) then s else g (setMemChan s (chanOf c) { x with noted := x.noted ++ [(op.seq, key)] }))

/-- Count the transient fault of an access that needed its second attempt (R271). -/
def notedOnce (c : RegionCfg) (op : MemOp) (a : Nat) : Ev Unit :=
  if op.once.contains a then noteFault c op a (fun s => bump s (0x3C11 + c.region.val) 5) else pure ()

/-- Count and raise an integrity failure of a line that an operation rewrites (R283, R294). -/
def integrityFault (c : RegionCfg) (op : MemOp) (a : Nat) : Ev Unit :=
  noteFault c op (a + 2 ^ 35) (fun s => raiseCause (bump s (0x3C11 + c.region.val) 3) (evRegion c.region.val) 0 c.region.val)

/-- A tag line: from the cache, or read and entered (R286). -/
def tagLine (c : RegionCfg) (op : MemOp) (a : Nat) (kind : LineKind) : Ev Line := do
  let s ← evGet
  match cached s a with
  | some l => pure l.data
  | none => do
    let d ← gathered op a
    notedOnce c op a
    fillLine (ledBy op) { addr := a, region := c.region, kind := kind, dirty := false, data := d }
    pure d

/-- A halt inside a node fetch poisons the node when it is a lasting status. -/
def asPoison (level j : Nat) (x : Ev Line) : Ev Line :=
  tryCatch x (fun h => match h with
    | .status _ => throw (.poisoned level j)
    | _ => throw h)

/-- The key value that a reference names, when it may be used; otherwise status 6 (R272). -/
def liveKey (k : W16) : Ev KeyVal := do
  let s ← evGet
  if keyUsable s k then pure (slotValue s k) else throw (.status 6)

/-- The key value of a data line, or of a node's tag. -/
def lineLive (c : RegionCfg) (i : Nat) : Ev KeyVal := do
  let s ← evGet
  if lineDead s c i then throw (.status 6) else liveKey (lineKey s c i)

def nodeLive (c : RegionCfg) (level j : Nat) : Ev KeyVal := do
  let s ← evGet
  if nodeDead s c level j then throw (.status 6) else liveKey (nodeKey s c level j)

/-- A node at a level: the root, from the cache, or fetched and verified against its governing entry (R281, R286, R288).
`fuel` counts the levels above it. -/
def fetchNode (c : RegionCfg) (op : MemOp) : Nat → Nat → Nat → Ev Line
  | 0, _, _ => do
    let s ← evGet
    pure (regionDyn s c.region).root
  | fuel + 1, level, j => do
    let s ← evGet
    let a := nodeAddr c level j
    match cached s a, cachePlace s a with
    | some l, some n => do
      evSet (touchPlace s n)
      pure l.data
    | _, _ => do
      let p ← fetchNode c op fuel (level + 1) (j / 64)
      let ta := nodeTagAddr c level j
      let tl ← asPoison level j (tagLine c op ta (.nodeTags level (j / 8)))
      let d ← asPoison level j (gathered op a)
      let k ← nodeLive c level j
      if nodeTag k (nodeMajor p) (nodeMinor p (j % 64)) a d = tagAt tl (j % 8) then do
        notedOnce c op a
        fillLine (ledBy op) { addr := a, region := c.region, kind := .node level j, dirty := false, data := d }
        pure d
      else if op.once.contains a then throw (.poisoned level j)
      else throw (.retry [a, ta])

/-- A node of a region, the root at level L + 1. -/
def nodeOf (c : RegionCfg) (op : MemOp) (level j : Nat) : Ev Line :=
  fetchNode c op (levelsOf c.lines + 1 - level) level j

/-- Store a node: in the root, or dirty in the cache. -/
def storeNode (c : RegionCfg) (cause : OpCause) (level j : Nat) (d : Line) : Ev Unit :=
  if levelsOf c.lines < level then
    evMod (fun s => setRegionDyn s c.region { regionDyn s c.region with root := d })
  else fillLine cause { addr := nodeAddr c level j, region := c.region, kind := .node level j, dirty := true, data := d }

/-- The next minor of entry k of a node; at 127 a renormalisation comes first, unless the major counter is spent (R283,
R285). -/
def nextMinor (level j : Nat) (d : Line) (k : Nat) : Ev (BitVec 7) :=
  if nodeMinor d k = 127 then
    (if nodeMajor d = BitVec.allOnes 64 then throw .locked else throw (.renorm level j))
  else pure (nodeMinor d k + 1)

/-- A line is read in parallel with what x still needs (R281). -/
def beside (op : MemOp) (a : Nat) (x : Ev Line) : Ev Line :=
  tryCatch x (fun h => match h with
    | .need as => throw (.need (if (spFind op.got a).isSome || (spFind op.failed a).isSome then as else as ++ [a]))
    | _ => throw h)

/-- Data line i in the clear: full protection (R281). -/
def readProtected (c : RegionCfg) (op : MemOp) (i : Nat) : Ev Line := do
  let k ← lineLive c i
  let a := c.base + i
  let n1 ← beside op a (nodeOf c op 1 (i / 64))
  let ct ← gathered op a
  let tl ← tagLine c op (dataTagAddr c i) (.dataTags (i / 8))
  let m := nodeMajor n1
  let e := nodeMinor n1 (i % 64)
  if dataTag k m e a ct = tagAt tl (i % 8) then do
    notedOnce c op a
    pure (ct ^^^ lineStream k m e a)
  else if op.once.contains a then do
    evMod (fun s => raiseCause (bump s (0x3C11 + c.region.val) 3) (evRegion c.region.val) 0 c.region.val)
    throw (.status 2)
  else throw (.retry [a, dataTagAddr c i])

/-- Data line i in the clear: encrypt-only (R291). -/
def readEncrypted (c : RegionCfg) (op : MemOp) (i : Nat) : Ev Line := do
  let k ← lineLive c i
  let ct ← gathered op (c.base + i)
  notedOnce c op (c.base + i)
  pure (lineOf (xtsDecrypt k (c.base + i) (wordBytes ct)))

/-- The bytes a write enables, over the old line (R270). -/
def mergeLine (old new : Line) (mask : W64) : Line :=
  let sel := BitVec.ofNat 512 ((List.range 64).foldl (fun a i => if mask.getLsbD i then a + 255 * 2 ^ (8 * i) else a) 0)
  (new &&& sel) ||| (old &&& ~~~sel)

/-- What an evaluation ends with. -/
inductive OpEnd where
  /-- The operation goes on with this record. -/
  | keep (op : MemOp)
  /-- The request is answered. -/
  | answer (st : Nat) (d : Line)
  /-- The operation ends without an answer. -/
  | quit
  deriving DecidableEq, Repr

/-- Place the tag of data line i in its cached tag line. -/
def placeDataTag (c : RegionCfg) (op : MemOp) (i : Nat) (t : W64) : Ev Unit := do
  let tl ← tagLine c op (dataTagAddr c i) (.dataTags (i / 8))
  fillLine (ledBy op) { addr := dataTagAddr c i, region := c.region, kind := .dataTags (i / 8), dirty := true, data := setTag tl (i % 8) t }

/-- Place the tag of a node in its cached node-tag line. -/
def placeNodeTag (c : RegionCfg) (op : MemOp) (level j : Nat) (t : W64) : Ev Unit := do
  let ta := nodeTagAddr c level j
  let tl ← tagLine c op ta (.nodeTags level (j / 8))
  fillLine (ledBy op) { addr := ta, region := c.region, kind := .nodeTags level (j / 8), dirty := true, data := setTag tl (j % 8) t }

/-- The answer of a write whose line has gone to mc_ (R282). -/
def writeAnswer (op : MemOp) (a : Nat) : Ev OpEnd :=
  match spFind op.failed (a + 2 ^ 34) with
  | some st => pure (.answer (lastingStatus st) 0)
  | none => pure (if op.done.contains a then .answer 0 0 else .keep op)

/-- The plaintext that a write leaves in the line. -/
def writePlain (full : Bool) (old : Ev Line) (d : Line) (mask : W64) : Ev Line := do
  if full then pure d
  else do
    let p ← old
    pure (mergeLine p d mask)

/-- A write to a full-protection region (R282). -/
def writeProtected (c : RegionCfg) (op : MemOp) (i : Nat) (d : Line) (mask : W64) : Ev OpEnd := do
  match op.cipher with
  | some _ => writeAnswer op (c.base + i)
  | none => do
    let s ← evGet
    if (regionDyn s c.region).state = .writeLocked then throw (.status 5)
    else if poisonedLine s c.region i then throw (.status 3)
    else do
      let k ← lineLive c i
      let p ← writePlain (mask = BitVec.allOnes 64) (readProtected c op i) d mask
      let n1 ← nodeOf c op 1 (i / 64)
      let e ← nextMinor 1 (i / 64) n1 (i % 64)
      let a := c.base + i
      let ct := p ^^^ lineStream k (nodeMajor n1) e a
      placeDataTag c op i (dataTag k (nodeMajor n1) e a ct)
      storeNode c (ledBy op) 1 (i / 64) (setMinor n1 (i % 64) e)
      pure (.keep { op with cipher := some ct, children := [(a, ct)] })

/-- A write to an encrypt-only region (R291). -/
def writeEncrypted (c : RegionCfg) (op : MemOp) (i : Nat) (d : Line) (mask : W64) : Ev OpEnd := do
  match op.cipher with
  | some _ => writeAnswer op (c.base + i)
  | none => do
    let k ← lineLive c i
    let p ← writePlain (mask = BitVec.allOnes 64) (readEncrypted c op i) d mask
    let a := c.base + i
    let ct := lineOf (xtsEncrypt k a (wordBytes p))
    pure (.keep { op with cipher := some ct, children := [(a, ct)] })

/-- A read of a line in a region (R281, R291). -/
def readRegion (c : RegionCfg) (op : MemOp) (i : Nat) : Ev OpEnd := do
  let s ← evGet
  if c.mode = 3 then
    if poisonedLine s c.region i then throw (.status 3)
    else do
      let p ← readProtected c op i
      pure (.answer 0 p)
  else do
    let p ← readEncrypted c op i
    pure (.answer 0 p)

/-- A transient fault of a line that is passed through: the region's counter in mode 1, else the channel's (R271). -/
def countPlain (k : Chan) (op : MemOp) (key : Nat) : Ev Unit :=
  if op.once.contains key then
    match op.region with
    | some r => evMod (fun s => bump s (0x3C11 + r.val) 5)
    | none => evMod (fun s => bump s 0x3C00 (3 + k.val))
  else pure ()

/-- A request in bypass (R270, R292). -/
def bypass (k : Chan) (op : MemOp) : Ev OpEnd := do
  match op.work with
  | .write d _ =>
    match op.cipher with
    | none => pure (.keep { op with cipher := some d, children := [(op.addr, d)] })
    | some _ => writeAnswer op op.addr
  | _ => do
    let d ← gathered op op.addr
    countPlain k op op.addr
    pure (.answer 0 d)

/-! ### Write-back (R287, R288) -/

/-- The subtree poisoned when a metadata line cannot be written back. -/
def lineSubtree (r : Region) : LineKind → PoisonEntry
  | .node level j => ⟨r, level, j⟩
  | .nodeTags level q => ⟨r, level + 1, q / 8⟩
  | .dataTags q => ⟨r, 1, q / 8⟩

/-- The write-back leaves: the cached line is clean, and the line is written. -/
def issueBack (op : MemOp) (l : CacheLine) : Ev OpEnd := do
  fillLine (ledBy op) { l with dirty := false }
  pure (.keep { op with cipher := some l.data, children := [(l.addr, l.data)], stalled := false })

/-- Eviction of a dirty line; a lasting failure of its write poisons what it counts or tags (R288). -/
def evict (c : RegionCfg) (op : MemOp) (kind : LineKind) : Ev OpEnd := do
  let s ← evGet
  match op.cipher, cached s op.addr with
  | some _, _ =>
    if (spFind op.failed (op.addr + 2 ^ 34)).isSome then do
      evSet (addPoison s (lineSubtree c.region kind))
      pure .quit
    else pure (if op.done.contains op.addr then .quit else .keep op)
  | none, none => pure .quit
  | none, some l =>
    if !l.dirty then pure .quit else
    match l.kind with
    | .node level j => do
      let p ← nodeOf c op (level + 1) (j / 64)
      let e ← nextMinor (level + 1) (j / 64) p (j % 64)
      let k ← nodeLive c level j
      placeNodeTag c op level j (nodeTag k (nodeMajor p) e l.addr l.data)
      storeNode c (ledBy op) (level + 1) (j / 64) (setMinor p (j % 64) e)
      issueBack op l
    | _ => issueBack op l

/-! ### Renormalisation (R283) -/

/-- Children of a node that exist. -/
def childCount (c : RegionCfg) (level j : Nat) : Nat := Nat.min 64 (nodesAt c.lines (level - 1) - 64 * j)

/-- The tag of one child under the new entry, and the line it writes; none when the child cannot be read. -/
structure ChildOut where
  tag : Option W64
  line : Option Line
  deriving DecidableEq, Repr

/-- A data line under (M + 1, 0): verified plaintext re-encrypted, or its stored bytes under a new tag. A line whose key
is lost is left. -/
def renormLine (c : RegionCfg) (op : MemOp) (old : Line) (i : Nat) : Ev ChildOut := do
  let a := c.base + i
  if op.addr = a then pure ⟨none, none⟩
  else do
    let key ← optional (lineLive c i)
    match key with
    | none => pure ⟨none, none⟩
    | some k => do
      let ct ← stored op a
      let tl ← optional (tagLine c op (dataTagAddr c i) (.dataTags (i / 8)))
      let m := nodeMajor old
      let e := nodeMinor old (i % 64)
      let lost := (spFind op.failed a).isSome || tl.isNone
      if !lost && tl.any (fun x => dataTag k m e a ct == tagAt x (i % 8)) then do
        notedOnce c op a
        let n := ct ^^^ lineStream k m e a ^^^ lineStream k (m + 1) 0 a
        pure ⟨some (dataTag k (m + 1) 0 a n), some n⟩
      else if lost || op.once.contains a then do
        integrityFault c op a
        pure ⟨some (dataTag k (m + 1) 0 a ct), some ct⟩
      else throw (.retry [a, dataTagAddr c i])

/-- A child node's tag under (M + 1, 0); a child that cannot be verified is poisoned (R288). -/
def renormNode (c : RegionCfg) (op : MemOp) (old : Line) (level j : Nat) : Ev ChildOut := do
  let s ← evGet
  let a := nodeAddr c level j
  let m := nodeMajor old
  let key ← optional (nodeLive c level j)
  match key, cached s a with
  | none, _ => pure ⟨none, none⟩
  | some k, some l => pure ⟨some (nodeTag k (m + 1) 0 a l.data), none⟩
  | some k, none => do
    let d ← stored op a
    let tl ← optional (tagLine c op (nodeTagAddr c level j) (.nodeTags level (j / 8)))
    let lost := (spFind op.failed a).isSome || tl.isNone
    if !lost && tl.any (fun x => nodeTag k m (nodeMinor old (j % 64)) a d == tagAt x (j % 8)) then do
      notedOnce c op a
      pure ⟨some (nodeTag k (m + 1) 0 a d), none⟩
    else if lost || op.once.contains a then do
      evMod (fun s => addPoison s ⟨c.region, level, j⟩)
      pure ⟨none, none⟩
    else throw (.retry [a, nodeTagAddr c level j])

def renormChild (c : RegionCfg) (op : MemOp) (old : Line) (level j : Nat) : Ev ChildOut :=
  if level = 1 then renormLine c op old j else renormNode c op old (level - 1) j

/-- The address and kind of the tag line that holds child j's tag. -/
def childTagLine (c : RegionCfg) (level j : Nat) : Nat × LineKind :=
  if level = 1 then (dataTagAddr c j, .dataTags (j / 8)) else (nodeTagAddr c (level - 1) j, .nodeTags (level - 1) (j / 8))

/-- Go through the children, gathering data lines and tag lines to write. -/
def renormChildren (c : RegionCfg) (op : MemOp) (old : Line) (level : Nat) : List Nat → Sparse Line → Ev (Sparse Line)
  | [], acc => pure acc
  | j :: js, acc => do
    let o ← renormChild c op old level j
    let t := childTagLine c level j
    let acc1 : Sparse Line := match o.line with
      | some l => spPut acc (c.base + j) l
      | none => acc
    let acc2 ← (match o.tag with
      | some v => do
        let tl ← (match spFind acc1 t.1 with
          | some x => (pure x : Ev Line)
          | none => do
            let x ← optional (tagLine c op t.1 t.2)
            pure (x.getD 0))
        pure (spPut acc1 t.1 (setTag tl (j % 8) v))
      | none => pure acc1)
    renormChildren c op old level js acc2

/-- The work of a renormalisation up to its commit. -/
def renormalise (c : RegionCfg) (op : MemOp) (level j : Nat) : Ev OpEnd := do
  match op.children with
  | _ :: _ => pure (.keep op)
  | [] => do
    let old ← nodeOf c op level j
    let kids := (List.range (childCount c level j)).map (fun x => 64 * j + x)
    let lines ← renormChildren c op old level kids []
    pure (.keep { op with cipher := some old, children := lines })

/-! ### Lines of region commands (R290, R293, R294) -/

/-- Item numbers of a command run through these blocks of lines: first address, count. -/
def pickItem : List (Nat × Nat) → Nat → Option (Nat × Nat × Nat)
  | bs, n => go 0 bs n
where
  go (b : Nat) : List (Nat × Nat) → Nat → Option (Nat × Nat × Nat)
    | [], _ => none
    | (a, m) :: bs, n => if n < m then some (b, a, n) else go (b + 1) bs (n - m)

def itemCount (bs : List (Nat × Nat)) : Nat := bs.foldl (fun a b => a + b.2) 0

/-- The nodes of a subtree at level m: first index and count. -/
def subtreeAt (c : RegionCfg) (level node m : Nat) : Nat × Nat :=
  let first := node * 64 ^ (level - m)
  (first, Nat.min (64 ^ (level - m)) (nodesAt c.lines m - first))

/-- One line that a sweep of zeroed content writes: level 0 data, a data tag line, a node or a node-tag line. -/
inductive ZeroLine where
  | data (i : Nat)
  | dataTags (q : Nat)
  | node (level j : Nat)
  | nodeTags (level q : Nat)
  deriving DecidableEq, Repr

/-- The n-th of a list of runs of lines. -/
def nthLine : List (ZeroLine × Nat) → Nat → Option ZeroLine
  | [], _ => none
  | (z, m) :: bs, n =>
    if n < m then some (match z with
      | .data i => .data (i + n)
      | .dataTags q => .dataTags (q + n)
      | .node l j => .node l (j + n)
      | .nodeTags l q => .nodeTags l (q + n))
    else nthLine bs (n - m)

def runTotal (bs : List (ZeroLine × Nat)) : Nat := bs.foldl (fun a b => a + b.2) 0

/-- The lines of an initialisation: data, tags, nodes and node tags (R293); only data in mode 2. -/
def initRuns (c : RegionCfg) : List (ZeroLine × Nat) :=
  if c.mode = 2 then [(.data 0, c.lines)] else
  [(.data 0, c.lines), (.dataTags 0, ceilDiv c.lines 8)] ++
    ((List.range (levelsOf c.lines)).map (· + 1)).flatMap (fun l =>
      [(.node l 0, nodesAt c.lines l), (.nodeTags l 0, ceilDiv (nodesAt c.lines l) 8)])

/-- The lines of a reseed: the nodes of the subtree and their tags, then data and data tags (R290). -/
def reseedRuns (c : RegionCfg) (level node : Nat) : List (ZeroLine × Nat) :=
  let levels := (List.range level).map (fun x => level - x)
  let d := subtreeAt c level node 0
  levels.flatMap (fun m =>
    let t := subtreeAt c level node m
    [(.node m t.1, t.2)] ++ (if m = level then [] else [(.nodeTags m (t.1 / 8), ceilDiv t.2 8)])) ++
    [(.data d.1, d.2), (.dataTags (d.1 / 8), ceilDiv d.2 8)]

/-- The address and content of a line of zeroed content under major m. -/
def zeroContent (c : RegionCfg) (k : KeyVal) (m : W64) : ZeroLine → Nat × Line
  | .data i =>
    (c.base + i, if c.mode = 2 then lineOf (xtsEncrypt k (c.base + i) (zeros 64)) else lineStream k m 0 (c.base + i))
  | .dataTags q =>
    (c.tagBase + q, (List.range 8).foldl (fun d t =>
      let a := c.base + 8 * q + t
      if 8 * q + t < c.lines then setTag d t (dataTag k m 0 a (lineStream k m 0 a)) else d) 0)
  | .node l j => (nodeAddr c l j, freshNode m)
  | .nodeTags l q =>
    (nodeTagAddr c l (8 * q), (List.range 8).foldl (fun d t =>
      if 8 * q + t < nodesAt c.lines l then setTag d t (nodeTag k m 0 (nodeAddr c l (8 * q + t)) (freshNode m)) else d) 0)

/-- The address of a line of zeroed content. -/
def zeroAddr (c : RegionCfg) : ZeroLine → Nat
  | .data i => c.base + i
  | .dataTags q => c.tagBase + q
  | .node l j => nodeAddr c l j
  | .nodeTags l q => nodeTagAddr c l (8 * q)

def setRun (s : State) (r : Region) (run : RegionRun) : State := setRegionDyn s r { regionDyn s r with run := some run }

/-- The sweep pointer for an item: the byte offset of a data line. -/
def sweepAfter (old : Nat) : ZeroLine → Nat
  | .data i => 64 * (i + 1)
  | _ => old

/-- A line of zeroed content: written, and the item counted when mc_ has answered. -/
def sweepZero (c : RegionCfg) (op : MemOp) (run : RegionRun) (runs : List (ZeroLine × Nat)) (item : Nat) : Ev OpEnd := do
  let s ← evGet
  match nthLine runs item with
  | none => pure .quit
  | some z =>
    match op.cipher with
    | none => do
      let k ← liveKey c.key
      let w := zeroContent c k run.major z
      pure (.keep { op with cipher := some w.2, children := [w] })
    | some _ =>
      let a := zeroAddr c z
      if op.done.contains a || (spFind op.failed (a + 2 ^ 34)).isSome then do
        let d := regionDyn s c.region
        evSet (setRegionDyn s c.region { d with sweep := sweepAfter d.sweep z, run := some { run with item := run.item + 1 } })
        pure .quit
      else pure (.keep op)

/-- The cached line belongs to the subtree. -/
def inSubtree (level node : Nat) : LineKind → Bool
  | .node l j => decide (l ≤ level) && j / 64 ^ (level - l) == node
  | .nodeTags l q => decide (l < level) && q * 8 / 64 ^ (level - l) == node
  | .dataTags q => q * 8 / 64 ^ level == node

/-- A renormalisation works inside the subtree, or on the node above it. -/
def renormWithin (s : State) (c : RegionCfg) (level node : Nat) : Bool :=
  (memChan s (chanOf c)).ops.any (fun o => match o.work with
    | .renorm l j => o.region == some c.region &&
        ((decide (l ≤ level) && j / 64 ^ (level - l) == node) || (l == level + 1 && j == node / 64))
    | _ => false)

/-- The first step of a reseed, under its grant: c is fixed, the node's entry in its parent rises, its new tag is placed,
and cached lines of the subtree go (R290 steps 2 and 3). -/
def reseedEntry (c : RegionCfg) (op : MemOp) (run : RegionRun) (level node : Nat) : Ev OpEnd := do
  let s ← evGet
  if renormWithin s c level node then throw .wait else
  let top := (regionDyn s c.region).ceiling
  if top = BitVec.allOnes 64 then throw .locked else do
  let p ← nodeOf c op (level + 1) (node / 64)
  let e ← nextMinor (level + 1) (node / 64) p (node % 64)
  let k ← liveKey c.key
  let a := nodeAddr c level node
  placeNodeTag c op level node (nodeTag k (nodeMajor p) e a (freshNode (top + 1)))
  storeNode c (ledBy op) (level + 1) (node / 64) (setMinor p (node % 64) e)
  evMod (fun s => setRun { s with mem := { s.mem with
    cache := s.mem.cache.filter (fun x => !(x.2.region == c.region && inSubtree level node x.2.kind)) } } c.region
      { run with item := 1, major := top + 1 })
  pure .quit

/-- A node, or none where it is lost: its subtree is then poisoned (R288). -/
def softly (r : Region) (x : Ev Line) : Ev (Option Line) :=
  tryCatch (do
    let v ← x
    pure (some v)) (fun h => match h with
    | .status _ => pure none
    | .poisoned level node => do
      evMod (fun s => addPoison s ⟨r, level, node⟩)
      pure none
    | _ => throw h)

/-- What the nodes whose span ends with line i need for their new tags is brought into the cache. -/
def rekeyReady (c : RegionCfg) (op : MemOp) (i : Nat) : List Nat → Ev Unit
  | [] => pure ()
  | level :: ls => do
    let j := i / 64 ^ level
    if spanEnd c level j = i + 1 then do
      let d ← softly c.region (nodeOf c op level j)
      let _ ← softly c.region (nodeOf c op (level + 1) (j / 64))
      let _ ← optional (tagLine c op (nodeTagAddr c level j) (.nodeTags level (j / 8)))
      (match d with
        | some _ => pure ()
        | none => pure ())
      rekeyReady c op i ls
    else rekeyReady c op i ls

/-- Re-tag the nodes whose span ends with line i, under next_key (R294); a lost node is passed over. -/
def rekeyNodes (c : RegionCfg) (op : MemOp) (i : Nat) (k : KeyVal) : List Nat → Ev Unit
  | [] => pure ()
  | level :: ls => do
    let j := i / 64 ^ level
    if spanEnd c level j = i + 1 then do
      let d ← softly c.region (nodeOf c op level j)
      let p ← softly c.region (nodeOf c op (level + 1) (j / 64))
      (match d, p with
        | some d, some p => do
          let tl ← optional (tagLine c op (nodeTagAddr c level j) (.nodeTags level (j / 8)))
          fillLine (ledBy op) { addr := nodeTagAddr c level j, region := c.region, kind := .nodeTags level (j / 8), dirty := true
                                data := setTag (tl.getD 0) (j % 8)
                                  (nodeTag k (nodeMajor p) (nodeMinor p (j % 64)) (nodeAddr c level j) d) }
        | _, _ => pure ())
      rekeyNodes c op i k ls
    else rekeyNodes c op i k ls

def rekeyLevels (c : RegionCfg) : List Nat := (List.range (levelsOf c.lines)).map (· + 1)

/-- P advances past line i. When next_key has left LIVE meanwhile, the sweep stops behind it (R295). -/
def advanceRekey (c : RegionCfg) (op : MemOp) (run : RegionRun) (i : Nat) : Ev OpEnd := do
  let s ← evGet
  let nk := (regionDyn s c.region).nextRef
  if c.mode = 3 ∧ keyUsable s nk then rekeyNodes c op i (slotValue s nk) (rekeyLevels c) else pure ()
  evMod (fun s =>
    let d := regionDyn s c.region
    setRegionDyn s c.region { d with sweep := 64 * (i + 1), rekeyAt := 64 * (i + 1)
                                     run := some { run with item := i + 1, resumed := false, newTag := none } })
  if keyUsable s nk then pure .quit else throw (.status 6)

/-- The content of the line at P under next_key in mode 3, with entry n1: verified under the old key and re-encrypted; after
a warm reset also as the new content that its interrupted write has left; a line that fails keeps its stored bytes (R294,
R298). -/
def rekeyProtected (c : RegionCfg) (op : MemOp) (run : RegionRun) (i : Nat) (key : Option KeyVal) (nk : KeyVal) (n1 : Line) :
    Ev Line := do
  let a := c.base + i
  let m := nodeMajor n1
  let e := nodeMinor n1 (i % 64)
  let ct ← stored op a
  let tl ← optional (tagLine c op (dataTagAddr c i) (.dataTags (i / 8)))
  let lost := (spFind op.failed a).isSome || tl.isNone || key.isNone
  let k := key.getD 0
  if !lost && tl.any (fun x => dataTag k m e a ct == tagAt x (i % 8)) then do
    notedOnce c op a
    pure (ct ^^^ lineStream k m e a ^^^ lineStream nk m e a)
  else if (spFind op.failed a).isNone && run.resumed && run.newTag == some (dataTag nk m e a ct) then pure ct
  else if lost || op.once.contains a then do
    integrityFault c op a
    pure ct
  else throw (.retry [a, dataTagAddr c i])

/-- The new tag of a rewritten line goes into its tag line (R294). -/
def rekeyTag (c : RegionCfg) (op : MemOp) (i : Nat) (t : W64) : Ev Unit := do
  let tl ← optional (tagLine c op (dataTagAddr c i) (.dataTags (i / 8)))
  fillLine (ledBy op) { addr := dataTagAddr c i, region := c.region, kind := .dataTags (i / 8), dirty := true
                        data := setTag (tl.getD 0) (i % 8) t }

/-- The line at P is rewritten under next_key: full protection. A line under a poisoned node has no entry and is passed
over. -/
def rekeyLine3 (c : RegionCfg) (op : MemOp) (run : RegionRun) (i : Nat) (key : Option KeyVal) (nk : KeyVal) : Ev OpEnd := do
  let s ← evGet
  let a := c.base + i
  let n1 ← (if poisonedLine s c.region i then pure none else softly c.region (nodeOf c op 1 (i / 64)))
  match n1 with
  | none => do
    integrityFault c op a
    advanceRekey c op run i
  | some n1 => do
    let ct ← rekeyProtected c op run i key nk n1
    rekeyReady c op i (rekeyLevels c)
    evMod (fun s => setRun s c.region { run with newTag := some (dataTag nk (nodeMajor n1) (nodeMinor n1 (i % 64)) a ct) })
    pure (.keep { op with cipher := some ct, children := [(a, ct)] })

/-- The same in encrypt-only mode. -/
def rekeyLine2 (c : RegionCfg) (op : MemOp) (i : Nat) (key : Option KeyVal) (nk : KeyVal) : Ev OpEnd := do
  let a := c.base + i
  let ct ← stored op a
  match key, spFind op.failed a with
  | some k, none => do
    notedOnce c op a
    let n := lineOf (xtsEncrypt nk a (xtsDecrypt k a (wordBytes ct)))
    pure (.keep { op with cipher := some n, children := [(a, n)] })
  | _, _ => do
    integrityFault c op a
    pure (.keep { op with cipher := some ct, children := [(a, ct)] })

/-- One line of a rekey sweep. -/
def sweepRekey (c : RegionCfg) (op : MemOp) (run : RegionRun) : Ev OpEnd := do
  let s ← evGet
  let i := run.item
  let a := c.base + i
  if c.lines ≤ i then pure .quit else
  match op.cipher with
  | some _ =>
    if op.done.contains a || (spFind op.failed (a + 2 ^ 34)).isSome then do
      (match run.newTag with
        | some t => rekeyTag c op i t
        | none => pure ())
      advanceRekey c op run i
    else pure (.keep op)
  | none => do
    let nk ← liveKey (regionDyn s c.region).nextRef
    let key ← (if lineDead s c i then pure none else do
      let k ← liveKey c.key
      pure (some k))
    if c.mode = 3 then rekeyLine3 c op run i key nk else rekeyLine2 c op i key nk

/-- The lines of a running command. -/
def runLines (c : RegionCfg) (run : RegionRun) : List (ZeroLine × Nat) :=
  match run.kind with
  | .initialise => initRuns c
  | .reseed level node => reseedRuns c level node
  | .rekey => []

/-- Items that a command works through: a reseed's first item is its entry. -/
def runItems (c : RegionCfg) (run : RegionRun) : Nat :=
  match run.kind with
  | .initialise => runTotal (initRuns c)
  | .reseed level node => 1 + runTotal (reseedRuns c level node)
  | .rekey => c.lines

def sweepLine (c : RegionCfg) (op : MemOp) : Ev OpEnd := do
  let s ← evGet
  match (regionDyn s c.region).run with
  | none => pure .quit
  | some run =>
    match run.kind with
    | .initialise => sweepZero c op run (initRuns c) run.item
    | .rekey => sweepRekey c op run
    | .reseed level node =>
      if run.item = 0 then reseedEntry c op run level node
      else sweepZero c op run (reseedRuns c level node) (run.item - 1)

/-! ### One evaluation of an operation -/

def evalOp (s : State) (k : Chan) (op : MemOp) : Ev OpEnd :=
  match op.work, op.region with
  | .settled st _, _ => pure (.answer st 0)
  | _, none => bypass k op
  | w, some r =>
    let c := opCfg s op r
    match w with
    | .settled st _ => pure (.answer st 0)
    | .read => if c.mode = 1 then bypass k op else readRegion c op (op.addr - c.base)
    | .write d m =>
      if c.mode = 1 then bypass k op
      else if c.mode = 2 then writeEncrypted c op (op.addr - c.base) d m
      else writeProtected c op (op.addr - c.base) d m
    | .evict kind => evict c op kind
    | .renorm level j => renormalise c op level j
    | .sweepLine => sweepLine c op

/-- The counter of a region that an answer adds to (Table 8.12). -/
def answerCounter (st : Nat) : Option Nat :=
  if st = 1 then some 4 else if st = 3 then some 6 else if st = 4 ∨ st = 5 ∨ st = 6 then some 8 else none

/-- Push a response: data only for a good read (R268). -/
def respond (s : State) (k : Chan) (id : BitVec 12) (write : Bool) (r : Option Region) (st : Nat) (d : Line) : State :=
  let s1 := match r, answerCounter st with
    | some r, some n => bump s (0x3C11 + r.val) n
    | _, _ => s
  let c := memChan s1 k
  setMemChan s1 k { c with rsp := c.rsp ++ [{ id := id, write := write, rdata := if st = 0 ∧ !write then d else 0, status := BitVec.ofNat 3 st }] }

def isWrite (op : MemOp) : Bool :=
  match op.work with
  | .write _ _ => true
  | .settled _ w => w
  | _ => false

def isRequest (op : MemOp) : Bool :=
  match op.work with
  | .read => true
  | .write _ _ => true
  | .settled _ _ => true
  | _ => false

/-! ### Requests on mc_ (R80, R82) -/

/-- An identifier that is neither outstanding nor withheld, nor the one of the access that is repeated (R271). -/
def freeMcId (c : MemChan) (spent : Option Nat) : Option Nat :=
  (List.range 1024).find? (fun n => !c.mc.any (fun q => q.id == n) && !c.withheld.contains n && spent != some n)

/-- Present a request of an operation on mc_, unless it is there already or no identifier is free. -/
def issueMc (s : State) (k : Chan) (seq a : Nat) (write : Bool) (d : Line) (mask : W64) (spent : Option Nat) : State :=
  let c := memChan s k
  if c.mc.any (fun q => q.seq == seq && q.addr == a && q.write == write) then s else
  match freeMcId c spent with
  | none => s
  | some n =>
    let q : McReq := { id := n, seq := seq, addr := a, write := write, data := d, mask := mask, since := s.now, sent := c.mcReady }
    setMemChan s k { c with mc := c.mc ++ [q] }

/-- The byte enables of an operation's writes: a bypass write passes its mask. -/
def opMask (s : State) (op : MemOp) : W64 :=
  match op.work, op.region with
  | .write _ m, none => m
  | .write _ m, some r => if (opCfg s op r).mode = 1 then m else BitVec.allOnes 64
  | _, _ => BitVec.allOnes 64

/-- The writes of an operation that are neither answered nor failed. -/
def issueWrites (s : State) (k : Chan) (op : MemOp) : State :=
  op.children.foldl (fun s w =>
    if op.done.contains w.1 || (spFind op.failed (w.1 + 2 ^ 34)).isSome then s
    else issueMc s k op.seq w.1 true w.2 (opMask s op) none) s

/-- Lines are dropped and read again after a mismatch (R271). -/
def againOp (op : MemOp) (as : List Nat) : MemOp :=
  { op with got := as.foldl (fun g a => spDel g a) op.got, once := op.once ++ as }

/-- Tag lines that are clean in the cache are dropped so that they are read again. -/
def dropClean (s : State) (as : List Nat) : State :=
  { s with mem := { s.mem with cache := s.mem.cache.filter (fun x => x.2.dirty || !as.contains x.2.addr) } }

/-- A region command ends with a code. -/
def endRun (s : State) (r : Region) (code : BitVec 4) : State :=
  releaseGrant (setRegionDyn s r { regionDyn s r with run := none, code := code }) (.regionOp r)

/-- A write finds its counters spent (R285). -/
def lockRegion (s : State) (r : Region) : State :=
  let s1 := setRegionDyn s r { regionDyn s r with state := .writeLocked }
  raiseCause s1 (evRegion r.val) 2 r.val

/-- The last requests of a disabled region have completed: what they went by goes, and with it the region's cache lines
(R265). -/
def finishClosing (s : State) (r : Region) : State :=
  let d := regionDyn s r
  let serves (g : Nat) (o : MemOp) : Bool := o.region == some r && o.old == some g
  let used (g : Nat) : Bool :=
    (memChan s 0).ops.any (fun o => serves g o && !isEvict o) || (memChan s 1).ops.any (fun o => serves g o && !isEvict o)
  let gone := (d.old.filter (fun e => !used e.1)).map Prod.fst
  if gone = [] then s else
  let clear (s : State) (k : Chan) : State :=
    ((memChan s k).ops.filter (fun o => gone.any (fun g => serves g o))).foldl (fun s o => dropOp s k o.seq) s
  let s1 := clear (clear (setRegionDyn s r { d with old := d.old.filter (fun e => used e.1) }) 0) 1
  if (cacheOwner s r).isSome && (cacheOwner s1 r).isNone then
    { s1 with mem := { s1.mem with cache := s1.mem.cache.filter (fun x => x.2.region != r) } }
  else s1

/-- The parts of a region that requests accepted before its disable go by. -/
def withView (d : RegionDyn) (o : OldRegion) : RegionDyn :=
  { d with state := o.state, root := o.root, nextBound := o.nextBound, nextRef := o.nextRef, rekeyAt := o.rekeyAt,
           deadBelow := o.deadBelow }

/-- Work of an operation under the region as it was when the request was accepted (R265). -/
def underOld (op : MemOp) (f : State → State) (s : State) : State :=
  match op.region, op.old with
  | some r, some g =>
    let d := regionDyn s r
    match spFind d.old g with
    | some o =>
      let s1 := f (setRegionDyn s r (withView d o))
      let e := regionDyn s1 r
      setRegionDyn s1 r { e with state := d.state, root := d.root, nextBound := d.nextBound, nextRef := d.nextRef
                                 rekeyAt := d.rekeyAt, deadBelow := d.deadBelow
                                 old := spPut e.old g { o with root := e.root, state := e.state } }
    | none => f s
  | _, _ => f s

/-- A renormalisation runs on the channel. -/
def anyRenorm (s : State) (k : Chan) : Bool := (memChan s k).ops.any (fun o => match o.work with
  | .renorm _ _ => true
  | _ => false)

/-- An operation that cannot go on ends with a status: a write-back whose node is lost drops its line, a region command is
abandoned. -/
def endWith (s : State) (k : Chan) (op : MemOp) (st : Nat) : State :=
  match op.work, op.region with
  | .sweepLine, some r => dropOp (if (regionDyn s r).run.isSome then endRun s r 6 else s) k op.seq
  | .evict _, _ =>
    dropOp { s with mem := { s.mem with cache := s.mem.cache.filter (fun x => x.2.addr != op.addr) } } k op.seq
  | .renorm _ _, _ =>
    let s1 := dropOp s k op.seq
    if anyRenorm s1 k then s1 else releaseGrant s1 (.renorm k)
  | _, _ =>
    dropOp (if isRequest op then respond s k op.id (isWrite op) op.region st 0 else s) k op.seq

/-- The lines of a mismatch are read again; the repeat is one fault, so only its first line is still to be counted. -/
def retryOp (s : State) (k : Chan) (op : MemOp) (as : List Nat) : State :=
  let s1 := putOp (dropClean s as) k (againOp op as)
  let c := memChan s1 k
  let s2 := setMemChan s1 k { c with noted := c.noted ++ (as.drop 1).map (fun a => (op.seq, a)) }
  as.foldl (fun s a => if (cached s a).isSome then s else issueMc s k op.seq a false 0 0 none) s2

/-- A major counter is spent: the request is refused, a reseed ends, a write-back waits (R285). -/
def onLocked (s : State) (k : Chan) (op : MemOp) (r : Region) : State :=
  match op.work with
  | .sweepLine => dropOp (endRun (lockRegion s r) r 7) k op.seq
  | .evict _ => putOp (if (regionDyn s r).state = .writeLocked then s else lockRegion s r) k { op with stalled := true }
  | _ => if isRequest op then endWith (lockRegion s r) k op 5 else lockRegion s r

/-- Act on why an evaluation stopped. -/
def onHalt (s : State) (k : Chan) (op : MemOp) : Halt → State
  | .need as => as.foldl (fun s a => issueMc s k op.seq a false 0 0 none) s
  | .retry as => retryOp s k op as
  | .poisoned level node =>
    match op.region with
    | some r => endWith (addPoison s ⟨r, level, node⟩) k op 3
    | none => s
  | .status st => endWith s k op st
  | .wait => s
  | .renorm _ _ => if isEvict op then putOp s k { op with stalled := true } else s
  | .locked =>
    match op.region with
    | some r => onLocked s k op r
    | none => s

/-- Evaluate an operation once. -/
def runOp (k : Chan) (op : MemOp) (s : State) : State :=
  match (evalOp s k op).run.run s with
  | (.ok (.keep o), s1) => issueWrites (putOp s1 k o) k o
  | (.ok (.answer st d), s1) => dropOp (respond s1 k op.id (isWrite op) op.region st d) k op.seq
  | (.ok .quit, s1) => dropOp s1 k op.seq
  | (.error h, s1) => onHalt s1 k op h

/-- Evaluate an operation under the region it belongs to. -/
def advanceOp (s : State) (k : Chan) (op : MemOp) : State :=
  let s1 := underOld op (runOp k op) s
  match op.region with
  | some r => finishClosing s1 r
  | none => s1

/-! ### Order (R79, R269, R284) -/

/-- The full-protection counter block of an operation. -/
def counterBlock (s : State) (op : MemOp) : Option (Region × Nat) :=
  match op.region with
  | some r =>
    let c := opCfg s op r
    if c.mode = 3 ∧ isRequest op then some (r, (op.addr - c.base) / 64) else none
  | none => none

/-- The line a sweep works on. -/
def sweepAddr (s : State) (op : MemOp) : Option Nat :=
  match op.work, op.region with
  | .sweepLine, some r =>
    match (regionDyn s r).run with
    | some run =>
      let c := regionCfg s r
      match run.kind with
      | .rekey => some (c.base + run.item)
      | .initialise => (nthLine (runLines c run) run.item).map (zeroAddr c)
      | .reseed _ _ => if run.item = 0 then none else (nthLine (runLines c run) (run.item - 1)).map (zeroAddr c)
    | none => none
  | _, _ => none

/-- The line that an operation writes or reads for itself. -/
def lineAddr (s : State) (op : MemOp) : Option Nat :=
  if isRequest op || isEvict op then some op.addr else sweepAddr s op

/-- A renormalisation runs over what the operation works on: a request to a line below the node, the write-back of a child
or of its tags, or a line that a rekey has not yet rewritten. -/
def underRenorm (s : State) (o op : MemOp) : Bool :=
  match o.work, o.region with
  | .renorm level node, some r =>
    op.region == some r && o.old == op.old && (match op.work with
      | .evict kind => op.cipher.isNone && childLine level node kind
      | .sweepLine => op.cipher.isNone && (match (regionDyn s r).run with
        | some run => run.kind == .rekey && run.item / 64 ^ level == node
        | none => false)
      | _ => isRequest op && (op.addr - (opCfg s op r).base) / 64 ^ level == node)
  | _, _ => false

/-- A renormalisation waits for a line of a region command that lies under its node and is on its way to mc_. -/
def sweepBars (s : State) (k : Chan) (op : MemOp) : Bool :=
  match op.work, op.region with
  | .renorm level node, some r =>
    op.old.isNone && (match (regionDyn s r).run with
      | some run => (match run.kind with
        | .rekey => run.item / 64 ^ level == node &&
            (memChan s k).ops.any (fun o => o.work == .sweepLine && o.region == some r && o.cipher.isSome)
        | .reseed l n => run.item == 1 && l + 1 == level && n / 64 == node
        | .initialise => false)
      | none => false)
  | _, _ => false

/-- The earlier operation must end first. -/
def mustWait (s : State) (o op : MemOp) : Bool :=
  (isRequest o && isRequest op && o.id == op.id) ||
    ((lineAddr s o).isSome && lineAddr s o == lineAddr s op) ||
    ((counterBlock s o).isSome && counterBlock s o == counterBlock s op && isRequest op)

def blocked (s : State) (k : Chan) (op : MemOp) : Bool :=
  (memChan s k).ops.any (fun o => (decide (o.seq < op.seq) && mustWait s o op) || underRenorm s o op) || sweepBars s k op

/-- Evaluate every operation of a channel that is not held back, in order. -/
def pumpOnce (s : State) (k : Chan) : State :=
  ((memChan s k).ops.map MemOp.seq).foldl (fun s q =>
    match (memChan s k).ops.find? (fun o => o.seq == q) with
    | some op => if blocked s k op || (isRequest op && decide (256 ≤ (memChan s k).rsp.length)) then s else advanceOp s k op
    | none => s) s

/-- Two passes: an operation that ends lets those it held back go on. -/
def pump (s : State) (k : Chan) : State := pumpOnce (pumpOnce s k) k

/-! ### mq_ requests (R266 to R270, R79, R83) -/

/-- mq_req_ready: fewer than 256 requests outstanding and room for responses. DESIGN CHOICE (log 67): a request whose response
waits in the response buffer no longer counts as outstanding. -/
def mqReady (s : State) (k : Chan) : Bool :=
  let c := memChan s k
  pathOn s && decide ((c.ops.filter isRequest).length < 256) && decide (c.rsp.length < 256)

def inSpan (a base n : Nat) : Bool := decide (base ≤ a) && decide (a < base + n)

/-- What a line address decodes to (R266). -/
inductive Decoded where
  | refused (r : Option Region)
  | region (r : Region)
  | through
  deriving DecidableEq, Repr

def regionsOf (s : State) : List RegionCfg := ((List.finRange 8).map (regionCfg s)).filter (fun c => c.enable)

def inMetadata (c : RegionCfg) (a : Nat) : Bool :=
  c.mode == 3 && (inSpan a c.tagBase (ceilDiv c.lines 8) || inSpan a c.ctrBase (ctrLines c.lines))

def decodeLine (s : State) (k : Chan) (a : Nat) : Decoded :=
  let rs := regionsOf s
  match rs.find? (fun c => inMetadata c a) with
  | some c => .refused (some c.region)
  | none =>
    match rs.find? (fun c => inSpan a c.base c.lines) with
    | some c => if chanOf c = k then .region c.region else .refused (some c.region)
    | none => .through

/-- The refusal of a request by the region's state (R267, R449), or the answer to an empty mask (R270). -/
def regionRefusal (s : State) (r : Region) (write : Bool) (mask : W64) : Option Nat :=
  let c := regionCfg s r
  let d := regionDyn s r
  if d.state = .uninit ∨ d.state = .initialising then some 4
  else if write ∧ d.state = .writeLocked then some 5
  else if write ∧ mask = 0 then some 0
  else if 2 ≤ c.mode ∧ groupCount s 4 = 0 then some 7
  else none

/-- A request is accepted. -/
def acceptMq (s : State) (k : Chan) (a : Nat) (id : BitVec 12) (work : MemWork) (write : Bool) (mask : W64) : State :=
  let count (r : Region) (s : State) : State := bump s (0x3C11 + r.val) (if write then 2 else 1)
  let settle (st : Nat) (r : Option Region) (s : State) : State := pump (appendOp s k (newOp (.settled st write) a id r)) k
  match decodeLine s k a with
  | .refused r => settle 4 r s
  | .through => if write ∧ mask = 0 then settle 0 none s else pump (appendOp s k (newOp work a id none)) k
  | .region r =>
    match regionRefusal s r write mask with
    | some st => settle st (some r) (if st = 0 then s else count r s)
    | none => pump (appendOp (count r s) k (newOp work a id (some r))) k

def execMemoryRead (ch : Chan) (addr : BitVec 34) (id : BitVec 12) (s : State) : Out :=
  .next (if mqReady s ch then acceptMq s ch addr.toNat id .read false 0 else s)

def execMemoryWrite (ch : Chan) (addr : BitVec 34) (id : BitVec 12) (data : BitVec 512) (mask : W64) (s : State) : Out :=
  .next (if mqReady s ch then acceptMq s ch addr.toNat id (.write data mask) true mask else s)

/-! ### Responses (R82, R271) -/

/-- The key of an access in `once` and `failed`. -/
def accessKey (q : McReq) : Nat := if q.write then q.addr + 2 ^ 34 else q.addr

/-- An access of an operation is answered with a status. What the second answer of a lasting read failure carried is kept:
a renormalisation or a rekey writes it back (R283, R294). -/
def accessDone (op : MemOp) (q : McReq) (d : Line) (st : BitVec 2) : MemOp :=
  if st = 0 then (if q.write then { op with done := op.done ++ [q.addr] } else { op with got := spPut op.got q.addr d })
  else if op.once.contains (accessKey q) then
    { op with failed := spPut op.failed (accessKey q) st, got := if q.write then op.got else spPut op.got q.addr d }
  else { op with once := op.once ++ [accessKey q] }

/-- A write that needed its second attempt had a transient fault (R271). -/
def countWrite (s : State) (k : Chan) (op : MemOp) (q : McReq) (st : BitVec 2) : State :=
  if q.write ∧ st = 0 ∧ op.once.contains (accessKey q) then
    (match op.region with
      | some r => bump s (0x3C11 + r.val) 5
      | none => bump s 0x3C00 (3 + k.val))
  else s

/-- The request is answered; a first failure is repeated with a new identifier. -/
def answerMc (s : State) (k : Chan) (q : McReq) (d : Line) (st : BitVec 2) : State :=
  let c := memChan s k
  let s1 := setMemChan s k { c with mc := c.mc.filter (fun x => x.id != q.id) }
  match (memChan s1 k).ops.find? (fun o => o.seq == q.seq) with
  | none => s1
  | some op =>
    let s2 := countWrite (putOp s1 k (accessDone op q d st)) k op q st
    let again := st != 0 && !op.once.contains (accessKey q)
    pump (if again then issueMc s2 k q.seq q.addr q.write q.data q.mask (some q.id) else s2) k

def execMcResponse (ch : Chan) (id : BitVec 10) (data : BitVec 512) (status : BitVec 2) (s : State) : Out :=
  .next (if !pathOn s then s else
    let c := memChan s ch
    match c.mc.find? (fun q => q.id == id.toNat && q.sent) with
    | some q => answerMc s ch q data status
    | none =>
      let s1 := setMemChan s ch { c with withheld := c.withheld.filter (fun n => n != id.toNat), lateDiscards := c.lateDiscards + 1 }
      if c.withheld.contains id.toNat then s1 else raiseCause s1 (evChannel ch.val) 1 ch.val)

def execMcTimeout (ch : Chan) (id : BitVec 10) (s : State) : Out :=
  .next (if !pathOn s then s else
    let c := memChan s ch
    match c.mc.find? (fun q => q.id == id.toNat && q.sent) with
    | some q =>
      if elapsed s q.since (usCycles (regN s 0x3C00 (ch.val + 1))) then
        let s1 := setMemChan s ch { c with withheld := c.withheld ++ [q.id] }
        answerMc (raiseCause s1 (evChannel ch.val) 0 ch.val) ch q (Config.lostLine q.addr s.now) 1
      else s
    | none => s)

/-! ### Renormalisation as a command (R283 to R285) -/

/-- The node an operation waits for to be renormalised. -/
def renormWanted (s : State) (k : Chan) (op : MemOp) : Option (Nat × Nat) :=
  if blocked s k op then none else
  let view := match op.region, op.old with
    | some r, some g => (match spFind (regionDyn s r).old g with
      | some o => setRegionDyn s r (withView (regionDyn s r) o)
      | none => s)
    | _, _ => s
  match ((evalOp view k op).run.run view).1 with
  | .error (.renorm level j) => some (level, j)
  | _ => none

/-- The line that the triggering write replaces in full is left out of the work. -/
def replacedLine (op : MemOp) : Nat :=
  match op.work with
  | .write _ m => if m = BitVec.allOnes 64 then op.addr else 2 ^ 34
  | _ => 2 ^ 34

/-- A renormalisation of the channel is at work on this node already. -/
def renormAt (s : State) (k : Chan) (r : Region) (level j : Nat) : Bool :=
  (memChan s k).ops.any (fun o => o.region == some r && o.work == .renorm level j)

/-- A second renormalisation of a channel is only one that the first has led to (R284, R287). -/
def mayRenorm (s : State) (k : Chan) (op : MemOp) : Bool := !anyRenorm s k || op.cause == .renorm

/-- Outside any grant a renormalisation takes its own (R284, R287, R430). -/
def renormGrant (s : State) (k : Chan) (op : MemOp) : State :=
  if ledBy op == .none && !grantHeld s (.renorm k) then holdGrant s (.renorm k) false else s

/-- Start the renormalisation that the first waiting operation needs. -/
def startRenorm (s : State) (k : Chan) : List MemOp → State
  | [] => s
  | op :: ops =>
    match renormWanted s k op, op.region with
    | some (level, j), some r =>
      if renormAt s k r level j || !mayRenorm s k op then startRenorm s k ops
      else
        pump (appendOp (renormGrant s k op) k
          { newOp (.renorm level j) (replacedLine op) 0 (some r) with cause := ledBy op, old := op.old }) k
    | _, _ => startRenorm s k ops

def execRenormalisation (ch : Chan) (s : State) : Out :=
  .next (if pathOn s then startRenorm s ch (memChan s ch).ops else s)

/-- Every write of the renormalisation has been answered. -/
def renormReady (op : MemOp) : Bool :=
  match op.work with
  | .renorm _ _ => op.cipher.isSome && op.children.all (fun w => op.done.contains w.1 || (spFind op.failed (w.1 + 2 ^ 34)).isSome)
  | _ => false

/-- The new content of cached tag lines that the renormalisation wrote. -/
def refreshTags (s : State) (ws : Sparse Line) : State :=
  ws.foldl (fun s w => match cachePlace s w.1, cached s w.1 with
    | some n, some l => setCache s n { l with data := w.2, dirty := false }
    | _, _ => s) s

/-- What others had read, or had asked for, of the lines that a renormalisation has written is read again. -/
def renewReads (s : State) (k : Chan) (op : MemOp) : State :=
  let c := memChan s k
  let mine (a : Nat) : Bool := (spFind op.children a).isSome
  setMemChan s k { c with
    ops := c.ops.map (fun o => if o.seq = op.seq then o else
      { o with got := o.got.filter (fun e => !mine e.1), once := o.once.filter (fun a => !mine a)
               failed := o.failed.filter (fun e => !mine e.1) })
    mc := c.mc.map (fun q => if !q.write && mine q.addr then { q with seq := op.seq } else q) }

/-- The node goes to (M + 1, 0 … 0) in one cycle (R283). -/
def commitNode (level j : Nat) (r : Region) (old : Line) (op : MemOp) (s : State) : State :=
  let m := nodeMajor old + 1
  let s1 := ((storeNode (opCfg s op r) .renorm level j (freshNode m)).run.run (refreshTags s op.children)).2
  let d := regionDyn s1 r
  bump (setRegionDyn s1 r { d with ceiling := if d.ceiling.toNat < m.toNat then m else d.ceiling }) (0x3C11 + r.val) 7

def commitRenorm (s : State) (k : Chan) (op : MemOp) : State :=
  match op.work, op.region, op.cipher with
  | .renorm level j, some r, some old =>
    let s1 := dropOp (renewReads (underOld op (commitNode level j r old op) s) k op) k op.seq
    let s2 := finishClosing s1 r
    pump (if anyRenorm s2 k then s2 else releaseGrant s2 (.renorm k)) k
  | _, _, _ => s

def execRenormalisationCommit (ch : Chan) (s : State) : Out :=
  .next (if !pathOn s then s else
    match (memChan s ch).ops.find? renormReady with
    | some op => commitRenorm s ch op
    | none => s)

/-- A way of a set is evicted: a dirty line is written back, a clean one is dropped. -/
def execCacheEviction (set : Fin 2048) (way : Fin 16) (s : State) : Out :=
  .next (if !pathOn s then s else
    let n := set.val * 16 + way.val
    match spFind s.mem.cache n with
    | none => s
    | some l =>
      if l.dirty then
        let k := chanOf (lineCfg s l)
        pump (startEviction s n .none) k
      else if pinned s l then s
      else { s with mem := { s.mem with cache := spDel s.mem.cache n } })

end Sys2Proof.Machine
end

