-- ==== Sys2Proof/Machine/Regions.lean ====
section
/-! DEFINITION. Region records and commands, the objects of the Memory regions area, and what resets, power and faults do
to the Memory Guard (R262 to R265, R288 to R298). -/

namespace Sys2Proof.Machine

/-! ### Enable and disable (R263 to R265) -/

def overlaps (a n b m : Nat) : Bool := decide (a < b + m) && decide (b < a + n) && decide (0 < n) && decide (0 < m)

/-- The ranges of a region in lines: data, and in mode 3 tags and counters. -/
def dataRange (c : RegionCfg) : Nat × Nat := (c.base, c.lines)
def metaRanges (c : RegionCfg) : List (Nat × Nat) :=
  if c.mode = 3 then [(c.tagBase, ceilDiv c.lines 8), (c.ctrBase, ctrLines c.lines)] else []

def clash (a b : Nat × Nat) : Bool := overlaps a.1 a.2 b.1 b.2

/-- R263 items 2 and 3 against another enabled region; only mode 3 is held against metadata areas. -/
def clearOf (c o : RegionCfg) : Bool :=
  !clash (dataRange c) (dataRange o) && (c.mode != 3 || !(metaRanges o).any (clash (dataRange c))) &&
    (metaRanges c).all (fun m => !clash m (dataRange o) && !(metaRanges o).any (clash m))

/-- The metadata areas of a region overlap neither each other nor its own data. -/
def metaDisjoint (c : RegionCfg) : Bool :=
  match metaRanges c with
  | [a, b] => !clash a b && !clash a (dataRange c) && !clash b (dataRange c)
  | _ => true

/-- The two 128-bit halves of a value differ (R263 item 5). -/
def halvesDiffer (v : KeyVal) : Bool := v.extractLsb' 128 128 != v.extractLsb' 0 128

/-- R263 items 4 and 5 for a key in a mode. -/
def regionKeyOk (s : State) (mode : Nat) (k : W16) : Bool :=
  keyUsable s k && !(slotOf s k).txu && !bindSaturated s k && (mode != 2 || halvesDiffer (slotValue s k))

/-- The checks of R263 on a region that is to be enabled with control word v. -/
def enableRegionOk (s : State) (r : Region) (v : W64) : Bool :=
  let c := { regionCfg s r with mode := field v 1 0, chan := field v 4 4 }
  c.mode != 0 && c.lines != 0 && metaDisjoint c &&
    (regionsOf s).all (fun o => o.region == r || clearOf c o) && (c.mode == 1 || regionKeyOk s c.mode c.key)

/-- Bind a key and mark it used (R264). -/
def bindRegionKey (s : State) (k : W16) : State :=
  let s1 := bindKey s k
  setSlot s1 k { slotOf s1 k with txu := true }

/-- Enable is accepted (R264). -/
def enableRegion (r : Region) (v : W64) (s : State) : State :=
  let mode := field v 1 0
  let s1 := setReg s (regionIdx r) 1 v
  let s2 := if mode = 1 then s1 else bindRegionKey s1 (regionCfg s1 r).key
  setRegionDyn s2 r { regionDyn s2 r with state := if mode = 3 then .uninit else .active }

/-- A number that no earlier record of the region stands under. -/
def freshOld (d : RegionDyn) : Nat := d.old.foldl (fun n e => Nat.max n (e.1 + 1)) 0

/-- The requests that a region has accepted go on under its earlier record, with the renormalisations they wait for;
write-backs and sweeps end. -/
def keepAccepted (s : State) (k : Chan) (r : Region) (g : Nat) : State :=
  let ch := memChan s k
  let mine (o : MemOp) : Bool := o.region == some r && o.old.isNone
  let stays (o : MemOp) : Bool := isRequest o || (match o.work with
    | .renorm _ _ => true
    | _ => false)
  setMemChan s k { ch with ops := (ch.ops.filter (fun o => !mine o || stays o)).map (fun o => if mine o then { o with old := some g } else o) }

/-- What the accepted requests of a region go by from now on. -/
def oldRegion (s : State) (r : Region) : OldRegion :=
  let d := regionDyn s r
  { record := regionRecord s r, state := d.state, root := d.root, nextBound := d.nextBound, nextRef := d.nextRef
    rekeyAt := d.rekeyAt, deadBelow := d.deadBelow }

/-- A write that clears enable (R265). -/
def disableRegion (r : Region) (v : W64) (s : State) : State :=
  let c := regionCfg s r
  let d := regionDyn s r
  let g := freshOld d
  let s1 := if d.run.isSome then endRun s r 6 else s
  let s2 := if c.mode = 1 then s1 else releaseKey s1 c.key
  let s3 := if d.nextBound then releaseKey s2 d.nextRef else s2
  let s4 := setReg (keepAccepted s3 (chanOf c) r g) (regionIdx r) 1 v
  finishClosing (setRegionDyn s4 r { regionDyn s4 r with
    state := .disabled, root := 0, nextBound := false, nextRef := keyNone, rekeyAt := 0, deadBelow := 0
    old := spPut d.old g (oldRegion s r) }) r

/-- A write of 0x3C01.01 + r. -/
def writeRegionControl (r : Region) (v : W64) (s : State) : Ack :=
  let cur := reg s (regionIdx r) 1
  if bit cur 8 then (if v = setBit cur 8 false then done (disableRegion r v s) else refuse errState s)
  else if bit v 8 then (if enableRegionOk s r v then done (enableRegion r v s) else refuse errState s)
  else done (setReg s (regionIdx r) 1 v)

def execRegionEnable (m : Master) (r : Region) (value : W64) (s : State) : Out :=
  .next (commandWrite m (regionIdx r) 1 (wordBytes (setBit value 8 true))
    (fun d => writeRegionControl r (BitVec.ofNat 64 (valueOf d))) s)

def execRegionDisable (m : Master) (r : Region) (s : State) : Out :=
  .next (commandWrite m (regionIdx r) 1 (wordBytes (setBit (reg s (regionIdx r) 1) 8 false))
    (fun d => writeRegionControl r (BitVec.ofNat 64 (valueOf d))) s)

/-! ### Commands (R290, R293, R294, Table 8.4) -/

def regionRefuse (s : State) (r : Region) (code : BitVec 4) : Ack :=
  refuse errState (setRegionDyn s r { regionDyn s r with code := code })

/-- A command is accepted and asks for its grant. -/
def startRun (s : State) (r : Region) (kind : SweepKind) : State :=
  let d := regionDyn s r
  requestGrant (setRegionDyn s r { d with run := some { kind := kind, item := 0, major := 0, resumed := false, newTag := none } })
    (.regionOp r) false

def initialiseRegion (r : Region) (s : State) : Ack :=
  let c := regionCfg s r
  let d := regionDyn s r
  if (c.mode = 3 ∧ d.state = .uninit) ∨ (c.mode = 2 ∧ d.state = .active) then done (startRun s r .initialise)
  else regionRefuse s r 1

/-- The node of a reseed exists. -/
def nodeExists (c : RegionCfg) (level node : Nat) : Bool :=
  c.mode == 3 && decide (1 ≤ level) && decide (level ≤ levelsOf c.lines) && decide (node < nodesAt c.lines level)

def reseedRegion (r : Region) (level node : Nat) (s : State) : Ack :=
  let c := regionCfg s r
  let d := regionDyn s r
  if !(d.state == .active || d.state == .writeLocked) then regionRefuse s r 1
  else if !nodeExists c level node then regionRefuse s r 4
  else if d.ceiling = BitVec.allOnes 64 then
    refuse errState (lockRegion (setRegionDyn s r { d with code := 7 }) r)
  else done (startRun s r (.reseed level node))

/-- A reseed runs: status [4]. -/
def reseeding (s : State) (r : Region) : Bool :=
  match (regionDyn s r).run with
  | some run => match run.kind with
    | .reseed _ _ => true
    | _ => false
  | none => false

/-- A rekey is refused with code 1: in any state but ACTIVE and WRITE_LOCKED, in mode 1, and while a reseed runs (R294). -/
def rekeyBarred (s : State) (r : Region) : Bool :=
  !((regionDyn s r).state == .active || (regionDyn s r).state == .writeLocked) || decide ((regionCfg s r).mode < 2) || reseeding s r

/-- A rekey is accepted: next_key is bound; lines that an earlier sweep left under its own next_key stay lost (R295). -/
def rekeyRegion (r : Region) (s : State) : Ack :=
  let c := regionCfg s r
  let d := regionDyn s r
  if !regionKeyOk s c.mode c.nextKey then regionRefuse s r 2
  else
    let s1 := if d.nextBound then releaseKey s d.nextRef else s
    let s2 := bindRegionKey s1 c.nextKey
    done (startRun (setRegionDyn s2 r { regionDyn s2 r with
      nextBound := true, nextRef := c.nextKey, rekeyAt := 0
      deadBelow := if d.nextBound then Nat.max d.deadBelow d.rekeyAt else d.deadBelow }) r .rekey)

/-- A write of 0x3C01.08 + r. -/
def regionCommand (r : Region) (data : Bytes) (s : State) : Ack :=
  let v := valueOf data
  let busy := (regionDyn s r).run.isSome
  match v % 8 with
  | 1 => if busy then regionRefuse s r 5 else initialiseRegion r s
  | 2 => if rekeyBarred s r then regionRefuse s r 1 else if busy then regionRefuse s r 5 else rekeyRegion r s
  | 3 => if busy then regionRefuse s r 5 else reseedRegion r (v / 8 % 8) (v / 256) s
  | _ => refuse errRange s

def execInitialise (m : Master) (r : Region) (s : State) : Out :=
  .next (commandWrite m (regionIdx r) 8 (toBE 4 1) (regionCommand r) s)
def execRekey (m : Master) (r : Region) (s : State) : Out :=
  .next (commandWrite m (regionIdx r) 8 (toBE 4 2) (regionCommand r) s)
def execReseed (m : Master) (r : Region) (level : BitVec 3) (node : BitVec 24) (s : State) : Out :=
  .next (commandWrite m (regionIdx r) 8 (toBE 4 (3 + level.toNat * 8 + node.toNat * 256)) (regionCommand r) s)

/-- No grant (code 3): the state is left unchanged, a bound next_key is released. -/
def regionDenied (s : State) (r : Region) : State :=
  let d := regionDyn s r
  match d.run with
  | none => s
  | some run =>
    match run.kind with
    | .rekey =>
      let s1 := releaseKey s d.nextRef
      endRun (setRegionDyn s1 r { regionDyn s1 r with nextBound := false, nextRef := keyNone }) r 3
    | _ => endRun s r 3

/-- The byte offset at which a command starts. -/
def sweepStart : SweepKind → Nat
  | .reseed level node => 64 * (node * 64 ^ level)
  | _ => 0

/-- The grant is obtained: the sweep pointer stands at the command's first line, and a mode 3 initialisation enters
INITIALISING (R262, R293). -/
def regionGranted (s : State) (r : Region) : State :=
  let d := regionDyn s r
  match d.run with
  | some run =>
    let d1 := if run.item = 0 then { d with sweep := sweepStart run.kind } else d
    setRegionDyn s r (if run.kind = .initialise ∧ (regionCfg s r).mode = 3 then { d1 with state := .initialising } else d1)
  | none => s

/-- A sweep of the region has a line in work. -/
def sweeping (s : State) (r : Region) : Bool :=
  (memChan s (chanOf (regionCfg s r))).ops.any (fun o => o.work == .sweepLine && o.region == some r)

/-- Requests accepted before a disable are outstanding in some region. -/
def closing (s : State) : Bool := (List.finRange 8).any (fun q => (regionDyn s q).old != [])

/-- The next line of a running command is taken up under its grant (R290, R293, R294, R296), once no earlier record of a
region is in use any more. -/
def sweepRegion (s : State) (r : Region) : State :=
  match (regionDyn s r).run with
  | none => s
  | some run =>
    let c := regionCfg s r
    if pathOn s && grantHeld s (.regionOp r) && decide (run.item < runItems c run) && !sweeping s r && !closing s then
      pump (appendOp s (chanOf c) (newOp .sweepLine 0 0 (some r))) (chanOf c)
    else s

/-- Every item of the running command has been written. -/
def runDone (s : State) (r : Region) (p : SweepKind → Bool) : Bool :=
  match (regionDyn s r).run with
  | some run => p run.kind && decide (runItems (regionCfg s r) run ≤ run.item)
  | none => false

def opDone (s : State) (r : Region) : State := raiseCause s (evRegion r.val) 3 r.val

def withoutPoison (s : State) (p : PoisonEntry → Bool) : State :=
  { s with mem := { s.mem with poison := s.mem.poison.filter (fun e => !p e.2) } }

def execInitialisationComplete (r : Region) (s : State) : Out :=
  .next (if pathOn s && runDone s r (fun k => k == .initialise) then
    let c := regionCfg s r
    let s1 := if c.mode = 3 then
        (let s2 := withoutPoison s (fun p => p.region == r)
         setRegionDyn s2 r { regionDyn s2 r with root := 0, ceiling := 0, poisoned := false, state := .active })
      else s
    opDone (endRun s1 r 0) r
  else s)

/-- The poison entry lies within the subtree of a node. -/
def within (r : Region) (level node : Nat) (p : PoisonEntry) : Bool :=
  p.region == r && decide (p.level ≤ level) && p.node / 64 ^ (level - p.level) == node

def execReseedComplete (r : Region) (s : State) : Out :=
  .next (match (regionDyn s r).run with
    | some run =>
      match run.kind with
      | .reseed level node =>
        if pathOn s && runDone s r (fun _ => true) then
          let s1 := withoutPoison s (within r level node)
          opDone (endRun (setRegionDyn s1 r { regionDyn s1 r with
            ceiling := if (regionDyn s1 r).ceiling.toNat < run.major.toNat then run.major else (regionDyn s1 r).ceiling }) r 0) r
        else s
      | _ => s
    | none => s)

def execRekeyComplete (r : Region) (s : State) : Out :=
  .next (if pathOn s && runDone s r (fun k => k == .rekey) then
    let s1 := releaseKey s (regionCfg s r).key
    let s2 := setReg (setReg s1 (regionIdx r) 6 ((regionDyn s r).nextRef.setWidth 64)) (regionIdx r) 7 (keyNone.setWidth 64)
    opDone (endRun (setRegionDyn s2 r { regionDyn s2 r with
      nextBound := false, nextRef := keyNone, rekeyAt := 0, deadBelow := 0 }) r 0) r
  else s)

/-! ### Objects (Tables 8.1, 8.3, 8.8, 8.12) -/

/-- Rekeying shows in status [3] and forbids writes of next_key. -/
def rekeying (s : State) (r : Region) : Bool :=
  match (regionDyn s r).run with
  | some run => run.kind == .rekey
  | none => false

/-- A range value of the record: a multiple of a unit below a limit. -/
def aligned (v unit limit : Nat) : Bool := v % unit == 0 && decide (v < limit)

/-- A write of next_key; a key bound by a sweep that stopped stays bound (R295). -/
def writeNextKey (r : Region) (data : Bytes) (s : State) : Ack :=
  if rekeying s r then refuse errState s
  else if !keyRefOk (BitVec.ofNat 16 (valueOf data)) true then refuse errRange s
  else putReg (regionIdx r) 7 data s

/-- Writes of 0x3C01 + r. -/
def writeRegionObj (r : Region) (sub : Nat) (data : Bytes) (s : State) : Ack :=
  let v := valueOf data
  let free := !bit (reg s (regionIdx r) 1) 8
  let put : Ack := if free then putReg (regionIdx r) sub data s else refuse errState s
  match sub with
  | 1 => writeRegionControl r (BitVec.ofNat 64 v) s
  | 2 => if aligned v 0x100000 (2 ^ 40) then put else refuse errRange s
  | 3 => if v % 0x100000 = 0 ∧ 0x100000 ≤ v ∧ v ≤ 2 ^ 36 ∧ regN s (regionIdx r) 2 + v ≤ 2 ^ 40 then put else refuse errRange s
  | 4 => if aligned v 4096 (2 ^ 40) then put else refuse errRange s
  | 5 => if aligned v 4096 (2 ^ 40) then put else refuse errRange s
  | 6 => if keyRefOk (BitVec.ofNat 16 v) true then put else refuse errRange s
  | 7 => writeNextKey r data s
  | _ => regionCommand r data s

def regionStateCode : RegionState → Nat
  | .disabled => 0
  | .uninit => 1
  | .initialising => 2
  | .active => 3
  | .writeLocked => 4

/-- Table 8.3. -/
def regionStatus (s : State) (r : Region) : Nat :=
  let d := regionDyn s r
  let c := regionCfg s r
  regionStateCode d.state + (rekeying s r).toNat * 8 + (reseeding s r).toNat * 16 + d.poisoned.toNat * 32 +
    (if c.mode = 3 then levelsOf c.lines else 0) * 2 ^ 8 + d.code.toNat * 2 ^ 16 + d.run.isSome.toNat * 2 ^ 20

/-- 0x3C20.03. -/
def poisonWord (s : State) (n : Nat) : Nat :=
  match spFind s.mem.poison n with
  | some p => 2 ^ 63 + p.region.val * 2 ^ 40 + p.level * 2 ^ 32 + p.node % 2 ^ 24
  | none => 0

def readRegionObj (r : Region) (sub : Nat) (s : State) : Except W32 Bytes :=
  let d := regionDyn s r
  let c := regionCfg s r
  match sub with
  | 6 => regRead s (regionIdx r) 6 2
  | 7 => regRead s (regionIdx r) 7 2
  | 9 => numRead 8 (regionStatus s r)
  | 0x0A => numRead 8 d.sweep
  | 0x0B => numRead 8 d.ceiling.toNat
  | 0x0C => numRead 8 (if c.mode = 3 then 64 * ctrLines c.lines else 0)
  | _ => regRead s (regionIdx r) sub 8

/-- Writes of the Memory regions area. -/
def writeMemoryObj (au : Auth) (idx sub : Nat) (data : Bytes) (s : State) : Ack :=
  if idx = 0x3C00 then putRange idx sub 1 10000 data s
  else if idx = 0x3C20 then putReg (chanIdx au idx) sub data s
  else writeRegionObj (Fin.ofNat 8 (idx - 0x3C01)) sub data s

def readMemoryObj (au : Auth) (idx sub : Nat) (s : State) : Except W32 Bytes :=
  if idx = 0x3C00 then (if sub ≤ 2 then regRead s idx sub 2 else ctrRead s idx sub 8)
  else if idx = 0x3C20 then
    (match sub with
      | 1 => numRead 2 s.mem.poison.length
      | 2 => regRead s (chanIdx au idx) 2 1
      | _ => numRead 8 (poisonWord s (regN s (chanIdx au idx) 2)))
  else if 0x3C11 ≤ idx then ctrRead s idx sub 8
  else readRegionObj (Fin.ofNat 8 (idx - 0x3C01)) sub s

/-! ### Faults (R288, R289) -/

/-- A counter-cache place is lost: a dirty line poisons what it counts or tags, a clean one is discarded. -/
def loseCacheLine (s : State) (n : Nat) : State :=
  match spFind s.mem.cache n with
  | none => s
  | some l =>
    let s1 := { s with mem := { s.mem with cache := spDel s.mem.cache n } }
    if l.dirty then addPoison s1 (lineSubtree l.region l.kind) else s1

/-- A way has been retired: a readable line moves to another way of its set, any other is lost (R207, R442). -/
def retireWay (s : State) (n : Nat) (readable : Bool) : State :=
  match spFind s.mem.cache n with
  | none => s
  | some l =>
    if !readable then loseCacheLine s n else
    match (fillLine .none l).run.run { s with mem := { s.mem with cache := spDel s.mem.cache n } } with
    | (.ok _, s1) => s1
    | (.error _, s1) => if l.dirty then addPoison s1 (lineSubtree l.region l.kind) else s1

/-! ### The clock (R83) -/

/-- The system side takes the response at the head of the buffer. -/
def drainMq (s : State) (k : Chan) : State :=
  let c := memChan s k
  if c.rsp ≠ [] ∧ Config.mqRspReady k.val s.now then pump (setMemChan s k { c with rsp := c.rsp.drop 1 }) k else s

/-- The level of mc_req_ready in the next cycle is taken, and words held on mc_req_ transfer while it is 1 (R53). -/
def sampleMc (s : State) (k : Chan) : State :=
  let c := memChan s k
  let n := s.now + 1
  let r := Config.mcReqReady k.val n
  setMemChan s k { c with
    mcReady := r
    mc := if r then c.mc.map (fun q => if q.sent then q else { q with sent := true, since := n }) else c.mc }

/-- Work of a channel that waits goes on. -/
def workOn (s : State) (k : Chan) : State := if (memChan s k).ops = [] then s else pump s k

/-- One clk_core cycle of the Memory Guard: a response may leave and held requests may go on each channel, and work and
running commands go on. -/
def memoryTick (s : State) : State :=
  let side (s : State) (k : Chan) : State := workOn (sampleMc (drainMq s k) k) k
  if pathOn s then (List.finRange 8).foldl sweepRegion (side (side s 0) 1) else s

/-! ### Resets and power (R298) -/

/-- Requests in flight are lost; a renormalisation keeps the lines it has still to write, and a rekey line is examined
again. -/
def warmChan (c : MemChan) : MemChan :=
  { MemChan.default with
    ops := (c.ops.filter (fun o => match o.work with
      | .renorm _ _ => true
      | _ => false)).map (fun o => { o with got := [], once := [], failed := [] })
    nextSeq := c.nextSeq, lateDiscards := c.lateDiscards, mcReady := c.mcReady }

/-- A running command asks for a grant again; requests of earlier records are lost. -/
def resumeRun (s : State) (r : Region) : State :=
  let s1 := finishClosing s r
  match (regionDyn s1 r).run with
  | some run => requestGrant (setRun s1 r { run with resumed := true }) (.regionOp r) true
  | none => s1

/-- Warm reset, or the loss of PD_PATH with PD_STORE kept: the work of the channels restarts. -/
def memoryWarm (s : State) : State :=
  let s1 := { s with mem := { s.mem with chans := s.mem.chans.map (fun e => (e.1, warmChan e.2)) } }
  let s2 := (List.finRange 8).foldl resumeRun s1
  let own (s : State) (k : Chan) : Bool := (memChan s k).ops.any (fun o => match o.work with
    | .renorm _ _ => o.cause == .none
    | _ => false)
  let again (s : State) (k : Chan) : State := if own s k then (if grantHeld s (.renorm k) then s else holdGrant s (.renorm k) false) else s
  again (again s2 0) 1

/-- Loss of PD_STORE content. -/
def memoryLoseStore (s : State) : State :=
  { s with mem := Memory.default
           regs := s.regs.filter (fun e => !(decide (oa 0x3C01 0 ≤ e.1) && decide (e.1 < oa 0x3C09 0))) }

end Sys2Proof.Machine
end

