-- ==== Sys2Proof/Machine/Ptp.lean ====
section
/-! DEFINITION. Frame headers, and PTP event messages at a time-stamp point: recognition, marking, residence, late-bound
values and FIFO entries (R126, R177, R383 to R393). -/

namespace Sys2Proof.Machine

/-! ### Ethernet headers (R126, R177) -/

def be16 (bs : Bytes) (i : Nat) : Nat := beNat [byteAt bs i, byteAt bs (i + 1)]

def isVlanType (t : Nat) : Bool := t = 0x8100 || t = 0x88A8

/-- VLAN tags after the addresses: at most two (R126). -/
def vlanTags (bs : Bytes) : Nat :=
  if isVlanType (be16 bs 12) then (if isVlanType (be16 bs 16) then 2 else 1) else 0

/-- The EtherType that follows at most two VLAN tags. -/
def etherType (bs : Bytes) : Nat := be16 bs (12 + 4 * vlanTags bs)

/-- Where the bytes after that EtherType begin. -/
def layer3 (bs : Bytes) : Nat := 14 + 4 * vlanTags bs

/-- The VID of the outer tag; 0 without a tag (R177). -/
def outerVid (bs : Bytes) : BitVec 12 := if 0 < vlanTags bs then BitVec.ofNat 12 (be16 bs 14) else 0

/-! ### Recognition (R386 to R388) -/

/-- A recognised event message: where its header starts and whether the engine may modify it. -/
structure PtpMsg where
  h : Nat
  modifiable : Bool
  deriving DecidableEq, Repr

/-- Where the PTP header of a transport starts, and whether the transport can be modified (R386, R388). -/
def ptpTransport (bs : Bytes) : Option PtpMsg :=
  let l := layer3 bs
  let et := etherType bs
  if et = 0x88F7 then (if l + 20 ≤ 64 then some ⟨l, true⟩ else none)
  else if et = 0x0800 then
    if byteAt bs l % 16 = 5 ∧ byteAt bs (l + 9) = 17 ∧ be16 bs (l + 6) % 2 ^ 14 = 0 ∧ be16 bs (l + 22) = 319 ∧ l + 48 ≤ 64
    then some ⟨l + 28, be16 bs (l + 26) == 0⟩ else none
  else if et = 0x86DD then
    if byteAt bs (l + 6) = 17 ∧ be16 bs (l + 42) = 319 ∧ l + 68 ≤ 128 then some ⟨l + 48, false⟩ else none
  else none

/-- An event message in a frame as accepted at fi_ or as presented at fo_ (R386). -/
def ptpMessage (bs : Bytes) : Option PtpMsg :=
  match ptpTransport bs with
  | some m =>
    if m.h + 20 ≤ bs.length ∧ byteAt bs (m.h + 1) % 16 = 2 ∧ (byteAt bs m.h).toNat % 16 ≤ 3 then some m else none
  | none => none

def ptpType (bs : Bytes) (m : PtpMsg) : Nat := (byteAt bs m.h).toNat % 16
def ptpDomain (bs : Bytes) (m : PtpMsg) : Byte := byteAt bs (m.h + 4)
def ptpTwoStep (bs : Bytes) (m : PtpMsg) : Bool := (byteAt bs (m.h + 6)).getLsbD 1
def ptpCorrection (bs : Bytes) (m : PtpMsg) : Int := asInt (BitVec.ofNat 64 (beNat (slice bs (m.h + 8) 8)))
def ptpSpecific (bs : Bytes) (m : PtpMsg) : Nat := beNat (slice bs (m.h + 16) 4)
def ptpSequence (bs : Bytes) (m : PtpMsg) : Nat := be16 bs (m.h + 30)

/-- Bit [31] = 1 and bit [30] = 0 is a mark (R390). -/
def isMark (v : Nat) : Bool := v / 2 ^ 30 == 2

def ptpEnabled (t : Stamps) : Bool := t.cfg.ptpControl.getLsbD 0

/-- The clock of a message: 0 D0, 1 D1, 2 L (R387). -/
def ptpClock (t : Stamps) (dn : Byte) : Nat :=
  if t.cfg.control0.getLsbD 0 && t.cfg.control0.extractLsb' 8 8 == dn then 0
  else if t.cfg.control1.getLsbD 0 && t.cfg.control1.extractLsb' 8 8 == dn then 1 else 2

def stampOfClock (t : Stamps) (c : Nat) : Stamp := if c = 0 then t.d0 else if c = 1 then t.d1 else t.l

/-- The domain bit of a stamp of a clock (R387). -/
def domBit (t : Stamps) (c : Nat) : Bool := if c = 0 then false else if c = 1 then true else decide (t.selected = 1)

/-- inc_X of R391: the domain's inc term, D_s for L. -/
def incOfClock (t : Stamps) (c : Nat) : Nat :=
  if c = 0 then t.cfg.inc0 else if c = 1 then t.cfg.inc1 else if t.selected = 0 then t.cfg.inc0 else t.cfg.inc1

/-- The ingress stamp t_in (R384), compensation in units of 2^-16 ns. -/
def stampIn (t : Stamps) (c : Nat) : Nat :=
  clkAdd (stampOfClock t c).t (-(((t.cfg.dRx.toNat : Int) + asInt t.cfg.asym) * 2 ^ 32))

/-- The egress stamp t_out (R384). -/
def stampOut (t : Stamps) (c : Nat) : Nat := clkAdd (stampOfClock t c).t ((t.cfg.dTx.toNat : Int) * 2 ^ 32)

/-- A sum of correctionField, cut at its largest value (R389, R391). -/
def satCorrection (x : Int) : W64 := BitVec.ofInt 64 (if x > 2 ^ 63 - 1 then 2 ^ 63 - 1 else x)

/-- Replace the bytes at a place. -/
def putBytes (bs : Bytes) (i : Nat) (v : Bytes) : Bytes := bs.take i ++ v ++ bs.drop (i + v.length)

/-! ### Ingress (R389) -/

/-- The mark of an ingress message (R389). -/
def markOf (t : Stamps) : Nat :=
  let kin := roundDiv (6 * ((t.cfg.dRx.toNat : Int) + asInt t.cfg.asym)) (5 * 2 ^ 16)
  2 ^ 31 + (((t.cycle : Int) - kin).emod (2 ^ 30)).toNat

def marksIngress (t : Stamps) (bs : Bytes) (m : PtpMsg) : Bool :=
  m.modifiable && t.cfg.ptpControl.getLsbD 2 && ptpSpecific bs m == 0

def addsLinkDelay (t : Stamps) (bs : Bytes) (m : PtpMsg) : Bool :=
  m.modifiable && t.cfg.ptpControl.getLsbD 3 && ptpType bs m == 0

/-- The received plaintext after the writes of stage 6. -/
def ingressWrite (t : Stamps) (bs : Bytes) (m : PtpMsg) : Bytes :=
  let b1 := if marksIngress t bs m then putBytes bs (m.h + 16) (toBE 4 (markOf t)) else bs
  if addsLinkDelay t bs m then
    putBytes b1 (m.h + 8) (wordBytes (satCorrection (ptpCorrection bs m + t.cfg.linkDelay.toNat)))
  else b1

/-- Not modified (R388, R389): counted in ptp_unmodified. -/
def ingressUnmodified (t : Stamps) (bs : Bytes) (m : PtpMsg) : Bool :=
  !m.modifiable || (t.cfg.ptpControl.getLsbD 2 && ptpSpecific bs m != 0)

/-! ### Egress (R391) -/

/-- r of R391, in cycles. -/
def residenceCycles (t : Stamps) (bs : Bytes) (m : PtpMsg) : Nat :=
  (((t.cycle : Int) - (ptpSpecific bs m % 2 ^ 30 : Nat)).emod (2 ^ 30)).toNat

/-- ρ_res of R391 in units of 2^-16 ns. -/
def residenceOf (t : Stamps) (bs : Bytes) (m : PtpMsg) : Int :=
  roundDiv ((residenceCycles t bs m * incOfClock t (ptpClock t (ptpDomain bs m)) : Nat) : Int) (2 ^ 32) + t.cfg.dTx.toNat

/-- The case of Table 11.1. -/
def egressCase (t : Stamps) (bs : Bytes) (m : PtpMsg) : Nat :=
  let marked := isMark (ptpSpecific bs m)
  if !m.modifiable then 5
  else if marked && decide (t.cfg.maxResidence * 6 < residenceCycles t bs m * 5) then 1
  else if marked && ptpTwoStep bs m then 2
  else if marked && t.cfg.ptpControl.getLsbD 4 then 3
  else if !marked && ptpType bs m == 0 && !ptpTwoStep bs m && t.cfg.ptpControl.getLsbD 1 && decide (m.h + 44 ≤ bs.length) then 4
  else 5

/-- The late-bound fields of an egress message, by their place in the frame as accepted (Table 11.1). -/
def egressFields (t : Stamps) (bs : Bytes) (m : PtpMsg) : List LateField :=
  let out := stampOut t (ptpClock t (ptpDomain bs m))
  match egressCase t bs m with
  | 1 => [⟨m.h + 16, zeros 4⟩]
  | 2 => [⟨m.h + 16, zeros 4⟩]
  | 3 => [⟨m.h + 8, wordBytes (satCorrection (ptpCorrection bs m + residenceOf t bs m))⟩, ⟨m.h + 16, zeros 4⟩]
  | 4 => [⟨m.h + 34, toBE 6 (out / secUnit) ++ toBE 4 (out % secUnit / nsUnit)⟩,
          ⟨m.h + 8, wordBytes (satCorrection (ptpCorrection bs m + (out % nsUnit / 2 ^ 32 : Nat)))⟩]
  | _ => []

/-- The late-bound fields of a transmit frame at its egress point; none when it is no event message. -/
def lateFieldsOf (t : Stamps) (bs : Bytes) : List LateField :=
  if ptpEnabled t then
    match ptpMessage bs with
    | some m => egressFields t bs m
    | none => []
  else []

/-! ### FIFO entries (Table 11.2) -/

def flagByte (msgType : Nat) (notModified corrected inserted marked : Bool) : Byte :=
  BitVec.ofNat 8 (msgType * 16 + notModified.toNat * 8 + corrected.toNat * 4 + inserted.toNat * 2 + marked.toNat)

/-- The entry of a message with its stamp value, port byte, flags and residence. -/
def fifoEntry (t : Stamps) (bs : Bytes) (m : PtpMsg) (stamp : Nat) (portByte flags : Byte) (residence : Nat) : Bytes :=
  let c := ptpClock t (ptpDomain bs m)
  wordBytes (timeStamp (domBit t c) (stampOfClock t c).epoch stamp) ++
    [portByte, flags, ptpDomain bs m, BitVec.ofNat 8 c] ++ toBE 2 (ptpSequence bs m) ++ toBE 6 residence ++ zeros 6

def ingressEntry (t : Stamps) (p : Nat) (bs : Bytes) (m : PtpMsg) : Bytes :=
  fifoEntry t bs m (stampIn t (ptpClock t (ptpDomain bs m))) (BitVec.ofNat 8 p)
    (flagByte (ptpType bs m) (ingressUnmodified t bs m) (addsLinkDelay t bs m) false (marksIngress t bs m)) 0

def egressEntry (t : Stamps) (p : Nat) (bs : Bytes) (m : PtpMsg) : Bytes :=
  let k := egressCase t bs m
  fifoEntry t bs m (stampOut t (ptpClock t (ptpDomain bs m))) (BitVec.ofNat 8 (128 + p))
    (flagByte (ptpType bs m) (!m.modifiable) (k == 3) (k == 4) (isMark (ptpSpecific bs m)))
    (if k = 2 ∨ k = 3 then (residenceOf t bs m).toNat else 0)

/-- Write an entry into the time-stamp FIFO (R393). -/
def pushStamp (s : State) (e : Bytes) : State :=
  if s.time.fifo.length < 512 then { s with time := { s.time with fifo := s.time.fifo ++ [e] } }
  else
    let s1 := bump s 0x4405 4
    if s.time.fifoOverflowed then s1
    else raise { s1 with time := { s1.time with fifoOverflowed := true } } evStampOverflow 0

/-- A recognised message settles at fo_ (R388, R393). -/
def settleIngress (s : State) (t : Stamps) (p : Nat) (bs : Bytes) : State :=
  if !ptpEnabled t then s else
  match ptpMessage bs with
  | none => s
  | some m => pushStamp (if ingressUnmodified t bs m then bump s 0x4405 5 else s) (ingressEntry t p bs m)

/-- A recognised message settles at wo_. -/
def settleEgress (s : State) (t : Stamps) (p : Nat) (bs : Bytes) : State :=
  if !ptpEnabled t then s else
  match ptpMessage bs with
  | none => s
  | some m =>
    let s1 := if m.modifiable then s else bump s 0x4405 5
    let s2 := if egressCase t bs m = 1 then bump s1 0x4405 6 else s1
    pushStamp s2 (egressEntry t p bs m)

end Sys2Proof.Machine
end

