-- ==== Sys2Proof/Machine/Frames.lean ====
section
/-! DEFINITION. The Port Shims and the Frame Cipher Path: structure checks and buffers (02_block_boundary.md, R57 to R67),
the walk of a frame, its verdicts, late binding and settlement (03_frame_cipher_path.md), and period boundaries (R168 to
R170). -/

namespace Sys2Proof.Machine

/-! ### One direction of a port -/

def dirOf (s : State) (p : Nat) : Side → ShimDir
  | .fi => (shim s p).tx
  | .wi => (shim s p).rx

def setDir (s : State) (p : Nat) (side : Side) (d : ShimDir) : State :=
  match side with
  | .fi => setShim s p { shim s p with tx := d }
  | .wi => setShim s p { shim s p with rx := d }

/-- Replace the last frame of a direction. -/
def modLast (g : QFrame → QFrame) : List QFrame → List QFrame
  | [] => []
  | [f] => [g f]
  | f :: fs => f :: modLast g fs

def modLastOf (s : State) (p : Nat) (side : Side) (g : QFrame → QFrame) : State :=
  let d := dirOf s p side
  setDir s p side { d with frames := modLast g d.frames }

def isEventTally : Tally → Bool
  | .event _ _ => true
  | _ => false

def isOpen (f : QFrame) : Bool :=
  match f.phase with
  | .waiting => true
  | .begun _ => true
  | _ => false

def isBegun (f : QFrame) : Bool :=
  match f.phase with
  | .begun _ => true
  | _ => false

/-- A frame that ends before its output is complete: closed under R62 when output has begun, else discarded. It counts
only in the counters of the cause; its events stay. -/
def endFrame (causes : List Tally) (f : QFrame) : QFrame :=
  if isOpen f then
    { f with phase := if isBegun f then .closed else .discarded
             tallies := f.tallies.filter isEventTally ++ causes }
  else f

/-- Its words no longer feed a frame record. -/
def stopFeeding (d : ShimDir) : ShimDir :=
  match d.inp with
  | some o => { d with inp := some { o with live := false } }
  | none => d

/-- End the frame being received, unless it has ended already. -/
def endOpen (s : State) (p : Nat) (side : Side) (causes : List Tally) : State :=
  let d := dirOf s p side
  match d.inp with
  | some o =>
    if o.live then setDir s p side { stopFeeding d with frames := modLast (endFrame causes) d.frames } else s
  | none => s

/-! ### Periods (R168 to R170) -/

/-- The latest boundary at or before a nanosecond of the selected local time, in ns since 0; 0 before the first one
(R168). -/
def lastBoundaryNs (period phase ns : Nat) : Nat :=
  let sec := ns / 1000000000
  let n := ns % 1000000000
  if phase ≤ n then sec * 1000000000 + phase + (n - phase) / period * period
  else if sec = 0 then 0
  else (sec - 1) * 1000000000 + phase + (999999999 - phase) / period * period

/-- The frame was accepted before a boundary at `bound` ns of the epoch. -/
def acceptedBefore (bound : Nat) (epoch : Byte) (f : QFrame) : Bool :=
  f.periodAt.epoch != epoch || decide (f.periodAt.t / nsUnit < bound)

/-- The frame is of context c, its sop word has not transferred, and it belongs to an earlier period. -/
def earlier (c : Nat) (bound : Nat) (epoch : Byte) (f : QFrame) : Bool :=
  f.ctx == some c && isOpen f && f.egress.isNone && acceptedBefore bound epoch f

/-- The counter word of deadline drops (Table 4.5). -/
def deadlineWord (x : Context) : Nat := if x.rx then 27 else 22

/-- A frame that stage 2 gives to a periodic context after the end of its period: R169 discards it then. -/
def outOfPeriod (s : State) (c : Nat) (f : QFrame) : Bool :=
  let x := context s c
  x.periodic && x.period != 0 &&
    acceptedBefore (lastBoundaryNs x.period.toNat x.phase.toNat (localNs s)) s.time.epochL f

/-- The discard of such a frame, with the event of its boundary. -/
def dropLatecomer (s : State) (c : Nat) (f : QFrame) : QFrame :=
  let g := endFrame [.context c (deadlineWord (context s c)) 1] { f with ctx := some c }
  { g with tallies := .event evDeadlineDrop c :: g.tallies }

/-! ### Buffers (R63 to R65) -/

/-- Space of a frame buffer: 48 KiB less 1 KiB for each retired segment; the segments of a port's wire-to-fabric buffer
are units 0 to 47 of array 13 + n, those of its fabric-to-wire buffer units 48 to 95. -/
def bufferSize (s : State) (p : Nat) (side : Side) : Nat :=
  let base := if side = .wi then 0 else 48
  49152 - 1024 * ((List.range 48).filter (fun u => retiredUnit s (13 + p) (base + u))).length

def occupied (d : ShimDir) : Nat := (d.frames.filter isOpen).foldl (fun a f => a + f.bytes.length) 0

def freeSpace (s : State) (p : Nat) (side : Side) : Nat := bufferSize s p side - occupied (dirOf s p side)

/-- fi_ready falls below 256 bytes of room and rises at 512 (R65). -/
def updateReady (s : State) (p : Nat) : State :=
  let d := dirOf s p .fi
  let free := freeSpace s p .fi
  setDir s p .fi { d with readyLow := if free < 256 then true else if 512 ≤ free then false else d.readyLow }

/-- wi_ready and fi_ready (R64 to R66, R68). -/
def inputReady (s : State) (p : Nat) (side : Side) : Bool :=
  pathOn s && portEnabled s p &&
    match side with
    | .wi => true
    | .fi => (dirOf s p .fi).stuck || !(dirOf s p .fi).readyLow

/-! ### Transmit header stages (R126, R127, R177 to R180, R158) -/

/-- The TX_FLOW key of a frame (Table 5.2). -/
def txFlowKey (p : Nat) (bs : Bytes) : Bytes :=
  let vid := outerVid bs
  let hi : Byte := BitVec.ofNat 8 ((if isVlanType (be16 bs 12) then 128 else 0) + vid.toNat / 256)
  [0x01, BitVec.ofNat 8 p] ++ fitTo 6 bs ++ [hi, BitVec.ofNat 8 vid.toNat] ++ toBE 2 (etherType bs) ++ zeros 4

/-- The destination IP address of a frame, when it lies in the header window: family and address. -/
def ipDestination (bs : Bytes) : Option (Bool × Bytes) :=
  let l := layer3 bs
  if etherType bs = 0x0800 ∧ l + 20 ≤ bs.length ∧ l + 20 ≤ 64 then some (false, slice bs (l + 16) 4)
  else if etherType bs = 0x86DD ∧ l + 40 ≤ bs.length ∧ l + 40 ≤ 64 then some (true, slice bs (l + 24) 16)
  else none

/-- The zone of a port (Table 5.6a). -/
def portZone (s : State) (p : Nat) : Byte := (reg s 0x3401 (p + 1)).extractLsb' 8 8

/-- The result that decides a transmit frame (R178), with the hit marks set. -/
def classifyTx (s : State) (p : Nat) (bs : Bytes) : Option W32 × State :=
  let (st, s1) := lookupStream s (txFlowKey p bs)
  let (pf, s2) := match ipDestination bs with
    | some (v6, a) => lookupPrefix s1 v6 (portZone s p) a
    | none => (none, s1)
  let (sa, s3) := lookupStation s2 (stationKey (outerVid bs) (slice bs 0 6))
  let acts (r : Option W32) : Option W32 := r.filter (fun x => resAction x != 0)
  ((acts st).orElse (fun _ => (acts pf).orElse (fun _ => acts sa)), s3)

def discard (causes : List Tally) (f : QFrame) : QFrame := endFrame causes f

/-- SC of a transmit frame (R121). -/
def txSc (s : State) (p : Nat) (sci : W64) (bs : Bytes) : Bool :=
  alwaysSci s p || !(decide (wordBytes sci = slice bs 6 6 ++ [0x00, 0x01]))

/-- Stages 3 and 4 of a transmit frame on context c (R118, R127, R158, R173, R179, R449). -/
def protectTx (s : State) (p c : Nat) (f : QFrame) : State × QFrame :=
  let x := context s c
  if x.rx || x.port.toNat ≠ p || x.retired then (s, discard [.port 14] f) else
  if outOfPeriod s c f then (s, dropLatecomer s c f) else
  let f1 := { f with ctx := some c, timed := x.cls == 1 }
  match chooseTx s c with
  | (s1, .noAssociation) => (s1, discard [.context c 20 1] f1)
  | (s1, .staleKey ev) => (s1, discard [.context c 21 1] { f1 with tallies := f1.tallies ++ ev })
  | (s1, .numbered plan ev) =>
    let f2 := { f1 with disp := .protect { plan with sc := txSc s p plan.sci f.bytes }, tallies := f1.tallies ++ ev }
    (s1, if groupCount s 1 = 0 then discard [.port 12] f2 else f2)

/-- Send unprotected, counted in a port counter. -/
def plainFrame (sub : Nat) (f : QFrame) : QFrame := { f with disp := .plain, tallies := f.tallies ++ [.port sub] }

/-- No match: unmatched_tx applies (R127). -/
def unmatchedFrame (s : State) (p : Nat) (f : QFrame) : State × QFrame :=
  match unmatchedTx s p with
  | 1 => (s, plainFrame 6 f)
  | 2 => protectTx s p (defaultTxContext s p) f
  | _ => (s, discard [.port 14] f)

/-- The header window of a transmit frame is complete. -/
def txHeader (s : State) (p : Nat) (f : QFrame) : State × QFrame :=
  let bs := f.bytes
  if bs.length < 14 then (s, discard [.port 11] f)
  else if etherType bs = 0x8808 ∨ (etherType bs = 0x888E ∧ eapolBypass s p) then (s, plainFrame 8 f)
  else match classifyTx s p bs with
    | (some r, s1) =>
      if resAction r = 1 then protectTx s1 p (resContext r) f
      else if resAction r = 2 then (s1, plainFrame 6 f)
      else (s1, discard [.port 14] f)
    | (none, s1) => unmatchedFrame s1 p f

/-! ### Receive header stages (Table 3.7 rows 1 to 12, R131 to R133, R173, R180) -/

def tciOf (bs : Bytes) : Byte := byteAt bs 14
def tciSc (bs : Bytes) : Bool := bit (tciOf bs) 5
def tciE (bs : Bytes) : Bool := bit (tciOf bs) 3
def tciC (bs : Bytes) : Bool := bit (tciOf bs) 2
def slOf (bs : Bytes) : Nat := (byteAt bs 15).toNat
def secTagLen (sc : Bool) : Nat := if sc then 16 else 8

/-- The clauses of row 5 that the SecTAG alone decides. -/
def badTag (bs : Bytes) : Bool :=
  let t := tciOf bs
  bit t 7 || (tciSc bs && (bit t 6 || bit t 4)) || (tciE bs && !tciC bs) || decide (48 ≤ slOf bs)

/-- Bytes needed after the SecTAG (row 5). -/
def neededAfterTag (bs : Bytes) : Nat := if slOf bs = 0 then 64 else slOf bs + 16

/-- The length clauses of row 5 over the bytes received so far. -/
def tooShort (bs : Bytes) : Bool := decide (bs.length < 12 + secTagLen (tciSc bs) + neededAfterTag bs)

/-- The SCI of a received frame (R122). -/
def rxSci (bs : Bytes) : Bytes := if tciSc bs then slice bs 20 8 else slice bs 6 6 ++ [0x00, 0x01]

def rxSciKey (p : Nat) (bs : Bytes) : Bytes := [0x02, BitVec.ofNat 8 p] ++ rxSci bs ++ zeros 6

/-- The lowest acceptable PN (R132). -/
def lapnOf (nextPn : W64) (window : Nat) : Nat := Nat.max (nextPn.toNat - window) 1

/-- The recovered PN and the early replay check (R132). DESIGN CHOICE (log 70): where the recovery ends late, past the end of
the number space, the manual gives no pn; with replay_protect = 0 the frame uses 0xFFFF_FFFF : pn_lo. -/
def recoverPn (lapn lo : Nat) : Nat × Bool :=
  let hi := lapn / 2 ^ 32
  if lo < lapn % 2 ^ 32 then
    if hi = 0xFFFFFFFF then (hi * 2 ^ 32 + lo, true)
    else ((hi + 1) * 2 ^ 32 + lo, decide ((hi + 1) * 2 ^ 32 + lo < lapn))
  else (hi * 2 ^ 32 + lo, decide (hi * 2 ^ 32 + lo < lapn))

def replayWindow (s : State) (p : Nat) : Nat := regN s (0x2801 + p) 2

/-- A row below row 5 drops the frame: at once, or when the length tests of row 5 have passed (Table 3.7). -/
def dropRow (causes : List Tally) (f : QFrame) : QFrame :=
  if f.lenPending then { f with disp := .refused causes } else discard causes f

/-- Stages 3 and 4 of a receive frame on an enabled receive context c. -/
def verifyRx (s : State) (p c : Nat) (f : QFrame) : QFrame :=
  let x := context s c
  let bs := f.bytes
  let strict := validateFrames s p == 2 || tciC bs
  if outOfPeriod s c f then dropLatecomer s c f else
  let f1 := { f with ctx := some c, timed := x.cls == 1 }
  match rxSlot x ((tciOf bs).extractLsb' 0 2) with
  | none =>
    if strict then dropRow [.context c 22 1] f1
    else { f1 with disp := .unchecked false, tallies := f1.tallies ++ [.context c 23 1] }
  | some i =>
    let a := assocOf x i
    let r := recoverPn (lapnOf a.nextPn (replayWindow s p)) (beNat (slice bs 16 4))
    let late := r.2 || a.pnEnd
    if !frameKeyUsable s a.key then dropRow [.context c 26 1] f1
    else if r.1 = 0 then discard [.port 3] f1
    else if late && replayProtect s p then dropRow [.context c 19 1] f1
    else if validateFrames s p = 0 ∧ tciC bs then dropRow [.context c 18 1] f1
    else
      let plan := { planOf s x a c c i (tciE bs) (BitVec.ofNat 64 r.1) late with sc := tciSc bs }
      let f2 := { f1 with disp := .protect plan }
      if groupCount s 0 = 0 ∧ validateFrames s p ≠ 0 then discard [.port 12] f2 else f2

/-- Stage 2 of a receive frame: the SCI lookup. -/
def sciLookup (s : State) (p : Nat) (f : QFrame) : State × QFrame :=
  let bs := f.bytes
  let (hit, s1) := lookupStream s (rxSciKey p bs)
  let unknown : QFrame :=
    if validateFrames s p = 2 ∨ tciC bs then dropRow [.port 4] f
    else { f with disp := .unchecked false, tallies := f.tallies ++ [.port 5] }
  match hit with
  | some r =>
    let x := context s (resContext r)
    if x.retired then (s1, dropRow [.port 4] f)
    else if x.enable && x.rx && x.port.toNat == p then (s1, verifyRx s1 p (resContext r) f)
    else (s1, unknown)
  | none => (s1, unknown)

/-- The header window of a receive frame is complete. DESIGN CHOICE (log 71): of a frame with VLAN tags before the SecTAG
row 2 tests the EtherType behind up to two of them, and rows 3 to 5 the one at byte 12. -/
def rxHeader (s : State) (p : Nat) (f : QFrame) : State × QFrame :=
  let bs := f.bytes
  if bs.length < 14 then (s, discard [.port 11] f)
  else if etherType bs = 0x8808 ∨ (etherType bs = 0x888E ∧ eapolBypass s p) then (s, plainFrame 9 f)
  else if be16 bs 12 ≠ 0x88E5 then
    (s, if validateFrames s p = 2 then discard [.port 2] f else plainFrame 1 f)
  else if badTag bs then (s, discard [.port 3] f)
  else if tooShort bs ∧ f.complete then (s, discard [.port 3] f)
  else sciLookup s p { f with lenPending := tooShort bs }

/-! ### Accepting words (R58, R61, R64 to R66) -/

def newFrame (s : State) (p : Nat) : QFrame :=
  { bytes := [], complete := false, arrival := stampsNow s p, disp := .waiting, phase := .waiting, tallies := [],
    ctx := none, timed := false, egress := none, late := none, verdict := false, row17 := false, lenPending := false,
    periodAt := { t := localTime s.time, epoch := s.time.epochL }, sent := 0 }

/-- What an aborted frame counts as: errored on transmit (R129). -/
def abortTallies : Side → List Tally
  | .fi => [.port 12]
  | .wi => []

/-- A structural error (Table 2.2): counted and raised at once; an open frame is aborted. -/
def structuralError (s : State) (p : Nat) (side : Side) : State :=
  let s1 := endOpen (raiseCause (bump s (0x2841 + p) 16) (evPort p) 0 p) p side (abortTallies side)
  setDir s1 p side { dirOf s1 p side with inp := none }

/-- Later words are discarded up to the next sop. -/
def skipRest (s : State) (p : Nat) (side : Side) : State :=
  setDir s p side { dirOf s p side with skipping := true }

/-- A sop word opens a frame: admitted, or discarded whole (R64, R66); what a discard counts and raises takes effect when
the frame settles (R145). -/
def openFrame (s : State) (p : Nat) (side : Side) : State :=
  let d := dirOf s p side
  let inp (live : Bool) : Option OpenIn :=
    some { len := 0, words := 0, since := s.now, lastWord := s.now, held := 0, live := live }
  if d.stuck then
    setDir s p side { d with frames := d.frames ++ [discard [.port 18] (newFrame s p)], inp := inp false, skipping := false }
  else if side = .wi ∧ freeSpace s p .wi < maxFrame s p then
    setDir s p side { d with frames := d.frames ++ [discard [.port 17, .cause 1] (newFrame s p)], inp := inp false, skipping := false }
  else setDir s p side { d with frames := d.frames ++ [newFrame s p], inp := inp true, skipping := false }

/-- The output length that the bytes received so far come to: longer than max_frame is too long (R128). -/
def txTooLong (s : State) (p : Nat) (f : QFrame) : Bool :=
  match f.disp with
  | .protect plan => decide (maxFrame s p < f.bytes.length + secTagLen plan.sc + 16)
  | .plain => decide (maxFrame s p < f.bytes.length)
  | _ => false

/-- What the frame's growth decides (R128, R131 row 5, R136). -/
def growthCheck (s : State) (p : Nat) (side : Side) (f : QFrame) : QFrame :=
  match side with
  | .fi => if txTooLong s p f then endFrame [.port 7] f else f
  | .wi =>
    if maxFrame s p < f.bytes.length then endFrame [.port 10] f
    else if f.complete ∧ f.lenPending ∧ tooShort f.bytes then endFrame [.port 3] f
    else match f.disp with
      | .refused causes => if tooShort f.bytes then f else endFrame causes f
      | _ => f

/-- A late-bound field that lies in words accepted after the egress point has the value the same stamps give it (R140,
R144). -/
def rebind (f : QFrame) : QFrame :=
  match f.late, f.egress with
  | some _, some e => { f with late := some (lateFieldsOf e f.bytes) }
  | _, _ => f

/-- The bytes of a word enter the open frame. DESIGN CHOICE (log 72): a frame that is errored and also a runt, or passes
max_frame in the same word, counts as errored alone. -/
def feedFrame (s : State) (p : Nat) (side : Side) (w : FrameWord) (f : QFrame) : State × QFrame :=
  let f1 := rebind { f with bytes := f.bytes ++ (wordBytes w.data).take w.nbytes.toNat, complete := w.eop }
  if w.err then (s, endFrame [.port 12] f1)
  else
    let r := if f1.disp = .waiting ∧ (64 ≤ f1.bytes.length ∨ w.eop) then
        (match side with
          | .fi => txHeader s p f1
          | .wi => if maxFrame s p < f1.bytes.length then (s, f1) else rxHeader s p f1)
      else (s, f1)
    (r.1, growthCheck r.1 p side r.2)

/-- The word enters the frame record that is being fed. -/
def feedLast (s : State) (p : Nat) (side : Side) (w : FrameWord) : State :=
  match (dirOf s p side).frames.getLast? with
  | none => s
  | some f =>
    let r := feedFrame s p side w f
    let s1 := modLastOf r.1 p side (fun _ => r.2)
    if isOpen r.2 then s1 else setDir s1 p side (stopFeeding (dirOf s1 p side))

/-- A well-formed word of the open frame. -/
def takeWord (s : State) (p : Nat) (side : Side) (w : FrameWord) : State :=
  let d := dirOf s p side
  match d.inp with
  | none => s
  | some o =>
    let o1 := { o with len := o.len + w.nbytes.toNat, words := o.words + 1, lastWord := s.now }
    let s1 := setDir s p side { d with inp := some o1 }
    let s2 := if o.live then feedLast s1 p side w else s1
    if w.eop then setDir s2 p side { dirOf s2 p side with inp := none } else s2

def badNbytes (w : FrameWord) : Bool := w.nbytes == 0 || decide (8 < w.nbytes.toNat) || (!w.eop && decide (w.nbytes.toNat < 8))

/-- One word accepted on an input (R53, R61). -/
def acceptWord (p : Nat) (side : Side) (s : State) (w : FrameWord) : State :=
  if !inputReady s p side then s else
  let d := dirOf s p side
  if d.skipping && !w.sop then s
  else if d.inp.isNone && !w.sop then skipRest (structuralError s p side) p side
  else
    let s1 := if w.sop then (if d.inp.isSome then structuralError s p side else s) else s
    let s2 := if w.sop then openFrame s1 p side else s1
    let len := match (dirOf s2 p side).inp with
      | some o => o.len
      | none => 0
    let s3 := if badNbytes w ∨ 16384 < len + w.nbytes.toNat then skipRest (structuralError s2 p side) p side
      else takeWord s2 p side w
    updateReady s3 p

def execTxFrame (port : Port) (words : List FrameWord) (s : State) : Out :=
  .next (words.foldl (acceptWord port.val .fi) s)

def execRxFrame (port : Port) (words : List FrameWord) (s : State) : Out :=
  .next (words.foldl (acceptWord port.val .wi) s)

/-- More than 4,096 cycles without a word inside an open frame (Table 2.2). -/
def execFrameGapTimeout (port : Port) (side : Side) (s : State) : Out :=
  .next (match (dirOf s port.val side).inp with
    | some o =>
      if pathOn s && decide (o.lastWord + 4096 < s.now) then
        updateReady (skipRest (structuralError s port.val side) port.val side) port.val
      else s
    | none => s)

/-- ceil(k · Q) of R110. -/
def scheduleOf (s : State) (p k : Nat) : Nat := ceilDiv (k * 76880) (rateMbps (portRate s p))

/-- The next word is past its deadline (R110). -/
def missed (s : State) (p : Nat) (o : OpenIn) : Bool :=
  o.live && portEnabled s p && decide (o.since + scheduleOf s p o.words + o.held < s.now)

def execInputUnderrun (port : Port) (side : Side) (s : State) : Out :=
  .next (match (dirOf s port.val side).inp with
    | some o =>
      if pathOn s && missed s port.val o then updateReady (endOpen s port.val side [.port 13, .cause 3]) port.val else s
    | none => s)

/-! ### Release (R114, R115) -/

/-- H_r of R113. -/
def headerDeadline (s : State) (p : Nat) : Nat := scheduleOf s p 7
/-- L_T of R113. -/
def latencyOf (s : State) (p : Nat) : Nat := headerDeadline s p + 160

/-- The first cycle in which a frame may be released; even cycles end on a rising edge of clk_tab. -/
def releaseFrom (s : State) (p : Nat) (f : QFrame) : Nat :=
  if f.timed then
    let r := f.arrival.cycle + latencyOf s p
    r + r % 2
  else f.arrival.cycle + headerDeadline s p + 80

def processed (f : QFrame) : Bool :=
  match f.disp with
  | .waiting => false
  | .refused _ => false
  | _ => true

/-- The frames ahead of the first open frame, that frame, and the frames behind it. -/
def splitHead : List QFrame → List QFrame × Option QFrame × List QFrame
  | [] => ([], none, [])
  | f :: fs =>
    if isOpen f then ([], some f, fs)
    else
      let r := splitHead fs
      (f :: r.1, r.2.1, r.2.2)

def rejoin (r : List QFrame × Option QFrame × List QFrame) (g : QFrame → QFrame) : List QFrame :=
  match r.2.1 with
  | some f => r.1 ++ g f :: r.2.2
  | none => r.1

/-- A word of the head frame can transfer now: its sop word once it may be released, a later one once output has begun. -/
def releasable (s : State) (p : Nat) (f : QFrame) : Bool :=
  processed f &&
    match f.phase with
    | .waiting => decide (releaseFrom s p f ≤ s.now)
    | .begun _ => true
    | _ => false

/-- A word transfers at the output: the sop word, with which the frame has begun and its stamps are taken, or a later one
that had been held. -/
def sendWord (s : State) (p : Nat) (f : QFrame) : QFrame :=
  { f with phase := .begun s.now, egress := some (f.egress.getD (stampsNow s p)), sent := f.sent + 1 }

/-! ### The protected frame and its late-bound fields (R120 to R125, R128, R138 to R144) -/

/-- The block cipher of a plan (Table 4.4, klen). -/
def cipherOf (p : CipherPlan) : Block → Block := if p.klen then aes256 p.key else aes128 (p.key.extractLsb' 128 128)

/-- The SecTAG that the engine sends (Tables 3.4 and 3.5). -/
def secTag (p : CipherPlan) (es scb : Bool) (sdLen : Nat) : Bytes :=
  let tci := (!p.sc && es).toNat * 64 + p.sc.toNat * 32 + (!p.sc && scb).toNat * 16 + p.conf.toNat * 12 + p.an.toNat
  [0x88, 0xE5, BitVec.ofNat 8 tci, BitVec.ofNat 8 (if sdLen < 48 then sdLen else 0)] ++ toBE 4 (p.pn.toNat % 2 ^ 32) ++
    (if p.sc then wordBytes p.sci else [])

/-- A frame split for the cipher: additional authenticated data, and the part under the keystream (R125). -/
structure CipherInput where
  aad : Bytes
  text : Bytes
  deriving DecidableEq, Repr

def cipherInput (conf : Bool) (off : Nat) (hdr sd : Bytes) : CipherInput :=
  if conf then ⟨hdr ++ sd.take off, sd.drop off⟩ else ⟨hdr ++ sd, []⟩

/-- The cipher input of a fabric frame on transmit. -/
def txInput (p : CipherPlan) (es scb : Bool) (off : Nat) (bs : Bytes) : CipherInput :=
  cipherInput p.conf off (bs.take 12 ++ secTag p es scb (bs.length - 12)) (bs.drop 12)

/-- The GCM tag T of a plan over additional authenticated data and ciphertext (R124). -/
def planTag (p : CipherPlan) (aad ct : Bytes) : Block := gcmTag (cipherOf p) p.h (j0 p.iv) aad ct

/-- The frame on wo_ for a fabric frame (R128). -/
def protectedFrame (p : CipherPlan) (es scb : Bool) (off : Nat) (bs : Bytes) : Bytes :=
  let i := txInput p es scb off bs
  let ct := ctrCrypt (cipherOf p) (j0 p.iv) i.text
  i.aad ++ ct ++ toBE 16 (planTag p i.aad ct).toNat

/-- Write the late-bound values into a frame. -/
def bindFields (fs : List LateField) (bs : Bytes) : Bytes := fs.foldl (fun b f => putBytes b f.pos f.value) bs

/-- D of R140 over the whole frame: zero outside the fields. -/
def fieldDelta (fs : List LateField) (bs : Bytes) : Bytes := xorBytes (bindFields fs bs) bs

/-- The sum of D_j · H^(m − j + 1) over the blocks of R140 step 2. -/
def deltaSum (h : Block) : List Block → Block
  | [] => 0
  | d :: ds => (if d = 0 then 0 else mulPow d h (ds.length + 1)) ^^^ deltaSum h ds

/-- The frame on wo_ after late binding: the placeholder frame patched by R140 steps 1 and 2. -/
def lateBoundFrame (p : CipherPlan) (es scb : Bool) (off : Nat) (bs : Bytes) (fs : List LateField) : Bytes :=
  let i := txInput p es scb off bs
  let d := fieldDelta fs bs
  let di := cipherInput p.conf off (zeros 12 ++ zeros (secTagLen p.sc)) (d.drop 12)
  let ct := ctrCrypt (cipherOf p) (j0 p.iv) i.text
  let t := planTag p i.aad ct ^^^ deltaSum p.h (blocks di.aad ++ blocks di.text ++ [0])
  xorBytes i.aad di.aad ++ xorBytes ct di.text ++ toBE 16 t.toNat

/-- The late-bound values of a frame whose sop word has transferred. -/
def lateOf (f : QFrame) : List LateField :=
  match f.late, f.egress with
  | some fs, _ => fs
  | none, some e => lateFieldsOf e f.bytes
  | none, none => []

/-- The frame as it left on wo_. -/
def wireBytes (s : State) (p : Nat) (f : QFrame) : Bytes :=
  match f.disp with
  | .protect plan => lateBoundFrame plan (useEs s p) (useScb s p) (confOffset s p) f.bytes (lateOf f)
  | _ => bindFields (lateOf f) f.bytes

/-- The Time Unit supplies the late-bound values of the frame whose sop word transferred (R140). -/
def bindLate (now : Nat) (f : QFrame) : QFrame :=
  match f.phase, f.egress, f.late with
  | .begun _, some e, none => if e.cycle < now then { f with late := some (lateFieldsOf e f.bytes) } else f
  | _, _, _ => f

def execLateBinding (port : Port) (s : State) : Out :=
  .next (if pathOn s then
    let d := dirOf s port.val .fi
    setDir s port.val .fi { d with frames := d.frames.map (bindLate s.now) }
  else s)

/-! ### The receive verdict (Table 3.7 rows 11 to 17, R132 to R135) -/

/-- Where the secure data of a received frame lies: its start and length (R135). -/
def secureData (bs : Bytes) (sc : Bool) : Nat × Nat :=
  let b := 12 + secTagLen sc
  (b, if slOf bs = 0 then bs.length - b - 16 else slOf bs)

/-- The cipher input of a received frame: additional authenticated data, and ciphertext. -/
def rxInput (p : CipherPlan) (off : Nat) (bs : Bytes) : CipherInput :=
  let d := secureData bs p.sc
  cipherInput p.conf off (bs.take d.1) (slice bs d.1 d.2)

/-- The ICV of a received frame. -/
def rxIcv (p : CipherPlan) (bs : Bytes) : Bytes :=
  let d := secureData bs p.sc
  slice bs (d.1 + d.2) 16

def icvGood (p : CipherPlan) (off : Nat) (bs : Bytes) : Bool :=
  let i := rxInput p off bs
  decide (toBE 16 (planTag p i.aad i.text).toNat = rxIcv p bs)

/-- The delivered frame: addresses and plaintext, without SecTAG and ICV. -/
def rxPlain (p : CipherPlan) (off : Nat) (bs : Bytes) : Bytes :=
  let i := rxInput p off bs
  bs.take 12 ++ i.aad.drop (secureData bs p.sc).1 ++ ctrCrypt (cipherOf p) (j0 p.iv) i.text

/-- Octets of secure data: counter word and count (Table 3.8). -/
def rxOctets (c : Nat) (conf sc : Bool) (bs : Bytes) : Tally := .context c (if conf then 25 else 24) (secureData bs sc).2

/-- Rows 13 to 17 for a frame, given the ICV result and the replay check. -/
def verdictRow (mode : Nat) (c good late rprot : Bool) : Nat :=
  if mode = 0 then 11
  else if !good then (if mode = 2 || c then 13 else 14)
  else if late then (if rprot then 15 else 16)
  else 17

/-- The final replay check (R132, R133, R134). -/
def finalLate (s : State) (p : Nat) (plan : CipherPlan) : Bool :=
  if plan.slotKept then
    let a := assocOf (context s plan.owner) plan.slot
    a.pnEnd || decide (plan.pn.toNat < lapnOf a.nextPn (replayWindow s p))
  else plan.late

/-- next_pn, pn_end of the association after row 17 (R132, R133). -/
def advancePn (s : State) (plan : CipherPlan) : State :=
  let x := context s plan.owner
  let a := assocOf x plan.slot
  if plan.pn.toNat < a.nextPn.toNat then s
  else if plan.pn = BitVec.allOnes 64 then setContext s plan.owner (setAssoc x plan.slot { a with pnEnd := true, nextPn := plan.pn })
  else setContext s plan.owner (setAssoc x plan.slot { a with nextPn := plan.pn + 1 })

/-- A receive association reaches the watermark (R163). -/
def rxWatermark (s : State) (plan : CipherPlan) : State × List Tally :=
  let x := context s plan.owner
  let a := assocOf x plan.slot
  if decide (x.watermark.toNat ≤ plan.pn.toNat) && !a.wm then
    (setContext s plan.owner (setAssoc x plan.slot { a with wm := true }), [.event evWatermark plan.owner])
  else (s, [])

/-- What a verdict changes in the frame's slot, with the events of the frame. -/
def verdictSlot (s : State) (plan : CipherPlan) (row : Nat) : State × List Tally :=
  if !plan.slotKept || row = 13 || row = 15 then (s, []) else
  let s1 := if row = 17 then advancePn s plan else s
  let (s2, e2) := if row = 16 ∨ row = 17 then rxSwitch s1 plan.owner plan.slot else (s1, [])
  let (s3, e3) := rxWatermark s2 plan
  (s3, e2 ++ e3)

/-- The context counter of a row. -/
def rowWord : Nat → Nat
  | 11 => 21
  | 13 => 18
  | 14 => 17
  | 15 => 19
  | 16 => 20
  | _ => 16

/-- Stage 8 of a frame. -/
def judge (s : State) (p : Nat) (plan : CipherPlan) (f : QFrame) : State × QFrame :=
  let c := tciC f.bytes
  let row := verdictRow (validateFrames s p) c (icvGood plan (confOffset s p) f.bytes) (finalLate s p plan) (replayProtect s p)
  let (s1, ev) := verdictSlot s plan row
  let f1 := { f with verdict := true, row17 := row == 17, tallies := f.tallies ++ ev }
  if row = 13 ∨ row = 15 then (s1, endFrame [.context plan.ctx (rowWord row) 1] f1)
  else (s1, { f1 with tallies := f1.tallies ++ [.context plan.ctx (rowWord row) 1, rxOctets plan.ctx plan.conf plan.sc f.bytes] })

def awaitsVerdict (f : QFrame) : Bool :=
  isOpen f && !f.verdict &&
    match f.disp with
    | .protect _ => true
    | .waiting => true
    | _ => false

/-- Stage 8 of the first frame that waits for it, in port order. -/
def judgeFirst (s : State) (p : Nat) : List QFrame → State × List QFrame
  | [] => (s, [])
  | f :: fs =>
    if awaitsVerdict f then
      match f.disp with
      | .protect plan =>
        if f.complete then
          let r := judge s p plan f
          (r.1, r.2 :: fs)
        else (s, f :: fs)
      | _ => (s, f :: fs)
    else
      let r := judgeFirst s p fs
      (r.1, f :: r.2)

def execRxVerdict (port : Port) (s : State) : Out :=
  .next (if pathOn s then
    let r := judgeFirst s port.val (dirOf s port.val .wi).frames
    setDir r.1 port.val .wi { dirOf r.1 port.val .wi with frames := r.2 }
  else s)

/-! ### Words at the output (R57 to R59, R62) -/

/-- Bytes 8k to 8k + 7 of a frame as a data word: the first byte in [63:56], unused lanes zero. -/
def laneWord (bytes : Bytes) (k : Nat) : W64 := BitVec.ofNat 64 (beNat (fitTo 8 (slice bytes (8 * k) 8)))

/-- Word k of a frame of which these bytes are known; only the last one may be short. -/
def frameWord (bytes : Bytes) (whole : Bool) (err : Bool) (k : Nat) : Option FrameWord :=
  if 8 * k + 8 < bytes.length ∨ (8 * k + 8 = bytes.length ∧ !whole) then
    some { data := laneWord bytes k, sop := k == 0, eop := false, nbytes := 8, err := false }
  else if whole ∧ 8 * k < bytes.length then
    some { data := laneWord bytes k, sop := k == 0, eop := true, nbytes := BitVec.ofNat 4 (bytes.length - 8 * k), err := err }
  else none

/-- The words of a frame that leaves. -/
def frameWords (o : OutFrame) : List FrameWord :=
  (List.range (ceilDiv o.bytes.length 8)).filterMap (frameWord o.bytes true o.err)

/-- The word that closes an output frame (R62). -/
def closingFrameWord : FrameWord := { data := 0, sop := false, eop := true, nbytes := 8, err := true }

/-! ### Settlement (R145) -/

/-- One tally of a frame takes effect. -/
def applyTally (p : Nat) (s : State) : Tally → State
  | .port sub => bump s (0x2841 + p) sub
  | .context c w n => tallyContext s c w n
  | .cause b => raiseCause s (evPort p) b p
  | .event src d => raise s src d

def settleTallies (s : State) (p : Nat) (f : QFrame) : State :=
  let s1 := f.tallies.foldl (applyTally p) s
  match f.disp with
  | .protect plan => settleSlot s1 plan
  | _ => s1

/-- The delivered frame on fo_. -/
def fabricBytes (s : State) (p : Nat) (f : QFrame) : Bytes :=
  let bs := match f.disp with
    | .protect plan =>
      if validateFrames s p = 0 then f.bytes.take 12 ++ slice f.bytes (secureData f.bytes plan.sc).1 (secureData f.bytes plan.sc).2
      else rxPlain plan (confOffset s p) f.bytes
    | .unchecked _ =>
      let d := secureData f.bytes (tciSc f.bytes)
      f.bytes.take 12 ++ slice f.bytes d.1 d.2
    | _ => f.bytes
  if ptpEnabled f.arrival then
    match ptpMessage bs with
    | some m => ingressWrite f.arrival bs m
    | none => bs
  else bs

/-- Plaintext before the writes of stage 6. -/
def plaintextOf (s : State) (p : Nat) (f : QFrame) : Bytes :=
  fabricBytes s p { f with arrival := { f.arrival with cfg := { f.arrival.cfg with ptpControl := 0 } } }

/-- Learning from a delivered frame (R197). -/
def learnFrom (s : State) (p : Nat) (f : QFrame) (bs : Bytes) : State :=
  let mode := field (reg s 0x3401 (p + 1)) 1 0
  if (mode = 2 ∨ (mode = 1 ∧ f.row17)) ∧ !s.cls.learnStopped then
    pushLearn s { mac := slice bs 6 6, vid := outerVid bs, port := Fin.ofNat 32 p }
  else s

/-- The context octets of a receive frame delivered unchecked under row 9. -/
def uncheckedOctets (f : QFrame) : List Tally :=
  match f.disp, f.ctx with
  | .unchecked _, some c => [rxOctets c false (tciSc f.bytes) f.bytes]
  | _, _ => []

/-- The context counters of a transmitted frame (Table 3.8). -/
def sentTallies (f : QFrame) : List Tally :=
  match f.disp with
  | .protect plan =>
    if plan.conf then [.context plan.ctx 18 1, .context plan.ctx 19 (f.bytes.length - 12)]
    else [.context plan.ctx 16 1, .context plan.ctx 17 (f.bytes.length - 12)]
  | _ => []

/-- A transmit frame has left whole. -/
def settleSent (s : State) (p : Nat) (f : QFrame) : State :=
  let s1 := settleTallies s p { f with tallies := f.tallies ++ sentTallies f }
  match f.egress with
  | some e => settleEgress s1 e p f.bytes
  | none => s1

/-- A receive frame has been delivered. -/
def settleDelivered (s : State) (p : Nat) (f : QFrame) : State :=
  let bs := plaintextOf s p f
  let s1 := settleTallies s p { f with tallies := f.tallies ++ uncheckedOctets f }
  learnFrom (settleIngress s1 f.arrival p bs) p f (fabricBytes s p f)

/-- Its output can have ended: complete, begun and judged where a verdict is due. -/
def outputDone (side : Side) (f : QFrame) : Bool :=
  f.complete && isBegun f && f.egress.isSome && (side == .fi || !awaitsVerdict f)

/-- The closing word of R62. -/
def closingWord : OutFrame := { bytes := zeros 8, err := true }

/-- Take the first frame out of a direction. -/
def popFrame (s : State) (p : Nat) (side : Side) (out : Option OutFrame) (ended : Bool) : State :=
  let d := dirOf s p side
  updateReady (setDir s p side { d with frames := d.frames.drop 1, lastOut := out.orElse (fun _ => d.lastOut)
                                        stuck := if ended then false else d.stuck }) p

/-- What can be sent so far of a frame that has begun, and whether that is all of it: the ICV of a transmit frame, and the
last plaintext word of a receive frame before its verdict, come with the end. -/
def outputSoFar (s : State) (p : Nat) (side : Side) (f : QFrame) : Bytes × Bool :=
  let held (n : Nat) (b : Bytes) : Bytes := b.take (b.length - n)
  match side with
  | .fi => if f.complete then (wireBytes s p f, true) else (held 16 (wireBytes s p f), false)
  | .wi => if f.complete && !awaitsVerdict f then (fabricBytes s p f, true) else (held 9 (fabricBytes s p f), false)

/-- The word presented on wo_ or fo_ (valid = 1): the next one of the frame that has begun, or the closing word. With none,
valid and every payload signal are 0. -/
def outWord (s : State) (p : Nat) (side : Side) : Option FrameWord :=
  if !(pathOn s && portEnabled s p) then none else
  match (dirOf s p side).frames with
  | f :: _ =>
    (match f.phase with
      | .begun _ => frameWord (outputSoFar s p side f).1 (outputSoFar s p side f).2 false f.sent
      | .closed => some closingFrameWord
      | _ => none)
  | [] => none

def execFrameRelease (port : Port) (side : Side) (s : State) : Out :=
  .next (
    let d := dirOf s port.val side
    let r := splitHead d.frames
    match r.2.1 with
    | some f =>
      if pathOn s && portEnabled s port.val && releasable s port.val f &&
          (f.egress.isNone || (outWord s port.val side).isSome) then
        setDir s port.val side { d with
          frames := rejoin r (sendWord s port.val)
          stuck := if isBegun f then false else d.stuck }
      else s
    | none => s)

/-- The first frame of a direction settles. -/
def settleFirst (s : State) (p : Nat) (side : Side) (f : QFrame) : State :=
  match f.phase with
  | .discarded => popFrame (settleTallies s p f) p side none false
  | .closed => popFrame (settleTallies s p f) p side (some closingWord) true
  | _ =>
    if outputDone side f then
      match side with
      | .fi => popFrame (settleSent s p f) p side (some ⟨wireBytes s p f, false⟩) true
      | .wi => popFrame (settleDelivered s p f) p side (some ⟨fabricBytes s p f, false⟩) true
    else s

def execFrameSettle (port : Port) (side : Side) (s : State) : Out :=
  .next (match (dirOf s port.val side).frames with
    | f :: _ => if pathOn s then settleFirst s port.val side f else s
    | [] => s)

/-! ### Stuck ports and period boundaries (R66, R168 to R170) -/

/-- The cycle since which the head's word can have been held, when one is presented. -/
def presentedSince (s : State) (p : Nat) (f : QFrame) : Option Nat :=
  match f.phase with
  | .begun n => some n
  | .waiting => if processed f && decide (releaseFrom s p f ≤ s.now) then some (releaseFrom s p f) else none
  | _ => none

def stallLimit (s : State) (p : Nat) : Nat := usCycles (regN s (0x2801 + p) 3)

/-- Frames not begun at the output are discarded. -/
def dropWaiting (causes : List Tally) (f : QFrame) : QFrame :=
  if f.phase = .waiting then endFrame causes f else f

/-- The frames after the head are discarded, and a head that stands presented counts as begun. -/
def enterStuck (s : State) (p : Nat) (side : Side) : State :=
  let d := dirOf s p side
  let r := splitHead d.frames
  let head (f : QFrame) : QFrame := if isBegun f then f else { f with phase := .begun s.now }
  let frames := (r.1 ++ match r.2.1 with
    | some f => head f :: r.2.2.map (dropWaiting [.port 18])
    | none => [])
  let d1 := { d with frames := frames, stuck := true }
  let fed := match frames.getLast? with
    | some f => isOpen f
    | none => false
  updateReady (setDir (raiseCause s (evPort p) 2 p) p side (if fed then d1 else stopFeeding d1)) p

def execPortStuck (port : Port) (side : Side) (s : State) : Out :=
  .next (
    let d := dirOf s port.val side
    match (splitHead d.frames).2.1 with
    | some f =>
      match presentedSince s port.val f with
      | some n =>
        if pathOn s && portEnabled s port.val && !d.stuck && decide (n + stallLimit s port.val < s.now)
        then enterStuck s port.val side else s
      | none => s
    | none => s)

/-- The frames of earlier periods are discarded; one whose sop word stands presented keeps it presented (R54) and is closed
under R62. -/
def dropFramesOf (c word : Nat) (hit : QFrame → Bool) (d : ShimDir) : ShimDir :=
  let d2 := { d with frames := d.frames.map (fun f => if hit f then endFrame [.context c word 1] f else f) }
  match d2.frames.getLast? with
  | some f => if isOpen f then d2 else stopFeeding d2
  | none => d2

/-- The port and direction of a context's frames. -/
def contextSide (x : Context) : Side := if x.rx then .wi else .fi

/-- R169 in the direction and port of a periodic context, for a boundary at `bound` ns. -/
def boundaryOf (s : State) (c : Nat) (bound : Nat) : State :=
  let x := context s c
  let p := x.port.toNat
  let d := dirOf s p (contextSide x)
  let hit := earlier c bound s.time.epochL
  if x.periodic && d.frames.any hit then
    updateReady (setDir (raise s evDeadlineDrop c) p (contextSide x) (dropFramesOf c (deadlineWord x) hit d)) p
  else s

def execPeriodBoundary (ctx : Fin 8192) (s : State) : Out :=
  .next (
    let x := context s ctx.val
    if pathOn s && x.period != 0 then
      boundaryOf s ctx.val (lastBoundaryNs x.period.toNat x.phase.toNat (localNs s))
    else s)

/-- A frame accepted in the cycle of a step of L belongs to the period that the step opens (R168, R170). -/
def relabelFrame (now : Nat) (l : Stamp) (f : QFrame) : QFrame := if f.arrival.cycle = now then { f with periodAt := l } else f

def relabelDir (now : Nat) (l : Stamp) (d : ShimDir) : ShimDir := { d with frames := d.frames.map (relabelFrame now l) }

/-- A step of the selected local time acts as a boundary of every periodic context, for every frame of an earlier cycle
(R170). -/
def stepBoundaries (s : State) : State :=
  let l : Stamp := { t := localTime s.time, epoch := s.time.epochL }
  let s1 := { s with shims := s.shims.map (fun (e : Nat × Shim) => (e.1, { tx := relabelDir s.now l e.2.tx, rx := relabelDir s.now l e.2.rx })) }
  (s1.contexts.map Prod.fst).foldl (fun s c => boundaryOf s c 0) s1

/-! ### Port settings (R107 to R109, R127, R27, R450) -/

/-- The sum of the port rates with the rate of port p replaced. -/
def rateSum (s : State) (p rate : Nat) : Nat :=
  (List.range 32).foldl (fun a q => a + rateMbps (if q = p then rate else portRate s q)) 0

/-- default_tx_context names a transmit context of the port (R127). -/
def txContextOf (s : State) (p c : Nat) : Bool := !(context s c).rx && !(context s c).retired && (context s c).port.toNat == p

/-- R109: the port is disabled. -/
def disableDir (s : State) (p : Nat) (side : Side) : State :=
  let d := dirOf s p side
  let stop (f : QFrame) : QFrame := if isBegun f then endFrame [] f else endFrame [.port 15] f
  setDir s p side { d with frames := d.frames.map stop, inp := none, skipping := false, stuck := false, readyLow := false }

def disablePort (s : State) (p : Nat) : State := disableDir (disableDir s p .fi) p .wi

/-- The refusal of a port control write while the rate is 0; none when it is accepted. -/
def portControlBad (s : State) (p : Nat) (v : W64) : Option W32 :=
  let def0 := field v 44 32
  if field v 4 3 = 3 ∨ field v 11 10 = 3 ∨ field v 13 12 = 3 ∨ field v 30 16 < 64 ∨ 16384 < field v 30 16 then some errRange
  else if (def0 ≠ defaultTxContext s p ∨ field v 11 10 = 2) ∧ !txContextOf s p def0 then some errRange
  else if field v 2 0 ≠ 0 ∧ portRateLimit s < rateSum s p (field v 2 0) then some errRange
  else none

def writePortControl (p : Nat) (v : W64) (s : State) : Ack :=
  let cur := portControl s p
  if portRate s p ≠ 0 then
    if v = setField cur 2 0 0 then done (setReg (disablePort s p) (0x2801 + p) 1 v) else refuse errState s
  else match portControlBad s p v with
    | some c => refuse c s
    | none => done (setReg s (0x2801 + p) 1 v)

/-- Writes of the port objects 0x2801 to 0x2820. -/
def writePortObj (idx sub : Nat) (data : Bytes) (s : State) : Ack :=
  match sub with
  | 1 => writePortControl (idx - 0x2801) (BitVec.ofNat 64 (valueOf data)) s
  | 2 => putRange idx sub 0 (2 ^ 30) data s
  | _ => putRange idx sub 1 1000000 data s

def readPortObj (idx sub : Nat) (s : State) : Except W32 Bytes :=
  if 0x2841 ≤ idx then ctrRead s idx sub 8 else regRead s idx sub (if sub = 1 then 8 else 4)

def execPortControlWrite (m : Master) (port : Port) (value : W64) (s : State) : Out :=
  .next (commandWrite m (0x2801 + port.val) 1 (wordBytes value) (writePortObj (0x2801 + port.val) 1) s)

def execPortDisable (m : Master) (port : Port) (s : State) : Out :=
  .next (commandWrite m (0x2801 + port.val) 1 (wordBytes (setField (portControl s port.val) 2 0 0))
    (writePortObj (0x2801 + port.val) 1) s)

/-! ### Resets and power (R163, R176, R410) -/

/-- Frames in flight are lost: the shims return to reset (R176). -/
def dropFrames (s : State) : State := { s with shims := [] }

end Sys2Proof.Machine
end

