-- ==== Sys2Proof/Machine/Trunk.lean ====
section
/-! DEFINITION. The Trunk Controller (09, 10): settings, keys, going down, credits and acknowledgement, and the sending
side from the fabric's words to coded groups (R299 to R326, R335 to R344, R372). -/

namespace Sys2Proof.Machine

/-! ### Settings (Tables 9.12 and 10.2) -/

def nodeId (s : State) (t : Trunk) : W16 := (reg s (0x4001 + t.val) 1).setWidth 16
def trunkKey (s : State) (t : Trunk) : W16 := (reg s (0x4001 + t.val) 2).setWidth 16
def trunkNextKey (s : State) (t : Trunk) : W16 := (reg s (0x4001 + t.val) 3).setWidth 16
def allocOf (s : State) (t : Trunk) (v : Nat) : Nat := regN s (0x4001 + t.val) (6 + v)
def mgmtN (s : State) (t : Trunk) (sub : Nat) : Nat := regN s (0x4005 + t.val) sub
def trunkEnabled (s : State) (t : Trunk) : Bool := bit (reg s (0x4005 + t.val) 1) 0
def laneMask (s : State) (t : Trunk) : Byte := BitVec.ofNat 8 (field (reg s (0x4005 + t.val) 1) 8 1)
def widthMax (s : State) (t : Trunk) : Nat := mgmtN s t 2
def minWidth (s : State) (t : Trunk) : Nat := mgmtN s t 3

def updTrunk (s : State) (t : Trunk) (f : TrunkSt → TrunkSt) : State := setTrunk s t (f (trunk s t))

/-- A transport counter of R346 and a management counter of R375. -/
def transportCtr (s : State) (t : Trunk) (k : Nat) : State := bump s (0x4011 + t.val) k
def mgmtCtr (s : State) (t : Trunk) (k n : Nat) : State := bumpBy s (0x4015 + t.val) k n

def raiseTrunk (s : State) (t : Trunk) (j : Nat) : State := raise s (evTrunk t.val j) t.val

/-- The trunk protocol-error event with its counter (R346). -/
def protocolError (s : State) (t : Trunk) : State := raiseTrunk (transportCtr s t 19) t 10

/-- The trunk is up (R347). -/
def trunkUp (s : State) (t : Trunk) : Bool := (trunk s t).state == .up

/-! ### Lane sets -/

def maskLanes (m : Byte) : List Nat := (List.range 8).filter (fun l => m.getLsbD l)
def lanesMask (ls : List Nat) : Byte := ls.foldl (fun m l => setBit m l true) 0
def widthOf (m : Byte) : Nat := (maskLanes m).length

def laneOf (x : TrunkSt) (l : Nat) : Lane := spGet laneDefault x.lanes l
def setLane (x : TrunkSt) (l : Nat) (y : Lane) : TrunkSt := { x with lanes := spSet laneDefault x.lanes l y }

/-- The lanes aligned at this end's receiver: rx_good of Table 10.6. -/
def rxGood (x : TrunkSt) : Byte := lanesMask ((List.range 8).filter (fun l => (laneOf x l).aligned))
def degradedMask (x : TrunkSt) : Byte := lanesMask ((List.range 8).filter (fun l => (laneOf x l).degraded))

/-- The standby lanes: aligned, enabled and not active (10, Lanes in service). -/
def standbyMask (s : State) (t : Trunk) : Byte := rxGood (trunk s t) &&& laneMask s t &&& ~~~(trunk s t).active

/-! ### Going down, grants and failures (R351, R359, R372) -/

/-- Ask for the link-training grant (R351). -/
def enterGrant (s : State) (t : Trunk) : State :=
  requestGrant (updTrunk s t (fun x => { x with state := .grant })) (.training t) false

/-- Everything that framing and training hold is dropped; entries, queues, E and the session identity are kept (R372). -/
def quiet (x : TrunkSt) : TrunkSt :=
  { x with sender := .down, commands := [], lineOut := [], changing := [], deferred := none, retrainLeft := 0, retrainIn := false,
           timerStart := none, framing := .between, ackDue := false, starved := [], headSince := [], active := 0,
           rxActive := 0, ts1Partner := none, ts2Partner := none, ts3Since := none, ts3Good := false, pauseSince := none }

/-- DISABLED: the lanes are off (R349). -/
def enterDisabled (s : State) (t : Trunk) : State :=
  releaseGrant (updTrunk s t (fun x => { quiet x with state := .disabled, lanes := [], partnerGood := 0, partnerDegraded := 0 }))
    (.training t)

/-- The trunk goes down with a cause of Table 10.5 (R372); with enable at 1 again after cause 8, DISABLED is left at once
(Table 10.1). -/
def trunkDown (s : State) (t : Trunk) (cause : Nat) : State :=
  let s1 := raiseTrunk (mgmtCtr s t 1 1) t 1
  let s2 := updTrunk s1 t (fun x => { quiet x with lastDown := cause })
  let s3 := if cause = 8 ∨ !trunkEnabled s t then enterDisabled s2 t else s2
  if trunkEnabled s t then enterGrant s3 t else s3

/-- The backoff after k consecutive failures, in µs (R359 step 4). -/
def backoffUs (s : State) (t : Trunk) (k : Nat) : Nat := Nat.min (16 * 2 ^ Nat.min (k - 1) 16) (mgmtN s t 8)

/-- A training failure (R359). -/
def trainingFailure (s : State) (t : Trunk) (code : Nat) : State :=
  let s1 := releaseGrant (mgmtCtr s t 3 1) (.training t)
  let x := trunk s t
  let k := x.failures + 1
  let s2 := if !x.failRaised || k % 256 == 0 then raiseTrunk s1 t 2 else s1
  updTrunk s2 t (fun x => { quiet x with state := .backoff, failures := k, failRaised := true, lastFail := code,
                                         backoffStart := s.now })

/-! ### Keys (R309, R311, R339 to R344) -/

/-- A key with its hash subkey and session salt. -/
structure UnitKey where
  value : KeyVal
  h : Block
  salt : BitVec 96
  deriving DecidableEq, Repr

/-- The key of a reference whose latch is valid (R20). -/
def unitKey (s : State) (k : W16) (salt : BitVec 96) : Option UnitKey :=
  if keyUsable s k then some ⟨slotValue s k, slotH256 s k, salt⟩ else none

/-- S of R311: bits [127:32] of the two encrypted nonces' sum. -/
def sessionSalt (k : KeyVal) (a b : Block) : BitVec 96 := (aes256 k a ^^^ aes256 k b).extractLsb' 32 96

/-- nkr of R340. -/
def nkr (s : State) (t : Trunk) : Bool := keyUsable s (trunkNextKey s t)

/-- The key of transmissions made now (R341). -/
def txKey (s : State) (t : Trunk) : Option UnitKey :=
  let x := trunk s t
  if x.txOnNext then unitKey s (trunkNextKey s t) x.saltNext else unitKey s (trunkKey s t) x.salt

/-- The selection of R329: the key, and whether it is next_key taken before the receive phase has switched. -/
def rxKey (s : State) (t : Trunk) (kp : Bool) : Option UnitKey :=
  let x := trunk s t
  match x.rxOnNext, kp == x.rxKp with
  | false, true => unitKey s (trunkKey s t) x.salt
  | false, false => unitKey s (trunkNextKey s t) x.saltNext
  | true, true => unitKey s (trunkNextKey s t) x.saltNext
  | true, false => none

/-- next_key becomes the key (R343). -/
def promoteKey (s : State) (t : Trunk) : State :=
  let s1 := releaseKey s (trunkKey s t)
  let s2 := setReg s1 (0x4001 + t.val) 2 ((trunkNextKey s t).setWidth 64)
  let s3 := setReg s2 (0x4001 + t.val) 3 (keyNone.setWidth 64)
  raiseTrunk (updTrunk s3 t (fun x => { x with txOnNext := false, rxOnNext := false, salt := x.saltNext })) t 14

/-- The change of R343 in the cycle in which both directions have switched. -/
def settleRekey (s : State) (t : Trunk) : State :=
  if (trunk s t).txOnNext && (trunk s t).rxOnNext then promoteKey s t else s

/-- The sender's switch of R341. -/
def maySwitchTx (s : State) (t : Trunk) : Bool :=
  let x := trunk s t
  nkr s t && x.partnerNkr && !x.txOnNext &&
    (decide ((reg s (0x4001 + t.val) 4).toNat ≤ x.n) || !keyUsable s (trunkKey s t))

/-- The transmit key at a unit boundary: R341, and R344 when the current key is lost. -/
def settleTxKey (s : State) (t : Trunk) : State :=
  if maySwitchTx s t then settleRekey (updTrunk s t (fun x => { x with txKp := !x.txKp, txOnNext := true })) t
  else if (txKey s t).isNone && (trunk s t).sender ≠ .keyHalt then
    raiseTrunk (updTrunk s t (fun x => { x with sender := .keyHalt })) t 15
  else s

/-- The receive phase switches at an accepted unit whose kp differs (R342). -/
def switchRx (s : State) (t : Trunk) (kp : Bool) : State :=
  if kp == (trunk s t).rxKp then s
  else settleRekey (updTrunk s t (fun x => { x with rxKp := !x.rxKp, rxOnNext := true })) t

/-- d of Table 9.5 for a unit sent by this end (true) or by the partner. -/
def ivDir (s : State) (t : Trunk) (own : Bool) : Bool :=
  let below := decide ((nodeId s t).toNat < (trunk s t).peerNode.toNat)
  if own then !below else below

/-- The IV of a unit (R310, Table 9.5). -/
def unitIv (salt : BitVec 96) (d k : Bool) (r count : Nat) : BitVec 96 :=
  salt ^^^ BitVec.ofNat 96 (d.toNat * 2 ^ 95 + k.toNat * 2 ^ 94 + r % 16 * 2 ^ 90 + count % 2 ^ 64)

/-- A GMAC tag, bits [127:64], over some bytes (R313, R356, R364). -/
def unitMac (k : UnitKey) (iv : BitVec 96) (aad : Bytes) : Bytes :=
  toBE 8 ((gcmTag (aes256 k.value) k.h (j0 iv) aad []).toNat / 2 ^ 64)

/-! ### Credits and changes to carry (R319, R321, R335 to R338) -/

/-- The charge of a payload of P bytes (R317). -/
def chargeOf (p : Nat) : Nat := ceilDiv (p + 32) 64

def crOf (x : TrunkSt) (v : Nat) : Nat := spGet natZero x.cr v
def setCr (x : TrunkSt) (v n : Nat) : TrunkSt := { x with cr := spSet natZero x.cr v n }
def cntZero (_ : Nat) : BitVec 12 := 0
def cRetOf (x : TrunkSt) (v : Nat) : BitVec 12 := spGet cntZero x.cRet v
def cSeenOf (x : TrunkSt) (v : Nat) : BitVec 12 := spGet cntZero x.cSeen v

/-- A value that headers and ACK flits carry has changed in cycle `now`. -/
def noteUncarried (now : Nat) (item : Nat) (x : TrunkSt) : TrunkSt :=
  if x.changes.any (fun c => c.1 == item) then x else { x with changes := x.changes ++ [(item, now)] }

def carried (item : Nat) (x : TrunkSt) : TrunkSt := { x with changes := x.changes.filter (fun c => c.1 != item) }

/-- Room and credit of a payload return (R332). -/
def returnCredit (now : Nat) (v charge : Nat) (x : TrunkSt) : TrunkSt :=
  noteUncarried now v { x with cRet := spSet cntZero x.cRet v (cRetOf x v + BitVec.ofNat 12 charge) }

/-- A received counter value (R337). -/
def applyCredit (s : State) (t : Trunk) (v : Nat) (value : BitVec 12) : State :=
  let x := trunk s t
  let d := (value - cSeenOf x v).toNat
  if d = 0 ∨ 2048 ≤ d then s
  else if d ≤ spGet natZero x.partnerAlloc v - crOf x v then
    updTrunk s t (fun x => { setCr x v (crOf x v + d) with cSeen := spSet cntZero x.cSeen v value })
  else raiseTrunk (transportCtr s t 15) t 10

/-- O of R322. -/
def outstanding (x : TrunkSt) : Nat := x.n - x.u

/-- The round ends when the pointer reaches N (R324). -/
def endRound (x : TrunkSt) : TrunkSt :=
  if x.sender = .replay ∧ x.n ≤ x.replayPtr then { x with sender := .run } else x

/-- An ack value (R322, R323). -/
def applyAck (s : State) (t : Trunk) (a : W16) : State :=
  let x := trunk s t
  let d := (a - BitVec.ofNat 16 x.u).toNat
  if d = 0 ∨ 32768 ≤ d then s
  else if d ≤ outstanding x then
    updTrunk s t (fun x =>
      let u := x.u + d
      endRound { x with u := u, entries := x.entries.filter (fun e => decide (u ≤ e.esn)), replayPtr := Nat.max x.replayPtr u,
                        timerStart := if u = x.n then none else some s.now })
  else raiseTrunk (transportCtr s t 15) t 10

/-! ### Transmit queues (R75, R316, Table 13.3) -/

def qNone (_ : Nat) : List TxPayload := []
def txQueue (x : TrunkSt) (v : Nat) : List TxPayload := spGet qNone x.txQ v
def setTxQueue (x : TrunkSt) (v : Nat) (q : List TxPayload) : TrunkSt := { x with txQ := spSet qNone x.txQ v q }

/-- 64-byte units of channel v's queue in use, with the payload being accepted and `extra` more bytes of it. -/
def queueUnits (x : TrunkSt) (v extra : Nat) : Nat :=
  let open0 := match x.tfOpen with
    | some o => if o.vc.toNat = v then o.bytes.length else 0
    | none => 0
  (txQueue x v).foldl (fun a p => a + ceilDiv p.payload.length 64) 0 + ceilDiv (open0 + extra) 64

/-- Units of channel v's queue that are not retired, of 256 (arrays 11 and 12). -/
def queueCapacity (s : State) (t : Trunk) (v : Nat) : Nat :=
  256 - ((List.range 256).filter (fun u => retiredUnit s (11 + t.val) (256 * v + u))).length

/-- tf_tx_ready bit v (R75, R316). -/
def tfReady (s : State) (t : Trunk) (v : Nat) : Bool :=
  pathOn s && trunkUp s t && decide (queueUnits (trunk s t) v 32 ≤ queueCapacity s t v)

/-- The open tf_tx_ payload is discarded (R75); words are skipped up to the next sop when `skip`. -/
def dropTf (s : State) (t : Trunk) (skip : Bool) : State :=
  updTrunk (protocolError s t) t (fun x => { x with tfOpen := none, tfSkip := skip })

/-- The valid bytes of a word. -/
def tfBytes (w : TfWord) : Bytes := (wordBytes w.data).take w.nbytes.toNat

def tfBad (w : TfWord) : Bool := w.nbytes == 0 || decide (32 < w.nbytes.toNat) || (!w.eop && decide (w.nbytes.toNat < 32))

/-- A word of the open payload that breaks none of the rules of Table 2.2. -/
def takeTf (s : State) (t : Trunk) (w : TfWord) : State :=
  match (trunk s t).tfOpen with
  | none => s
  | some o =>
    let bytes := o.bytes ++ tfBytes w
    if o.vc ≠ w.vc ∨ o.dst ≠ w.dst ∨ w.err ∨ 2048 < bytes.length ∨ tfBad w then dropTf s t (!w.eop)
    else if !w.eop then updTrunk s t (fun x => { x with tfOpen := some { o with bytes := bytes, lastWord := s.now } })
    else if bytes.length < 32 then dropTf s t false
    else updTrunk s t (fun x =>
      let x1 := setTxQueue x o.vc.toNat (txQueue x o.vc.toNat ++ [⟨o.dst, bytes, o.acceptedAt, o.acceptedIn⟩])
      { x1 with tfOpen := none })

def openTf (s : State) (t : Trunk) (w : TfWord) : State :=
  let o : TfOpen := { vc := w.vc, dst := w.dst, bytes := [], acceptedAt := localNs s, acceptedIn := s.now, lastWord := s.now }
  updTrunk s t (fun x => { x with tfSkip := false, tfOpen := some o })

/-- One word offered on tf_tx_ (R74, R75). A word whose ready bit is 0 does not transfer. -/
def acceptTf (t : Trunk) (s : State) (w : TfWord) : State :=
  if !tfReady s t w.vc.toNat then s else
  let x := trunk s t
  if w.sop then takeTf (openTf (if x.tfOpen.isSome then dropTf s t false else s) t w) t w
  else if x.tfSkip then s
  else if x.tfOpen.isNone then dropTf s t true
  else takeTf s t w

/-! ### Waits for credit (R370) -/

/-- Segments of 64 bytes that an entry takes (R317). -/
def segmentsOf (p : Nat) : Nat := ceilDiv (p + 16) 64

/-- Free replay segments (R318, 0x4001.0C). -/
def replayFree (s : State) (t : Trunk) : Nat :=
  8192 - retiredCount s (7 + t.val) - (trunk s t).entries.foldl (fun a e => a + segmentsOf e.payload.length) 0

/-- Items 1, 3 and 5 of R317 for the head of channel v. -/
def numberableButCredit (s : State) (t : Trunk) (v : Nat) : Bool :=
  let x := trunk s t
  match txQueue x v with
  | [] => false
  | p :: _ => trunkUp s t && x.sender == .run && x.replayPtr == x.n && !x.esnEnd &&
      decide (segmentsOf p.payload.length ≤ replayFree s t)

/-- The head of channel v has its credit (R317 item 2). -/
def headHasCredit (x : TrunkSt) (v : Nat) : Bool :=
  match txQueue x v with
  | [] => false
  | p :: _ => decide (chargeOf p.payload.length ≤ crOf x v)

def sinceNone (_ : Nat) : Option Nat := none

/-- Follow the waits for credit alone of one channel (R370). -/
def noteWait (t : Trunk) (s : State) (v : Nat) : State :=
  let x := trunk s t
  if numberableButCredit s t v && !headHasCredit x v then
    (if (spGet sinceNone x.headSince v).isSome then s
     else updTrunk s t (fun x => { x with headSince := spSet sinceNone x.headSince v (some s.now) }))
  else updTrunk s t (fun x => { x with headSince := spSet sinceNone x.headSince v none
                                       starved := spSet boolFalse x.starved v false })

def noteWaits (s : State) (t : Trunk) : State := (List.range 4).foldl (noteWait t) s

def execTfTxPayload (t : Trunk) (words : List TfWord) (s : State) : Out :=
  .next (noteWaits (words.foldl (acceptTf t) s) t)

/-- More than 4,096 cycles without a word inside an open payload (R75, Table 2.2). -/
def execTfTxGapTimeout (t : Trunk) (s : State) : Out :=
  .next (match (trunk s t).tfOpen with
    | some o => if pathOn s && decide (o.lastWord + 4096 < s.now) then dropTf s t true else s
    | none => s)

/-! ### Building units (R305 to R319, R364) -/

def vcBits (v : Nat) : BitVec 2 := BitVec.ofNat 2 v

/-- Header bytes 0 to 11 (Table 9.2). -/
def headerBytes (vc : BitVec 2) (kp : Bool) (r len : Nat) (seq ack src dst : W16) (cvc : BitVec 2) (ccum : BitVec 12) : Bytes :=
  wordBytes (vc ++ BitVec.ofBool kp ++ BitVec.ofNat 4 r ++ BitVec.ofNat 11 len ++ seq ++ ack ++ src ++ dst ++ cvc ++ ccum)

/-- A finished packet of whole flits (R305, R307, R312). -/
def packetBytes (k : UnitKey) (iv : BitVec 96) (hdr : Bytes) (bx : Bool) (payload : Bytes) : Bytes :=
  let e := aes256 k.value
  let body := if bx then payload else ctrCrypt e (j0 iv) payload
  let tag := toBE 16 (if bx then gcmTag e k.h (j0 iv) (hdr ++ payload) [] else gcmTag e k.h (j0 iv) hdr body).toNat
  let raw := hdr ++ toBE 4 (crc04 (hdr ++ body ++ tag)).toNat ++ body ++ tag
  fitTo (32 * ceilDiv raw.length 32) raw

/-- `n` flits of a byte string. -/
def flitsOf : Nat → Bytes → List Bytes
  | 0, _ => []
  | n + 1, bs => fitTo 32 bs :: flitsOf n (bs.drop 32)

/-- The units of a packet: F = 1 on its first flit (R304). -/
def packetUnits (bs : Bytes) : List (Bool × Bytes) :=
  match flitsOf (ceilDiv bs.length 32) bs with
  | [] => []
  | f :: fs => (true, f) :: fs.map (fun g => (false, g))

/-- The choice of cvc (R319), and the state with that counter carried. -/
def chooseCvc (x : TrunkSt) : Nat × TrunkSt :=
  match x.changes.find? (fun c => decide (c.1 < 4)) with
  | some c => (c.1, carried c.1 x)
  | none => (x.nextCvc, { x with nextCvc := (x.nextCvc + 1) % 4 })

def idleUnit : Bool × Bytes := (false, zeros 32)

/-- An ACK flit of the present state (Table 9.4, R313, R321). -/
def ackFlit (s : State) (t : Trunk) (k : UnitKey) : Bytes :=
  let x := trunk s t
  let ccum := cRetOf x 0 ++ cRetOf x 1 ++ cRetOf x 2 ++ cRetOf x 3
  let head := [0x01, BitVec.ofNat 8 ((nkr s t).toNat * 128 + x.txKp.toNat * 64)] ++ toBE 2 (x.e % 65536) ++
    toBE 2 (nodeId s t).toNat ++ toBE 6 ccum.toNat ++ toBE 4 (x.afc % 2 ^ 32)
  let tagged := head ++ unitMac k (unitIv k.salt (ivDir s t true) true 0 x.afc) head
  tagged ++ toBE 4 (crc04 tagged).toNat ++ zeros 4

/-- A lane command flit (Table 10.8). -/
def laneFlit (s : State) (t : Trunk) (k : UnitKey) (c : LaneCmd) : Bytes :=
  let x := trunk s t
  let head := [c.kind, BitVec.ofNat 8 (x.txKp.toNat * 64)] ++ toBE 2 (nodeId s t).toNat ++ [c.mask, c.reason] ++
    toBE 2 c.cmdId.toNat ++ toBE 4 c.gTx.toNat ++ toBE 4 c.gRx.toNat ++ toBE 4 (x.lcc % 2 ^ 32)
  let tagged := head ++ unitMac k (unitIv k.salt (ivDir s t true) true 14 x.lcc) head
  tagged ++ toBE 4 (crc04 tagged).toNat

/-! ### Groups (R299 to R302) -/

/-- The 5,140 message bits of 20 units as a number (R300). -/
def messageBits (us : List (Bool × Bytes)) : Nat :=
  us.foldl (fun a u => a * 2 ^ 257 + (u.1.toNat * 2 ^ 256 + beNat u.2)) 0

def messageSyms (us : List (Bool × Bytes)) : List Sym :=
  let n := messageBits us
  (List.range 514).map (fun i => BitVec.ofNat 10 (n / 2 ^ (10 * (513 - i))))

/-- The 20 units of a decoded codeword. -/
def unitsOfSyms (m : List Sym) : List (Bool × Bytes) :=
  let n := m.foldl (fun a y => a * 1024 + y.toNat) 0
  (List.range 20).map (fun i =>
    let u := n / 2 ^ (257 * (19 - i)) % 2 ^ 257
    (decide (2 ^ 256 ≤ u), toBE 32 (u % 2 ^ 256)))

/-- The 544 symbols of logical lane j: symbol i of codeword c goes on lane (c + i) mod w (R301). -/
def laneSymbols (cws : List (List Sym)) (j : Nat) : List Sym :=
  let w := cws.length
  (List.range 544).map (fun i => (cws.getD ((j + w * i - i) % w) []).getD i 0)

/-- The 85 lane words of 544 symbols, the most significant bit of symbol 0 in bit 63 of the first word (R302). -/
def laneWords (ys : List Sym) : List W64 :=
  let n := ys.foldl (fun a y => a * 1024 + y.toNat) 0
  (List.range 85).map (fun k => BitVec.ofNat 64 (n / 2 ^ (64 * (84 - k))))

/-- The symbols that 85 received lane words hold. -/
def wordSymbols (ws : List W64) : List Sym :=
  let n := ws.foldl (fun a y => a * 2 ^ 64 + y.toNat) 0
  (List.range 544).map (fun i => BitVec.ofNat 10 (n / 2 ^ (10 * (543 - i))))

/-- The codewords of a group whose logical lanes, in ascending number, brought these words. -/
def groupOfLanes (lanes : List (List W64)) : List (List Sym) :=
  let ls := lanes.map wordSymbols
  let w := lanes.length
  (List.range w).map (fun c => (List.range 544).map (fun i => (ls.getD ((c + i) % w) []).getD i 0))

/-- The w codewords of a group (R301). -/
def groupCodewords (w : Nat) (us : List (Bool × Bytes)) : List (List Sym) :=
  (List.range w).map (fun c => rsEncode (messageSyms ((us.drop (20 * c)).take 20)))

def cmdRetrain (cause : Nat) (cmdId : W16) : LaneCmd :=
  { kind := 0x1A, mask := 0, reason := BitVec.ofNat 8 cause, cmdId := cmdId, gTx := 0, gRx := 0 }

def cmdLaneReq (c : LaneChange) : LaneCmd :=
  { kind := 0x18, mask := c.mask, reason := 0, cmdId := c.cmdId, gTx := c.txAt, gRx := c.rxAt }

def cmdLaneAck (mask : Byte) (cmdId : W16) : LaneCmd :=
  { kind := 0x19, mask := mask, reason := 0, cmdId := cmdId, gTx := 0, gRx := 0 }

def queueCmd (c : LaneCmd) (x : TrunkSt) : TrunkSt := { x with commands := x.commands ++ [c] }

/-- The change that this end has asked for. -/
def ownChange (x : TrunkSt) : Option LaneChange := x.changing.find? (fun c => c.own)

/-- The next copy of an own LANE_REQ, one for each group before g_tx (R365). -/
def nextCopy (x : TrunkSt) : TrunkSt :=
  match ownChange x with
  | some c => if !c.txDone && c.txAt != x.txGroup && !x.commands.any (fun d => d.kind == 0x18) then queueCmd (cmdLaneReq c) x else x
  | none => x

/-- What a new group brings: the next copy of an own LANE_REQ (R365); after a group that carried RETRAIN, the next one or,
after four, the end of framing (R372). -/
def groupSent (s : State) (t : Trunk) : State :=
  let s1 := updTrunk s t (fun x => nextCopy { x with txGroup := x.txGroup + 1, retrainIn := false })
  let carried := (trunk s t).retrainIn
  let x := trunk s1 t
  if x.retrainLeft = 0 then s1
  else if (txKey s1 t).isNone || (carried && x.retrainLeft == 1) then trunkDown s1 t x.retrainCause
  else if carried then
    updTrunk s1 t (fun x => queueCmd (cmdRetrain x.retrainCause 0) { x with retrainLeft := x.retrainLeft - 1 })
  else s1

/-- Send every whole group that the line holds; a packet spans at most `n` groups. -/
def sendGroups (t : Trunk) : Nat → State → State
  | 0, s => s
  | n + 1, s =>
    let x := trunk s t
    let w := widthOf x.active
    if w = 0 ∨ x.lineOut.length < 20 * w then s
    else
      let s1 := updTrunk s t (fun x =>
        { x with lastGroup := groupCodewords w (x.lineOut.take (20 * w)), lineOut := x.lineOut.drop (20 * w) })
      sendGroups t n (groupSent s1 t)

/-- Put units on the line. -/
def emit (s : State) (t : Trunk) (us : List (Bool × Bytes)) : State :=
  sendGroups t 5 (updTrunk s t (fun x => { x with lineOut := x.lineOut ++ us }))

/-- A RETRAIN in the group being filled, which ends with IDLE flits, and then the trunk goes down (R366, R368). -/
def retrainAndDown (s : State) (t : Trunk) (cause : Nat) (cmdId : W16) : State :=
  match txKey s t with
  | none => trunkDown s t cause
  | some k =>
    let f := laneFlit s t k (cmdRetrain cause cmdId)
    let s1 := updTrunk s t (fun x => { x with lcc := x.lcc + 1, changing := [], retrainLeft := 0 })
    let w := widthOf (trunk s1 t).active
    let s2 := emit s1 t [(false, f)]
    let fill := 20 * w - (trunk s2 t).lineOut.length
    trunkDown (if fill < 20 * w then emit s2 t (List.replicate fill idleUnit) else s2) t cause

/-! ### The order of units (R317, R320, R324) -/

/-- What Table 9.8 makes available first. -/
inductive UnitChoice where
  | command (c : LaneCmd)
  | ack
  | replay (e : ReplayEntry)
  | fresh (v : Nat) (p : TxPayload)
  | idle
  deriving DecidableEq, Repr

/-- The due cases of R321. -/
def ackIsDue (s : State) (t : Trunk) : Bool :=
  let x := trunk s t
  x.ackDue || nkr s t != x.nkrSent || elapsed s x.lastAck 1200 || x.changes.any (fun c => elapsed s c.2 128)

/-- R317 for the head of channel v, but for the arbitration. -/
def numberable (s : State) (t : Trunk) (v : Nat) : Bool := numberableButCredit s t v && headHasCredit (trunk s t) v

/-- The channel that wins ranks 4 to 6. -/
def freshWinner (s : State) (t : Trunk) : Option Nat :=
  if numberable s t 1 then some 1
  else if numberable s t 2 then some 2
  else match numberable s t 0, numberable s t 3 with
    | true, true => some (if (trunk s t).lastBulk = 0 then 3 else 0)
    | true, false => some 0
    | false, true => some 3
    | false, false => none

/-- The entry that a round sends next, when its credit allows (R324, R338). -/
def nextReplay (x : TrunkSt) : Option ReplayEntry :=
  if x.n ≤ x.replayPtr then none else
  match x.entries.find? (fun e => e.esn == x.replayPtr) with
  | some e => if e.lost || e.settled || decide (e.charge ≤ crOf x e.vc.toNat) then some e else none
  | none => none

def chooseUnit (s : State) (t : Trunk) : UnitChoice :=
  let x := trunk s t
  match x.commands, (txKey s t).isSome with
  | c :: _, true => .command c
  | _, _ =>
    if x.sender = .keyHalt then .idle
    else if ackIsDue s t then .ack
    else match nextReplay x with
      | some e => .replay e
      | none =>
        match freshWinner s t with
        | some v => match txQueue x v with
          | p :: _ => .fresh v p
          | [] => .idle
        | none => .idle

def unitFlits : UnitChoice → Nat
  | .replay e => ceilDiv (e.payload.length + 32) 32
  | .fresh _ p => ceilDiv (p.payload.length + 32) 32
  | _ => 1

/-- A unit ends before the group at which the transmit width changes (R365). -/
def fitsBeforeSwitch (x : TrunkSt) (n : Nat) : Bool :=
  x.changing.all (fun c => c.txDone || decide (x.lineOut.length + n ≤ 20 * widthOf x.active * (c.txAt - x.txGroup).toNat))

/-- Send one entry now with transmission number r (R319). -/
def sendEntry (s : State) (t : Trunk) (k : UnitKey) (e : ReplayEntry) : State :=
  let x := trunk s t
  let v := chooseCvc x
  let hdr := headerBytes e.vc x.txKp e.r (e.payload.length - 1) (BitVec.ofNat 16 e.esn) (BitVec.ofNat 16 x.e) (nodeId s t) e.dst
    (vcBits v.1) (cRetOf x v.1)
  let iv := unitIv k.salt (ivDir s t true) false e.r e.esn
  let s1 := setTrunk s t (carried 4 v.2)
  emit s1 t (packetUnits (packetBytes k iv hdr (e.vc == 3) e.payload))

/-- Count a first transmission (R346). -/
def countFirst (s : State) (t : Trunk) (p : Nat) : State := bumpBy (transportCtr s t 1) (0x4011 + t.val) 2 p

/-- Take a payload out of its queue, number it, charge it, write its entry and send it (R317). -/
def numberAndSend (s : State) (t : Trunk) (k : UnitKey) (v : Nat) (p : TxPayload) : State :=
  let x := trunk s t
  let c := chargeOf p.payload.length
  let e : ReplayEntry := { esn := x.n, vc := vcBits v, dst := p.dst, r := 0, sent := true, settled := true, charge := c,
                           payload := p.payload, lost := false }
  let last := decide (x.n + 1 = 2 ^ 64)
  let x1 := setTxQueue (setCr x v (crOf x v - c)) v ((txQueue x v).drop 1)
  let x2 := { x1 with n := x.n + 1, replayPtr := x.n + 1, entries := x.entries ++ [e], esnEnd := last
                      timerStart := if x.timerStart.isSome then x.timerStart else some s.now
                      lastBulk := if v = 0 ∨ v = 3 then vcBits v else x.lastBulk }
  let s1 := setTrunk (countFirst s t p.payload.length) t x2
  sendEntry (if last then raise s1 (evEsnEnd t.val) t.val else s1) t k e

/-- A transmission of a held entry at rank 3 (R324, R325, R338, R444). -/
def sendHeld (s : State) (t : Trunk) (k : UnitKey) (e : ReplayEntry) : State :=
  if e.lost then trunkDown (raise (raise s evReplayEntryLost t.val) (evReplayExhausted t.val) t.val) t 2
  else if e.sent && e.r == 15 then trunkDown (raise s (evReplayExhausted t.val) t.val) t 2
  else
    let e1 := { e with r := if e.sent then e.r + 1 else 0, sent := true, settled := true }
    let s1 := if e.sent then transportCtr s t 3 else countFirst s t e.payload.length
    let s2 := updTrunk s1 t (fun x =>
      let x1 := if e.settled then x else setCr x e.vc.toNat (crOf x e.vc.toNat - e.charge)
      endRound { x1 with replayPtr := e.esn + 1, entries := x1.entries.map (fun f => if f.esn = e.esn then e1 else f) })
    sendEntry s2 t k e1

def sendAck (s : State) (t : Trunk) (k : UnitKey) : State :=
  let f := ackFlit s t k
  let s1 := updTrunk (transportCtr s t 17) t (fun x =>
    { x with afc := x.afc + 1, ackDue := false, changes := [], lastAck := s.now, nkrSent := nkr s t })
  emit s1 t [(false, f)]

/-- A command has gone into the group being filled: the first copy of an own LANE_REQ commits to the change (R365), and a
RETRAIN counts for this group (R372). -/
def noteSent (c : LaneCmd) (x : TrunkSt) : TrunkSt :=
  if c.kind = 0x1A then { x with retrainIn := true }
  else if c.kind = 0x18 then { x with changing := x.changing.map (fun d => if d.own && d.cmdId == c.cmdId then { d with sent := true } else d) }
  else x

def sendCommand (s : State) (t : Trunk) (k : UnitKey) (c : LaneCmd) : State :=
  let f := laneFlit s t k c
  emit (updTrunk s t (fun x => noteSent c { x with lcc := x.lcc + 1, commands := x.commands.drop 1 })) t [(false, f)]

/-- Send the chosen unit, or IDLE when it would straddle a change of width. -/
def sendUnit (s : State) (t : Trunk) (u : UnitChoice) : State :=
  if !fitsBeforeSwitch (trunk s t) (unitFlits u) then emit s t [idleUnit] else
  match txKey s t, u with
  | some k, .command c => sendCommand s t k c
  | some k, .ack => sendAck s t k
  | some k, .replay e => sendHeld s t k e
  | some k, .fresh v p => numberAndSend s t k v p
  | _, _ => emit s t [idleUnit]

/-! ### Lane changes on this side (R365, R366) -/

/-- Put the new form of a change, or take it out when both switches have been made. -/
def putChange (c d : LaneChange) (x : TrunkSt) : TrunkSt :=
  { x with changing := x.changing.flatMap (fun e => if e ≠ c then [e] else if d.txDone && d.rxDone then [] else [d]) }

/-- One switch of a change, in the cycle of its group: the second one counts and reports it (R366). -/
def switchDone (s : State) (t : Trunk) (was : Nat) (c d : LaneChange) : State :=
  let s1 := updTrunk s t (putChange c d)
  if d.txDone && d.rxDone then raiseTrunk (mgmtCtr s1 t (if was < widthOf c.mask then 10 else 9) 1) t 6 else s1

/-- An own change of which no copy has been sent was never committed to (R365). -/
def dropUnsent (x : TrunkSt) (c : LaneChange) : TrunkSt :=
  { x with changing := x.changing.filter (fun e => decide (e ≠ c)), commands := x.commands.filter (fun d => d.kind != 0x18) }

/-- The transmit side takes the new set at the group of a change. -/
def switchTxLanes (s : State) (t : Trunk) : State :=
  let x := trunk s t
  match x.changing.find? (fun c => !c.txDone && c.txAt == x.txGroup && x.lineOut.isEmpty) with
  | none => s
  | some c =>
    if c.own && !c.sent then updTrunk s t (fun x => dropUnsent x c)
    else
      let left (x : TrunkSt) : TrunkSt := if c.own then { x with commands := x.commands.filter (fun d => d.kind != 0x18) } else x
      switchDone (updTrunk s t (fun x => { left x with active := c.mask })) t (widthOf x.active) c { c with txDone := true }

/-- The receive side takes the new set at the group of a change. -/
def switchRxLanes (s : State) (t : Trunk) : State :=
  let x := trunk s t
  match x.changing.find? (fun c => !c.rxDone && c.rxAt == x.rxGroup) with
  | none => s
  | some c =>
    if c.own && !c.sent then updTrunk s t (fun x => dropUnsent x c)
    else switchDone (updTrunk s t (fun x => { x with rxActive := c.mask })) t (widthOf x.rxActive) c { c with rxDone := true }

/-- A unit boundary in UP: the width and the key in force, then the unit of Table 9.8. -/
def unitBoundary (s : State) (t : Trunk) : State :=
  let s1 := settleTxKey (switchTxLanes s t) t
  noteWaits (sendUnit s1 t (chooseUnit s1 t)) t

def execUnitBoundary (t : Trunk) (s : State) : Out :=
  .next (if pathOn s && trunkUp s t then unitBoundary s t else s)

/-- Numbering of the head of channel vc: R317 with the arbitration of Table 9.8. -/
def execPayloadNumbering (t : Trunk) (vc : BitVec 2) (s : State) : Out :=
  .next (if pathOn s && trunkUp s t then
      let s1 := settleTxKey (switchTxLanes s t) t
      match chooseUnit s1 t with
      | .fresh v p => if v = vc.toNat && fitsBeforeSwitch (trunk s1 t) (unitFlits (.fresh v p))
          then noteWaits (sendUnit s1 t (.fresh v p)) t else s
      | _ => s
    else s)

/-- Cases 1 and 4 of R321. -/
def execAckFlitDue (t : Trunk) (s : State) : Out :=
  .next (if pathOn s && trunkUp s t && ackIsDue s t then updTrunk s t (fun x => { x with ackDue := true }) else s)

/-- The replay timer reaches ack_timeout (R323, R324). -/
def execReplayTimerExpiry (t : Trunk) (s : State) : Out :=
  .next (
    let x := trunk s t
    match x.timerStart with
    | some c =>
      if pathOn s && trunkUp s t && x.sender ≠ .keyHalt && elapsed s c (usCycles (regN s (0x4001 + t.val) 5)) then
        noteWaits (updTrunk (transportCtr s t 4) t (fun x => { x with sender := .replay, replayPtr := x.u, timerStart := some s.now })) t
      else s
    | none => s)

/-- A head payload has waited only for credit for credit_timeout (R370). -/
def execTrunkCreditStarved (t : Trunk) (vc : BitVec 2) (s : State) : Out :=
  .next (
    let x := trunk s t
    let v := vc.toNat
    let limit := usCycles (mgmtN s t 6)
    match spGet sinceNone x.headSince v with
    | some c =>
      if pathOn s && trunkUp s t && elapsed s c limit && !elapsed s x.creditStart limit && !spGet boolFalse x.starved v then
        raiseTrunk (updTrunk s t (fun x => { x with starved := spSet boolFalse x.starved v true })) t 8
      else s
    | none => s)

/-! ### The VC1 deadline (R373) -/

/-- Discard the VC1 payloads whose sop word came before a boundary, as `late` says of its local time and its cycle. -/
def dropVc1 (s : State) (t : Trunk) (late : Nat → Nat → Bool) : State :=
  let x := trunk s t
  let keep := (txQueue x 1).filter (fun p => !late p.acceptedAt p.acceptedIn)
  let openLate := match x.tfOpen with
    | some o => o.vc == 1 && late o.acceptedAt o.acceptedIn
    | none => false
  let n := (txQueue x 1).length - keep.length + openLate.toNat
  if n = 0 then s else
  let s1 := updTrunk s t (fun x => let x1 := setTxQueue x 1 keep
                                   if openLate then { x1 with tfOpen := none, tfSkip := true } else x1)
  noteWaits (raiseTrunk (mgmtCtr s1 t 11 n) t 9) t

end Sys2Proof.Machine
end

