-- ==== Sys2Proof/Machine/TrunkReceive.lean ====
section
/-! DEFINITION. The receiving side of a trunk: groups, framing, packet checks, ACK flits, lane commands, tf_rx_
(R303, R304, R308, R327 to R334, R363 to R371). -/

namespace Sys2Proof.Machine

/-! ### Receive queues and room (R332, R335, R445) -/

def rxNone (_ : Nat) : List RxPayload := []
def rxQueue (x : TrunkSt) (v : Nat) : List RxPayload := spGet rxNone x.rxQ v
def setRxQueue (x : TrunkSt) (v : Nat) (q : List RxPayload) : TrunkSt := { x with rxQ := spSet rxNone x.rxQ v q }

def payCharge (p : RxPayload) : Nat := chargeOf p.payload.length

/-- Units of channel v in use, with the payload on tf_rx_. -/
def roomUsed (x : TrunkSt) (v : Nat) : Nat :=
  (rxQueue x v).foldl (fun a p => a + payCharge p) 0 +
    match x.presenting with
    | some p => if p.vc.toNat = v then payCharge p else 0
    | none => 0

/-- Free room of channel v: within its allocation and the units that are not retired. -/
def roomOf (s : State) (t : Trunk) (v : Nat) : Nat :=
  let x := trunk s t
  let total := (List.range 4).foldl (fun a w => a + roomUsed x w) 0
  Nat.min (allocOf s t v - roomUsed x v) (2048 - retiredCount s (9 + t.val) - total)

/-! ### Line errors (R334, R369) -/

def lineError (s : State) (t : Trunk) : State :=
  let n := (trunk s t).lineErrors + 1
  let s1 := updTrunk s t (fun x => { x with lineErrors := n })
  if mgmtN s t 5 ≤ n then trunkDown s1 t 1 else s1

/-- A CRC failure of a packet or an ACK flit. -/
def crcError (s : State) (t : Trunk) : State := lineError (transportCtr s t 9) t

/-! ### Lane changes (R365 to R368) -/

/-- The lanes that the youngest change in progress leaves active. -/
def nextSet (x : TrunkSt) : Byte :=
  match x.changing.getLast? with
  | some c => c.mask
  | none => x.active

def failedLanes (x : TrunkSt) : List Nat := (maskLanes (nextSet x)).filter (fun l => (laneOf x l).failed)

/-- Standby lanes aligned in both ends' rx_good, lowest first. -/
def spareLanes (s : State) (t : Trunk) : List Nat :=
  (maskLanes (standbyMask s t &&& ~~~nextSet (trunk s t) &&& (trunk s t).partnerGood)).filter (fun l => !(laneOf (trunk s t) l).failed)

/-- The set without some lanes, each replaced by a spare lane while one is left. -/
def replaceLanes (s : State) (t : Trunk) (gone : List Nat) : Byte :=
  lanesMask ((maskLanes (nextSet (trunk s t))).filter (fun l => !gone.contains l) ++ (spareLanes s t).take gone.length)

/-- Issue a LANE_REQ for a new set (R365); with no key for its tag no copy could be sent, and none is issued. -/
def startLaneReq (s : State) (t : Trunk) (mask : Byte) : State :=
  let x := trunk s t
  let c : LaneChange := { own := true, mask := mask, cmdId := x.nextCmd, txAt := x.txGroup + 32, rxAt := x.rxGroup + 32,
                          txDone := false, rxDone := false, sent := false }
  if (txKey s t).isNone then s
  else updTrunk s t (fun x => queueCmd (cmdLaneReq c) { x with changing := x.changing ++ [c], nextCmd := x.nextCmd + 1 })

/-- A command of this end bars another (R368). -/
def laneBusy (x : TrunkSt) : Bool := (ownChange x).isSome || decide (x.retrainLeft ≠ 0)

/-- The degraded lanes that cause 2 of R368 takes out: the first that a spare replaces or the width can spare. -/
def degradedLane (s : State) (t : Trunk) : Option Nat :=
  let x := trunk s t
  (maskLanes (nextSet x)).find? (fun l => (laneOf x l).degraded &&
    (!(spareLanes s t).isEmpty || decide (minWidth s t < widthOf (nextSet x))))

/-- Causes 1 and 2 of R368. -/
def considerLanes (s : State) (t : Trunk) : State :=
  let x := trunk s t
  if !trunkUp s t then s else
  let gone := failedLanes x
  if !gone.isEmpty && decide (widthOf (replaceLanes s t gone) < minWidth s t) then retrainAndDown s t 4 0
  else if laneBusy x then s
  else if !gone.isEmpty then startLaneReq s t (replaceLanes s t gone)
  else match degradedLane s t with
    | some l => startLaneReq s t (replaceLanes s t [l])
    | none => s

/-- The group g lies at least `m` groups in the future of `cur` (10, Lanes in service). -/
def inFuture (g cur : W32) (m : Nat) : Bool := decide (m ≤ (g - cur).toNat) && decide ((g - cur).toNat < 2 ^ 31)

/-- The lane conditions of R366 at this end. -/
def laneSetOk (s : State) (t : Trunk) (mask : Byte) : Bool :=
  decide (minWidth s t ≤ widthOf mask) && decide (widthOf mask ≤ widthMax s t) &&
    (maskLanes mask).all (fun l => (laneOf (trunk s t) l).aligned && (laneMask s t).getLsbD l)

/-- An accepted LANE_REQ, as a partner (R366). -/
def judgeLaneReq (s : State) (t : Trunk) (c : LaneCmd) : State :=
  let x := trunk s t
  if laneSetOk s t c.mask && inFuture c.gRx x.txGroup 2 && inFuture c.gTx x.rxGroup 1 then
    let ch : LaneChange := { own := false, mask := c.mask, cmdId := c.cmdId, txAt := c.gRx, rxAt := c.gTx, txDone := false,
                             rxDone := false, sent := false }
    updTrunk s t (fun x => queueCmd (cmdLaneAck c.mask c.cmdId) { x with changing := x.changing ++ [ch] })
  else retrainAndDown s t 9 c.cmdId

/-- A command of this end is pending: its first copy has been sent (R367). -/
def ownPending (x : TrunkSt) : Bool := decide (x.retrainLeft ≠ 0) || x.changing.any (fun c => c.own && c.sent)

/-- Abandon the own command: no switch, no copies (R367). -/
def abandonOwn (x : TrunkSt) : TrunkSt :=
  { x with changing := x.changing.filter (fun c => !c.own), retrainLeft := 0, commands := x.commands.filter (fun c => c.kind != 0x18 && c.kind != 0x1A) }

/-- A LANE_REQ, or a RETRAIN, that this end acts on. -/
def actOnCmd (s : State) (t : Trunk) (c : LaneCmd) : State :=
  if c.kind = 0x18 then judgeLaneReq s t c else trunkDown s t 5

/-- An accepted lane command (R366, R367). An own change that is not yet committed gives way. -/
def acceptCmd (s : State) (t : Trunk) (c : LaneCmd) : State :=
  let x := trunk s t
  if c.kind = 0x19 then s
  else if c.kind = 0x18 && x.lastCmdSeen == some c.cmdId then s
  else
    let s1 := if c.kind = 0x18 then updTrunk s t (fun x => { x with lastCmdSeen := some c.cmdId }) else s
    if c.kind = 0x1A ∧ c.reason = 9 then trunkDown s1 t 5
    else if ownPending x then
      (if (nodeId s t).toNat < x.peerNode.toNat then updTrunk s1 t (fun x => { x with deferred := some c })
       else actOnCmd (updTrunk s1 t abandonOwn) t c)
    else actOnCmd (updTrunk s1 t abandonOwn) t c

/-- The loser's command, once the own command is complete (R367). -/
def treatDeferred (s : State) (t : Trunk) : State :=
  let x := trunk s t
  match x.deferred with
  | none => s
  | some c =>
    if laneBusy x then s else
    let s1 := updTrunk s t (fun x => { x with deferred := none })
    if c.kind = 0x1A then trunkDown s1 t 5
    else if c.mask ≠ x.active ∧ laneSetOk s1 t c.mask then startLaneReq s1 t c.mask
    else s1

/-! ### Control flits (R308, R333, R364) -/

def beAt (f : Bytes) (i n : Nat) : Nat := beNat (slice f i n)

/-- The smallest value above the last whose bits [31:0] equal the field (R333, R364). -/
def recoverCount (last : Option Nat) (low : Nat) : Nat :=
  match last with
  | none => low
  | some a => a + 1 + (low + 2 ^ 32 - (a + 1) % 2 ^ 32) % 2 ^ 32

def ackCredits (s : State) (t : Trunk) (ccum : Nat) : State :=
  (List.range 4).foldl (fun s v => applyCredit s t v (BitVec.ofNat 12 (ccum / 2 ^ (12 * (3 - v))))) s

/-- An ACK flit (R333). -/
def receiveAck (s : State) (t : Trunk) (f : Bytes) : State :=
  let x := trunk s t
  if beAt f 24 4 ≠ (crc04 (f.take 24)).toNat then crcError s t else
  let kp := bit (byteAt f 1) 6
  let afc := recoverCount x.aLast (beAt f 12 4)
  match rxKey s t kp with
  | none => transportCtr s t 13
  | some k =>
    if slice f 16 8 ≠ unitMac k (unitIv k.salt (ivDir s t false) true 0 afc) (f.take 16) then transportCtr s t 10
    else
      let s1 := updTrunk (transportCtr s t 18) t (fun x =>
        { x with aLast := some afc, partnerNkr := bit (byteAt f 1) 7, creditStart := s.now })
      switchRx (ackCredits (applyAck s1 t (BitVec.ofNat 16 (beAt f 2 2))) t (beAt f 6 6)) t kp

/-- The fields of a lane command flit (Table 10.8). -/
def cmdOf (f : Bytes) : LaneCmd :=
  { kind := byteAt f 0, mask := byteAt f 4, reason := byteAt f 5, cmdId := BitVec.ofNat 16 (beAt f 6 2),
    gTx := BitVec.ofNat 32 (beAt f 8 4), gRx := BitVec.ofNat 32 (beAt f 12 4) }

/-- A lane command flit (R364). -/
def receiveCmd (s : State) (t : Trunk) (f : Bytes) : State :=
  let x := trunk s t
  if beAt f 28 4 ≠ (crc04 (f.take 28)).toNat then transportCtr s t 9 else
  let kp := bit (byteAt f 1) 6
  let lcc := recoverCount x.lccLast (beAt f 16 4)
  match rxKey s t kp with
  | none => transportCtr s t 13
  | some k =>
    if slice f 20 8 ≠ unitMac k (unitIv k.salt (ivDir s t false) true 14 lcc) (f.take 20) then transportCtr s t 10
    else acceptCmd (switchRx (updTrunk s t (fun x => { x with lccLast := some lcc })) t kp) t (cmdOf f)

/-- A control flit (Table 9.3). -/
def receiveControl (s : State) (t : Trunk) (f : Bytes) : State :=
  let k := (byteAt f 0).toNat
  if k = 0 then s
  else if k = 1 then receiveAck s t f
  else if 0x18 ≤ k ∧ k ≤ 0x1A then receiveCmd s t f
  else protocolError s t

/-! ### Packets (R306, R328, R331) -/

/-- The fields of a packet header (Table 9.2). -/
structure PacketHead where
  vc : Nat
  kp : Bool
  r : Nat
  len : Nat
  seq : W16
  ack : W16
  src : W16
  dst : W16
  cvc : Nat
  ccum : BitVec 12
  deriving DecidableEq, Repr

def packetHead (f : Bytes) : PacketHead :=
  let h := BitVec.ofNat 128 (beAt f 0 16)
  { vc := field h 127 126, kp := bit h 125, r := field h 124 121, len := field h 120 110, seq := h.extractLsb' 94 16,
    ack := h.extractLsb' 78 16, src := h.extractLsb' 62 16, dst := h.extractLsb' 46 16, cvc := field h 45 44,
    ccum := h.extractLsb' 32 12 }

/-- The plaintext of a packet whose tag is right under a key; none when it fails (R312). -/
def openPacket (k : UnitKey) (iv : BitVec 96) (hdr body tag : Bytes) (bx : Bool) : Option Bytes :=
  let e := aes256 k.value
  let good := if bx then gcmTag e k.h (j0 iv) (hdr ++ body) [] else gcmTag e k.h (j0 iv) hdr body
  if tag = toBE 16 good.toNat then some (if bx then body else ctrCrypt e (j0 iv) body) else none

/-- The changes of an accepted packet, items 1 to 4 of R331. -/
def acceptPacket (s : State) (t : Trunk) (h : PacketHead) : State :=
  let s1 := updTrunk s t (fun x => noteUncarried s.now 4 { x with e := x.e + 1 })
  switchRx (applyCredit (applyAck s1 t h.ack) t h.cvc h.ccum) t h.kp

/-- Table 9.11 from row 4 on, for a packet with the expected number. -/
def receiveExpected (s : State) (t : Trunk) (h : PacketHead) (hdr body tag : Bytes) : State :=
  match rxKey s t h.kp with
  | none => transportCtr s t 13
  | some k =>
    let iv := unitIv k.salt (ivDir s t false) false h.r (trunk s t).e
    match openPacket k iv hdr body tag (h.vc == 3) with
    | none => raiseTrunk (transportCtr s t 10) t 11
    | some p =>
      let charge := chargeOf p.length
      if h.dst ≠ nodeId s t then
        raiseTrunk (updTrunk (transportCtr (acceptPacket s t h) t 14) t (returnCredit s.now h.vc charge)) t 12
      else if roomOf s t h.vc < charge then raiseTrunk (transportCtr s t 16) t 10
      else
        let s1 := bumpBy (transportCtr (acceptPacket s t h) t 5) (0x4011 + t.val) 6 p.length
        updTrunk s1 t (fun x => setRxQueue x h.vc (rxQueue x h.vc ++ [⟨vcBits h.vc, h.src, p⟩]))

/-- A complete packet (R328). The framing state is already BETWEEN; a CRC failure makes it RESYNC. -/
def receivePacket (s : State) (t : Trunk) (f : Bytes) : State :=
  let h := packetHead f
  let p := h.len + 1
  let hdr := f.take 12
  let body := slice f 16 p
  let tag := slice f (16 + p) 16
  if beAt f 12 4 ≠ (crc04 (hdr ++ body ++ tag)).toNat then crcError (updTrunk s t (fun x => { x with framing := .resync })) t
  else if p < 32 then protocolError s t
  else
    let q := (h.seq - BitVec.ofNat 16 (trunk s t).e).toNat
    if 32768 ≤ q then updTrunk (transportCtr s t 11) t (fun x => { x with ackDue := true })
    else if 1 ≤ q then updTrunk (transportCtr s t 12) t (fun x => { x with ackDue := true })
    else receiveExpected s t h hdr body tag

/-! ### Framing (Table 9.10) -/

/-- Open a packet: the number of its flits from its len field (R305). -/
def openUnit (f : Bytes) : Framing := .inPacket (ceilDiv ((packetHead f).len + 1 + 32) 32) [f]

/-- One received unit: none for a BAD one. Nothing is framed once the trunk is no longer up. -/
def receiveUnit (t : Trunk) (s : State) (u : Option (Bool × Bytes)) : State :=
  if !trunkUp s t then s else
  let set (fr : Framing) (s : State) : State := updTrunk s t (fun x => { x with framing := fr })
  match u, (trunk s t).framing with
  | none, _ => set .resync s
  | some (true, f), .inPacket _ _ => lineError (set (openUnit f) s) t
  | some (true, f), _ => set (openUnit f) s
  | some (false, f), .between => receiveControl s t f
  | some (false, _), .resync => s
  | some (false, f), .inPacket need fs =>
    if fs.length + 1 < need then set (.inPacket need (fs ++ [f])) s
    else receivePacket (set .between s) t ((fs ++ [f]).flatten)

/-! ### Groups (R303, R363, R369, R371) -/

/-- A corrected symbol of codeword c at position i counts on its lane; reaching lane_degrade marks the lane (R363). -/
def countSymbol (t : Trunk) (w c : Nat) (s : State) (i : Nat) : State :=
  let x := trunk s t
  match (maskLanes x.rxActive)[(c + i) % w]? with
  | none => s
  | some l =>
    let y := laneOf x l
    let n := y.corrected + 1
    let hit := decide (mgmtN s t 9 ≠ 0) && decide (mgmtN s t 9 ≤ n) && !y.degraded
    let s1 := updTrunk s t (fun x => setLane x l { y with corrected := n, degraded := y.degraded || hit })
    if hit then raiseTrunk s1 t 5 else s1

/-- The uncorrectable codewords that R369 keeps out of the window. A lane that the partner takes out, and that its LSTAT does
not call degraded, has failed at the partner (R368). -/
def excusedGroup (x : TrunkSt) : Bool :=
  let failed (c : LaneChange) (l : Nat) : Bool := (laneOf x l).failed || (!c.own && !x.partnerDegraded.getLsbD l)
  x.changing.any (fun c => !c.rxDone && (maskLanes (x.rxActive &&& ~~~c.mask)).any (failed c))

/-- One codeword of a group (R303). -/
def receiveCodeword (t : Trunk) (w : Nat) (s : State) (c : Nat × List Sym) : State :=
  if !trunkUp s t then s else
  match rsDecode c.2 with
  | .clean m => ((unitsOfSyms m).map some).foldl (receiveUnit t) s
  | .corrected m pos =>
    ((unitsOfSyms m).map some).foldl (receiveUnit t) (pos.foldl (countSymbol t w c.1) (transportCtr s t 7))
  | .uncorrectable =>
    let s1 := transportCtr s t 8
    (List.replicate 20 none).foldl (receiveUnit t) (if excusedGroup (trunk s t) then s1 else lineError s1 t)

/-- The marker of physical lane l (R352). -/
def laneMarker (l : Nat) : W64 := 0x9E3C5A0F71B4D2E0 + BitVec.ofNat 64 l

/-- The active lanes whose word 0 is their marker (R371). -/
def markedLanes (rx : Byte) (lanes : List (List W64)) : Nat :=
  (((maskLanes rx).zip lanes).filter (fun p => p.2.headD 0 == laneMarker p.1)).length

/-- A whole group in UP. Blocks still marked at half the lanes come before the partner's group 0 (R358); after it they show
that the partner trains (R371). -/
def receiveGroup (s : State) (t : Trunk) (lanes : List (List W64)) : State :=
  let s0 := switchRxLanes s t
  let w := widthOf (trunk s0 t).rxActive
  if lanes.length ≠ w then s
  else if ceilDiv w 2 ≤ markedLanes (trunk s0 t).rxActive lanes then (if (trunk s t).rxStarted then trunkDown s0 t 7 else s)
  else
    let s1 := ((List.range w).zip (groupOfLanes lanes)).foldl (receiveCodeword t w) (updTrunk s0 t (fun x => { x with rxStarted := true }))
    if !trunkUp s1 t then s1
    else noteWaits (considerLanes (treatDeferred (updTrunk s1 t (fun x => { x with rxGroup := x.rxGroup + 1 })) t) t) t

def execGroupReceived (t : Trunk) (lanes : List (List (BitVec 64))) (s : State) : Out :=
  .next (if pathOn s && trunkUp s t then receiveGroup s t lanes else s)

/-! ### tf_rx_ (R76, R332) -/

/-- A word of tf_rx_ (Table 2.4). -/
structure TfRxWord where
  data : BitVec 256
  sop : Bool
  eop : Bool
  nbytes : Nat
  vc : BitVec 2
  src : W16
  deriving DecidableEq, Repr

/-- The words that a payload takes on tf_rx_. -/
def rxWords (p : RxPayload) : Nat := ceilDiv p.payload.length 32

/-- Word n of a payload: its first byte in [255:248], unused lanes 0 (R59, R74). -/
def rxWord (p : RxPayload) (n : Nat) : TfRxWord :=
  let bs := (p.payload.drop (32 * n)).take 32
  { data := BitVec.ofNat 256 (beNat (fitTo 32 bs)), sop := n == 0, eop := n + 1 == rxWords p, nbytes := bs.length, vc := p.vc, src := p.src }

/-- The word that stands on tf_rx_; none while tf_rx_valid is 0. -/
def tfRxWord (s : State) (t : Trunk) : Option TfRxWord :=
  if pathOn s then (trunk s t).presenting.map (fun p => rxWord p (trunk s t).rxSent) else none

/-- The last word of a payload has transferred. -/
def finishPresent (s : State) (t : Trunk) (p : RxPayload) : State :=
  updTrunk s t (fun x => returnCredit s.now p.vc.toNat (payCharge p)
    { x with presenting := none, rxSent := 0, rxStall := none, rxStuckRaised := false, lastRx := some p })

/-- The fabric takes `n` more words of the payload on tf_rx_, and then its ready bit is 0 (R54, R76). -/
def takeRx (s : State) (t : Trunk) (p : RxPayload) (n : Nat) : State :=
  let x := trunk s t
  if rxWords p ≤ x.rxSent + n then finishPresent s t p
  else if n = 0 ∧ x.rxStall.isSome then s
  else updTrunk s t (fun x => { x with rxSent := x.rxSent + n, rxStall := some s.now, rxStuckRaised := false })

/-- The first channel in the order of Table 9.6 with a payload and a ready bit of 1. -/
def presentChannel (x : TrunkSt) (ready : BitVec 4) : Option Nat :=
  [1, 2, 0, 3].find? (fun v => ready.getLsbD v && !(rxQueue x v).isEmpty)

/-- A payload begins on tf_rx_ when its ready bit was 1 in the preceding cycle. -/
def presentRx (s : State) (t : Trunk) (ready : BitVec 4) (taken : Nat) : State :=
  let x := trunk s t
  match x.presenting with
  | some p => takeRx s t p taken
  | none =>
    match presentChannel x ready with
    | none => s
    | some v =>
      match rxQueue x v with
      | [] => s
      | p :: rest => takeRx (updTrunk s t (fun x => { setRxQueue x v rest with presenting := some p, rxSent := 0 })) t p taken

def execTfRxPresent (t : Trunk) (ready : BitVec 4) (taken : Nat) (s : State) : Out :=
  .next (if pathOn s then presentRx s t ready taken else s)

/-- A stall longer than 100 µs raises trunk-receive-stuck once (R76). -/
def execTrunkReceiveStuck (t : Trunk) (s : State) : Out :=
  .next (
    let x := trunk s t
    match x.rxStall with
    | some c => if pathOn s && decide (c + usCycles 100 < s.now) && !x.rxStuckRaised then
        raiseTrunk (updTrunk s t (fun x => { x with rxStuckRaised := true })) t 13 else s
    | none => s)

/-! ### Timers and lanes in UP (R71, R72, R365, R368 to R370) -/

/-- A silent partner (R370). -/
def execCreditTimeout (t : Trunk) (s : State) : Out :=
  .next (if pathOn s && trunkUp s t && elapsed s (trunk s t).creditStart (usCycles (mgmtN s t 6)) then trunkDown s t 3 else s)

/-- The end of an error-rate window (R363, R369). -/
def execErrorWindow (t : Trunk) (s : State) : Out :=
  .next (if pathOn s && trunkUp s t && elapsed s (trunk s t).windowStart (usCycles (mgmtN s t 4)) then
      updTrunk s t (fun x =>
        let clear (x : TrunkSt) (l : Nat) : TrunkSt := setLane x l { laneOf x l with corrected := 0, degraded := false }
        { (List.range 8).foldl clear x with windowStart := s.now, lineErrors := 0 })
    else s)

/-- A lane fails (R71, R72): an active lane of a trunk that is up starts a lane change or a RETRAIN (R368). -/
def failLane (s : State) (t : Trunk) (l : Nat) (locked : Bool) : State :=
  let x := trunk s t
  let used := trunkUp s t && (x.active.getLsbD l || x.rxActive.getLsbD l)
  considerLanes (updTrunk s t (fun x => setLane x l
    { laneOf x l with locked := locked && (laneOf x l).locked, aligned := false, found := 0, missed := 0, goodSince := none
                      failed := (laneOf x l).failed || used })) t

/-- The lane takes part: the trunk is not DISABLED and lane_mask has it (R349). -/
def laneServed (s : State) (t : Trunk) (l : Nat) : Bool := (trunk s t).state ≠ .disabled && (laneMask s t).getLsbD l

def execLaneUnlock (t : Trunk) (lane : Fin 8) (s : State) : Out :=
  .next (if pathOn s && laneServed s t lane.val then failLane s t lane.val false else s)

def execLaneFifoFault (t : Trunk) (lane : Fin 8) (_dir : LaneDir) (s : State) : Out :=
  .next (if pathOn s && laneServed s t lane.val then failLane (raiseTrunk s t 7) t lane.val true else s)

/-- Cause 3 of R368: the lowest standby lane that has been good at both ends for 1 ms. -/
def execStandbyLaneAdd (t : Trunk) (s : State) : Out :=
  .next (
    let x := trunk s t
    let ripe (l : Nat) : Bool := match (laneOf x l).goodSince with
      | some c => elapsed s c (msCycles 1)
      | none => false
    if pathOn s && trunkUp s t && x.sender ≠ .keyHalt && !laneBusy x && decide (widthOf (nextSet x) < widthMax s t) then
      match (spareLanes s t).find? ripe with
      | some l => startLaneReq s t (setBit (nextSet x) l true)
      | none => s
    else s)

/-- One side switches to the new lane set at its group (R365, R366). -/
def execLaneSwitch (t : Trunk) (dir : LaneDir) (s : State) : Out :=
  .next (if pathOn s && trunkUp s t then
      let s1 := if dir = .tx then switchTxLanes s t else switchRxLanes s t
      considerLanes (treatDeferred s1 t) t
    else s)

end Sys2Proof.Machine
end

