-- ==== Sys2Proof/Machine/TrunkTrain.lean ====
section
/-! DEFINITION. Training, sessions and the objects of a trunk (R311, R339, R345 to R362, R372, R373). -/

namespace Sys2Proof.Machine

/-! ### Counters of the array window (Table 13.4) -/

/-- 0x4802.04 to .07 of one array: 4 transient, 5 lasting_bits, 6 uncorrectable, 7 units_lost. -/
def arrayCtr (s : State) (array k n : Nat) : State := bumpBy s (0x14800 + array) k n

/-! ### Training flits (Table 10.6) -/

/-- A training flit: its bytes 0 to 27 and their CRC. -/
def closeFlit (b : Bytes) : Bytes := fitTo 28 b ++ toBE 4 (crc04 (fitTo 28 b)).toNat

/-- A copy of a training flit of some type is accepted when its CRC is right (R352). -/
def flitAccepted (kind : Byte) (f : Bytes) : Bool :=
  f.length == 32 && byteAt f 0 == kind && beAt f 28 4 == (crc04 (f.take 28)).toNat

def boolBits (bs : List Bool) : Nat := bs.foldr (fun b a => 2 * a + b.toNat) 0

/-- The TS1 that this end sends now. -/
def ts1Flit (s : State) (t : Trunk) : Bytes :=
  let x := trunk s t
  let flags := boolBits [refInRange (trunkKey s t), refInRange (trunkNextKey s t), x.txOnNext || x.rxOnNext]
  closeFlit ([0x10, BitVec.ofNat 8 flags] ++ toBE 2 (nodeId s t).toNat ++
    [rxGood x, BitVec.ofNat 8 (widthMax s t), BitVec.ofNat 8 (minWidth s t), 0] ++ toBE 4 x.epoch.toNat ++
    toBE 4 x.prevSid.toNat ++ toBE 8 x.e ++ toBE 4 x.peerEpoch.toNat)

/-- The fields of a TS1. -/
structure Ts1 where
  keyBound : Bool
  nextBound : Bool
  switched : Bool
  node : Nat
  rxGood : Byte
  widthMax : Nat
  minWidth : Nat
  epoch : W32
  prevSid : W32
  ePrev : Nat
  deriving DecidableEq, Repr

def ts1Of (f : Bytes) : Ts1 :=
  { keyBound := bit (byteAt f 1) 0, nextBound := bit (byteAt f 1) 1, switched := bit (byteAt f 1) 2, node := beAt f 2 2,
    rxGood := byteAt f 4, widthMax := (byteAt f 5).toNat, minWidth := (byteAt f 6).toNat, epoch := BitVec.ofNat 32 (beAt f 8 4),
    prevSid := BitVec.ofNat 32 (beAt f 12 4), ePrev := beAt f 16 8 }

/-- The TS2 of this end (R353 to R355). -/
def ts2Flit (s : State) (t : Trunk) (useNext : Bool) (mask : Byte) (nonce : Block) : Bytes :=
  closeFlit ([0x11, BitVec.ofNat 8 useNext.toNat] ++ toBE 2 (nodeId s t).toNat ++ [mask, 0] ++ toBE 16 nonce.toNat ++
    toBE 6 ((List.range 4).foldl (fun a v => a * 4096 + allocOf s t v % 4096) 0))

/-- The LSTAT that this end sends now. -/
def lstatFlit (s : State) (t : Trunk) : Bytes :=
  closeFlit ([0x13, 0] ++ toBE 2 (nodeId s t).toNat ++ [rxGood (trunk s t), degradedMask (trunk s t)])

/-! ### ALIGN (R352, R354, R360, R445) -/

/-- Take `need` units from one allocation, not below 33 (R445). -/
def lowerAlloc (t : Trunk) (r : State × Nat) (v : Nat) : State × Nat :=
  let cut := Nat.min r.2 (allocOf r.1 t v - 33)
  (setReg r.1 (0x4001 + t.val) (6 + v) (BitVec.ofNat 64 (allocOf r.1 t v - cut)), r.2 - cut)

/-- The allocations follow the usable units of the receive buffer (R445). -/
def shrinkAlloc (s : State) (t : Trunk) : State :=
  let total := (List.range 4).foldl (fun a v => a + allocOf s t v) 0
  let usable := 2048 - retiredCount s (9 + t.val)
  if total ≤ usable then s else ([0, 3, 2, 1].foldl (lowerAlloc t) (s, total - usable)).1

/-- A draw that is never 0; at most `n` draws. -/
def drawEpoch : Nat → State → W32 × State
  | 0, s => (1, s)
  | n + 1, s =>
    let r := draw s 4
    let v : W32 := BitVec.ofNat 32 (beNat r.1)
    if v = 0 then drawEpoch n r.2 else (v, r.2)

/-- The epoch of R360, once the DRBG serves. -/
def needEpoch (s : State) (t : Trunk) : State :=
  if (trunk s t).epoch ≠ 0 ∨ !drbgServes s then s else
  let r := drawEpoch 4 s
  updTrunk r.2 t (fun x => { x with epoch := r.1 })

/-- Entry to ALIGN: train_timeout starts (R359). -/
def enterAlign (s : State) (t : Trunk) : State :=
  updTrunk (needEpoch (shrinkAlloc s t) t) t (fun x =>
    { x with state := .align, ts1Partner := none, ts2Partner := none, ts3Since := none, ts3Good := false, useNext := false,
             trainStart := s.now, trainPaused := 0, pauseSince := none })

/-- The link-training grant is obtained (R351); without trunk pipelines every training fails (R449). -/
def trainingGranted (s : State) (t : Trunk) : State :=
  if (trunk s t).state ≠ .grant then s
  else
    let s1 := mgmtCtr s t 2 1
    if groupCount s 2 = 0 ∨ groupCount s 3 = 0 then trainingFailure s1 t 1 else enterAlign s1 t

/-- A revocation during training (R351). -/
def trainingRevoked (s : State) (t : Trunk) : State :=
  match (trunk s t).state with
  | .align => trainingFailure s t 5
  | .exchange => trainingFailure s t 5
  | .confirm => trainingFailure s t 5
  | _ => s

/-- The proposal of R354. -/
def proposalOf (s : State) (t : Trunk) (p : Ts1) : Byte :=
  lanesMask ((maskLanes (laneMask s t &&& rxGood (trunk s t) &&& p.rxGood)).take (Nat.min (widthMax s t) p.widthMax))

/-- An end in ALIGN that has accepted a partner TS1 proposes a lane set and enters EXCHANGE (R353 to R355). -/
def tryPropose (s : State) (t : Trunk) : State :=
  let x := trunk s t
  match x.state, x.ts1Partner with
  | .align, some f =>
    let p := ts1Of f
    let mask := proposalOf s t p
    if !refInRange (trunkKey s t) || !p.keyBound || !drbgServes s || decide (widthOf mask < minWidth s t) ||
        decide (widthOf mask < p.minWidth) then s
    else
      let s1 := needEpoch s t
      let own := ts1Flit s1 t
      let r := draw s1 16
      let nonce : Block := BitVec.ofNat 128 (beNat r.1)
      let o := ts1Of own
      let useNext := o.nextBound && p.nextBound && (o.switched || p.switched)
      updTrunk r.2 t (fun x => { x with state := .exchange, ts1Own := own, nonceOwn := nonce, laneSet := mask, useNext := useNext
                                        ts2Own := ts2Flit s1 t useNext mask nonce, ts2Partner := none })
  | _, _ => s

/-- An accepted TS1 (R354, R355, R359). -/
def acceptTs1 (s0 : State) (t : Trunk) (f : Bytes) : State :=
  let s := updTrunk s0 t (fun x => { x with partnerUnbound := !(ts1Of f).keyBound })
  let keep (s : State) : State := updTrunk s t (fun x => { x with ts1Partner := some f })
  let same := decide ((ts1Of f).node = (nodeId s t).toNat)
  match (trunk s t).state with
  | .backoff => enterGrant s t
  | .align => if same then trainingFailure s t 3 else tryPropose (keep s) t
  | .exchange => if same then trainingFailure s t 3 else enterAlign s t
  | .confirm => if same then trainingFailure s t 3 else enterAlign s t
  | _ => s

def execTs1Received (t : Trunk) (flit : Bytes) (s : State) : Out :=
  .next (if pathOn s && flitAccepted 0x10 flit && (trunk s t).state != .disabled then acceptTs1 s t flit else s)

/-! ### EXCHANGE and CONFIRM (R354 to R358) -/

/-- d of this end in training, against the node of the partner's TS1. -/
def lowerNode (s : State) (t : Trunk) : Bool :=
  match (trunk s t).ts1Partner with
  | some f => decide ((nodeId s t).toNat < (ts1Of f).node)
  | none => true

/-- The transcript of R356. -/
def transcript (s : State) (t : Trunk) : Bytes :=
  let x := trunk s t
  let own := x.ts1Own.take 28 ++ x.ts2Own.take 28
  let partner := (x.ts1Partner.getD []).take 28 ++ (x.ts2Partner.getD []).take 28
  if lowerNode s t then own ++ partner else partner ++ own

/-- The session key of R355 with its salt. -/
def sessionKey (s : State) (t : Trunk) : Option UnitKey :=
  let x := trunk s t
  if x.useNext then unitKey s (trunkNextKey s t) x.saltNext else unitKey s (trunkKey s t) x.salt

/-- The TS3 tag of one end over bytes 0 to 15 of its TS3 (R356). -/
def ts3Tag (s : State) (t : Trunk) (k : UnitKey) (own : Bool) (head : Bytes) : Bytes :=
  let d := if own then !lowerNode s t else lowerNode s t
  unitMac k (unitIv k.salt d true 15 0) (head ++ transcript s t)

/-- The salts of the key and of a bound next_key (R311). -/
def setSalts (s : State) (t : Trunk) : State :=
  let x := trunk s t
  let of (k : W16) : BitVec 96 := if keyUsable s k then sessionSalt (slotValue s k) x.nonceOwn x.noncePartner else 0
  updTrunk s t (fun x => { x with salt := of (trunkKey s t), saltNext := of (trunkNextKey s t) })

/-- Every receive queue of the trunk is empty (R357). -/
def rxDrained (x : TrunkSt) : Bool := x.presenting.isNone && (List.range 4).all (fun v => (rxQueue x v).isEmpty)

/-- Entry to CONFIRM with the lane set in force: salts and the own TS3. -/
def enterConfirm (s : State) (t : Trunk) (mask : Byte) (f : Bytes) : State :=
  let s1 := setSalts (updTrunk s t (fun x => { x with state := .confirm, laneSet := mask, ts2Partner := some f
                                                      noncePartner := BitVec.ofNat 128 (beAt f 6 16) })) t
  let head := [0x12, 0] ++ toBE 2 (nodeId s t).toNat ++ [mask] ++ zeros 11
  let flit := match sessionKey s1 t with
    | some k => closeFlit (head ++ ts3Tag s1 t k true head)
    | none => []
  updTrunk s1 t (fun x => { x with ts3Own := flit, ts3Since := none, ts3Good := false
                                   pauseSince := if rxDrained x then none else some s.now })

/-- An accepted TS2 in EXCHANGE (R354, R355). -/
def acceptTs2 (s : State) (t : Trunk) (f : Bytes) : State :=
  let x := trunk s t
  let theirs := byteAt f 4
  if bit (byteAt f 1) 0 != x.useNext then enterAlign s t
  else if lowerNode s t then enterConfirm s t x.laneSet f
  else if (maskLanes theirs).all (fun l => (laneOf x l).aligned) ∧ minWidth s t ≤ widthOf theirs then enterConfirm s t theirs f
  else enterAlign s t

def execTs2Received (t : Trunk) (flit : Bytes) (s : State) : Out :=
  .next (if pathOn s && flitAccepted 0x11 flit && (trunk s t).state == .exchange then acceptTs2 s t flit else s)

/-- The receive queues are empty: the end sends its TS3 (R357). -/
def execConfirmDrained (t : Trunk) (s : State) : Out :=
  .next (
    let x := trunk s t
    if pathOn s && x.state == .confirm && x.ts3Since.isNone && rxDrained x then
      let pause := match x.pauseSince with
        | some c => s.now - c
        | none => 0
      updTrunk s t (fun x => { x with ts3Since := if x.ts3Own.isEmpty then none else some s.now, trainPaused := x.trainPaused + pause, pauseSince := none })
    else s)

/-- A partner TS3 in CONFIRM (R357). -/
def execTs3Received (t : Trunk) (flit : Bytes) (s : State) : Out :=
  .next (if pathOn s && flitAccepted 0x12 flit && (trunk s t).state == .confirm then
      match sessionKey s t with
      | some k => if slice flit 16 8 = ts3Tag s t k false (flit.take 16)
          then updTrunk s t (fun x => { x with ts3Good := true }) else trainingFailure s t 4
      | none => s
    else s)

/-! ### Entry to UP (R355, R358, R360 to R362, R444) -/

/-- The clk_core cycles in which four blocks of 85 words at 402.83 MHz leave (R70, R352). -/
def fourBlocks : Nat := 1013

/-- Entry `e` as number `i` of the new session, unsettled (R361, R362). -/
def renumberEntry (e : ReplayEntry) (i : Nat) : ReplayEntry := { e with esn := i, r := 0, sent := false, settled := false }

/-- What R361 decides from the partner's TS1: resume, and the event of a partner restart. -/
def resumes (x : TrunkSt) (p : Ts1) : Bool := x.prevSid != 0 && p.prevSid == x.prevSid && p.epoch == x.peerEpoch

/-- Settle the held entries (R361). -/
def settleEntries (s : State) (t : Trunk) (p : Ts1) : State :=
  let x := trunk s t
  let wanted := resumes x p
  let resume := wanted && decide (x.u ≤ p.ePrev) && decide (p.ePrev ≤ x.n)
  let s1 := if wanted && !resume then raiseTrunk (transportCtr s t 15) t 10 else s
  let s2 := if !resume && x.peerEpoch != 0 && p.epoch != x.peerEpoch then raiseTrunk (mgmtCtr s1 t 6 1) t 3 else s1
  let kept := if resume then x.entries.filter (fun e => decide (p.ePrev ≤ e.esn)) else x.entries
  let whole := kept.filter (fun e => !e.lost)
  let s3 := mgmtCtr (mgmtCtr s2 t 8 (x.entries.length - kept.length)) t 7 whole.length
  let s4 := arrayCtr (if resume then mgmtCtr s3 t 5 1 else s3) (7 + t.val) 7 (kept.length - whole.length)
  updTrunk s4 t (fun x => { x with entries := whole.mapIdx (fun i e => renumberEntry e i), resumed := resume })

/-- The values of a new session (R360, R362, R365, R369, R370). -/
def freshSession (s : State) (t : Trunk) (p : Ts1) (f2 : Bytes) : State :=
  let low := lowerNode s t
  updTrunk s t (fun x =>
    let n := x.entries.length
    let nlo := if low then x.nonceOwn else x.noncePartner
    let nhi := if low then x.noncePartner else x.nonceOwn
    let sid := crc04 (toBE 16 nlo.toNat ++ toBE 16 nhi.toNat)
    let alloc : Sparse Nat := (List.range 4).foldl
      (fun m v => spSet natZero m v (beAt f2 22 6 / 2 ^ (12 * (3 - v)) % 4096)) []
    { x with n := n, u := 0, e := 0, afc := 0, aLast := none, lcc := 0, lccLast := none, cRet := [], cSeen := [], cr := alloc,
             partnerAlloc := alloc, txKp := false, rxKp := false, esnEnd := false, txGroup := 0, rxGroup := 0,
             replayPtr := 0, sender := .run, timerStart := if n = 0 then none else some s.now,
             changes := [], ackDue := false, lastAck := s.now, framing := .between, lineOut := [], commands := [],
             retrainIn := false, rxStarted := false, changing := [], deferred := none, lastCmdSeen := none, retrainLeft := 0,
             state := .up, peerEpoch := p.epoch, peerNode := BitVec.ofNat 16 p.node, prevSid := if sid = 0 then 1 else sid,
             active := x.laneSet, rxActive := x.laneSet, failures := 0, failRaised := false,
             windowStart := s.now, lineErrors := 0, creditStart := s.now, ts3Since := none, ts3Good := false })

/-- The key of the new session (R355): R343, or no direction switched. -/
def sessionKeys (s : State) (t : Trunk) : State :=
  if (trunk s t).useNext then promoteKey s t
  else updTrunk s t (fun x => { x with txOnNext := false, rxOnNext := false })

/-- Lane counts restart; a lane aligned at both ends starts its 1 ms of R368. -/
def lanesAtStart (s : State) (t : Trunk) : State :=
  updTrunk s t (fun x => (List.range 8).foldl (fun x l =>
    setLane x l { laneOf x l with corrected := 0, degraded := false
                                  goodSince := if (laneOf x l).aligned && x.partnerGood.getLsbD l then some s.now else none }) x)

/-- Framed transmission begins and the trunk enters UP (R358). -/
def enterUp (s : State) (t : Trunk) (f1 f2 : Bytes) : State :=
  let p := ts1Of f1
  let s1 := setSalts (updTrunk s t (fun x => { x with partnerGood := p.rxGood })) t
  let s2 := sessionKeys (freshSession (settleEntries s1 t p) t p f2) t
  noteWaits (raiseTrunk (mgmtCtr (releaseGrant (lanesAtStart s2 t) (.training t)) t 4 1) t 0) t

def execSessionStart (t : Trunk) (s : State) : Out :=
  .next (
    let x := trunk s t
    match x.ts3Since, x.ts1Partner, x.ts2Partner with
    | some c, some f1, some f2 =>
      if pathOn s && x.state == .confirm && x.ts3Good && elapsed s c fourBlocks then enterUp s t f1 f2 else s
    | _, _, _ => s)

/-! ### Timers of training (R359) -/

/-- train_timeout in ALIGN, EXCHANGE or CONFIRM; it pauses while CONFIRM waits for the receive queues. -/
def execTrainTimeout (t : Trunk) (s : State) : Out :=
  .next (
    let x := trunk s t
    let training := x.state == .align || x.state == .exchange || x.state == .confirm
    let noKey := !refInRange (trunkKey s t) || x.partnerUnbound
    if pathOn s && training && x.pauseSince.isNone && elapsed s x.trainStart (usCycles (mgmtN s t 7) + x.trainPaused) then
      trainingFailure s t (if noKey then 2 else 1)
    else s)

def execBackoffExpiry (t : Trunk) (s : State) : Out :=
  .next (
    let x := trunk s t
    if pathOn s && x.state == .backoff && elapsed s x.backoffStart (usCycles (backoffUs s t x.failures)) then enterGrant s t else s)

/-! ### Lanes while alignment blocks run (R352, R363) -/

/-- The 1 ms of R368 runs while the lane is aligned at both ends. -/
def trackGood (now : Nat) (x : TrunkSt) (l : Nat) : TrunkSt :=
  let y := laneOf x l
  if y.aligned && x.partnerGood.getLsbD l then (if y.goodSince.isSome then x else setLane x l { y with goodSince := some now })
  else setLane x l { y with goodSince := none }

/-- What a lane finds at a block boundary (R352). -/
def laneFind (up : Bool) (y : Lane) : MarkerFind → Lane
  | .own =>
    let n := satInc 4 y.found
    if y.aligned then { y with locked := true, missed := 0 }
    else if n = 4 then { y with locked := true, aligned := true, found := 4, missed := 0, failed := false }
    else { y with locked := true, found := n, missed := 0 }
  | .other => { y with locked := true, aligned := false, found := 0, missed := 0, goodSince := none }
  | .missing =>
    if !y.aligned then { y with found := 0 }
    else if up then y
    else if y.missed = 0 then { y with missed := 1 }
    else { y with aligned := false, found := 0, missed := 0, goodSince := none }

def execLaneAlignment (t : Trunk) (lane : Fin 8) (find : MarkerFind) (s : State) : Out :=
  .next (
    let x := trunk s t
    let l := lane.val
    if pathOn s && laneServed s t l && !(trunkUp s t && (x.active.getLsbD l || x.rxActive.getLsbD l)) then
      let s1 := updTrunk s t (fun x => trackGood s.now (setLane x l (laneFind (trunkUp s t) (laneOf x l) find)) l)
      tryPropose (if find = .other then raiseTrunk s1 t 4 else s1) t
    else s)

/-- The partner's aligned and degraded lanes (Table 10.6). -/
def execLstatReceived (t : Trunk) (flit : Bytes) (s : State) : Out :=
  .next (if pathOn s && flitAccepted 0x13 flit && (trunk s t).state != .disabled then
      updTrunk s t (fun x => (List.range 8).foldl (trackGood s.now)
        { x with partnerGood := byteAt flit 4, partnerDegraded := byteAt flit 5 })
    else s)

/-! ### What the lanes carry (R69, R302, R347, R349, R352, R357) -/

/-- tl_tx_en and tl_rx_en of lane l (R349). -/
def laneEnabled (s : State) (t : Trunk) (l : Nat) : Bool :=
  pathOn s && (trunk s t).state != .disabled && (laneMask s t).getLsbD l

/-- An alignment block of lane l: its marker, then 21 copies of a flit (R352). -/
def alignmentBlock (l : Nat) (flit : Bytes) : List W64 :=
  let ws := (List.range 4).map (fun k => BitVec.ofNat 64 (beNat (slice flit (8 * k) 8)))
  laneMarker l :: (List.replicate 21 ws).flatten

/-- The training flit that the lanes repeat in a state (Table 10.1, R357). -/
def trainingFlit (s : State) (t : Trunk) : Bytes :=
  let x := trunk s t
  match x.state with
  | .align => ts1Flit s t
  | .exchange => x.ts2Own
  | .confirm => if x.ts3Since.isSome then x.ts3Own else x.ts2Own
  | _ => lstatFlit s t

/-- The place of lane l among the active lanes: its logical number. -/
def logicalLane (x : TrunkSt) (l : Nat) : Nat := ((maskLanes x.active).filter (fun m => decide (m < l))).length

/-- The 85 words of tl_tx_data that lane l carries in a block or group; zeros where it carries nothing. -/
def laneCarries (s : State) (t : Trunk) (l : Nat) : List W64 :=
  let x := trunk s t
  let nothing : List W64 := List.replicate 85 0
  if !laneEnabled s t l then nothing
  else if x.state ≠ .up ∨ (standbyMask s t).getLsbD l then alignmentBlock l (trainingFlit s t)
  else if x.active.getLsbD l then laneWords (laneSymbols x.lastGroup (logicalLane x l))
  else nothing

/-! ### The VC1 boundary (R373) -/

def vc1Period (s : State) (t : Trunk) : Nat := mgmtN s t 10
def vc1Phase (s : State) (t : Trunk) : Nat := mgmtN s t 11

def execTrunkPeriodBoundary (t : Trunk) (s : State) : Out :=
  .next (if pathOn s && decide (vc1Period s t ≠ 0) then
      let bound := lastBoundaryNs (vc1Period s t) (vc1Phase s t) (localNs s)
      dropVc1 s t (fun at_ _ => decide (at_ < bound))
    else s)

/-- The payloads whose sop word was accepted in this cycle belong to the period that a step of L opens; the others come from
before it (R168, R170). -/
def relabelVc1 (now ns : Nat) (x : TrunkSt) : TrunkSt :=
  let at_ (cycle old : Nat) : Nat := if cycle = now then ns else old
  let x1 := setTxQueue x 1 ((txQueue x 1).map (fun p => { p with acceptedAt := at_ p.acceptedIn p.acceptedAt }))
  { x1 with tfOpen := x1.tfOpen.map (fun o => { o with acceptedAt := at_ o.acceptedIn o.acceptedAt }) }

/-- A step of L acts as a boundary of every trunk with a period (R170, R373). -/
def stepVc1 (s : State) : State :=
  let one (s : State) (t : Trunk) : State :=
    if vc1Period s t = 0 then s
    else dropVc1 (updTrunk s t (relabelVc1 s.now (localNs s))) t (fun _ cycle => cycle != s.now)
  one (one s 0) 1

/-! ### Objects (Tables 9.12 and 10.2) -/

/-- The conditions on a named slot (R339). -/
def trunkSlotOk (s : State) (k : W16) : Bool :=
  keyUsable s k && !(slotOf s k).txu && !bindSaturated s k

/-- Bind a slot to a trunk: bindings and txu (R339, R215). -/
def bindTrunkKey (s : State) (k : W16) : State :=
  if !refInRange k then s else
  let s1 := bindKey s k
  setSlot s1 k { slotOf s1 k with txu := true }

/-- A write of key or next_key (R339). -/
def writeTrunkKey (t : Trunk) (sub : Nat) (k : W16) (s : State) : Ack :=
  let x := trunk s t
  if sub = 2 ∧ x.state = .up then refuse errState s
  else if sub = 3 ∧ (x.txOnNext ∨ x.rxOnNext) then refuse errState s
  else if !keyRefOk k true || refRetention k then refuse errRange s
  else if k ≠ keyNone ∧ !trunkSlotOk s k then refuse errState s
  else
    let old := (reg s (0x4001 + t.val) sub).setWidth 16
    let s1 := bindTrunkKey (releaseKey s old) k
    let s2 := setReg s1 (0x4001 + t.val) sub (k.setWidth 64)
    done (if sub = 3 ∧ x.state = .up ∧ k ≠ keyNone then
        updTrunk s2 t (fun x => { x with saltNext := sessionSalt (slotValue s2 k) x.nonceOwn x.noncePartner })
      else s2)

/-- Command 1: release next_key (R339). -/
def releaseNext (t : Trunk) (s : State) : Ack :=
  let x := trunk s t
  if x.txOnNext ∨ x.rxOnNext then refuse errState s
  else done (setReg (releaseKey s (trunkNextKey s t)) (0x4001 + t.val) 3 (keyNone.setWidth 64))

/-- A write of one allocation (R335). -/
def writeAlloc (t : Trunk) (sub : Nat) (data : Bytes) (s : State) : Ack :=
  let v := valueOf data
  let total := (List.range 4).foldl (fun a w => a + if 6 + w = sub then v else allocOf s t w) 0
  if (trunk s t).state = .up then refuse errState s
  else if v < 33 ∨ 2048 < total then refuse errRange s
  else putReg (0x4001 + t.val) sub data s

/-- Writes of 0x4001 + t. -/
def writeTransportObj (t : Trunk) (sub : Nat) (data : Bytes) (s : State) : Ack :=
  match sub with
  | 1 => if (trunk s t).state = .up then refuse errState s else putReg (0x4001 + t.val) 1 data s
  | 2 => writeTrunkKey t 2 (BitVec.ofNat 16 (valueOf data)) s
  | 3 => writeTrunkKey t 3 (BitVec.ofNat 16 (valueOf data)) s
  | 4 => putReg (0x4001 + t.val) 4 data s
  | 5 => putRange (0x4001 + t.val) 5 1 255 data s
  | 0x0B => if valueOf data = 1 then releaseNext t s else refuse errRange s
  | _ => writeAlloc t sub data s

/-- RETRAIN in four groups before framing stops, for causes 6 and 8 (R372). Without a key for its tag none is sent. -/
def startRetrain (s : State) (t : Trunk) (cause : Nat) : State :=
  let x := trunk s t
  if (txKey s t).isNone then trunkDown s t cause
  else if x.retrainLeft ≠ 0 then updTrunk s t (fun x => { x with retrainCause := cause })
  else updTrunk s t (fun x => queueCmd (cmdRetrain cause 0) { x with retrainLeft := 4, retrainCause := cause })

/-- A write of control (Table 10.3): lane_mask only in DISABLED; enable moves the trunk (R347, R372). -/
def writeTrunkControl (t : Trunk) (data : Bytes) (s : State) : Ack :=
  let v : W64 := BitVec.ofNat 64 (valueOf data)
  let x := trunk s t
  let stored := setReg s (0x4005 + t.val) 1 v
  if x.state = .disabled then
    done (if bit v 0 then enterGrant (updTrunk stored t (fun x => { x with failRaised := false })) t else stored)
  else if field v 8 1 ≠ (laneMask s t).toNat then refuse errState s
  else if bit v 0 == trunkEnabled s t then done s
  else if bit v 0 then done stored
  else if x.state = .up then done (startRetrain stored t 8)
  else done (enterDisabled stored t)

/-- A setting of Table 10.2 that is writable only in DISABLED. -/
def disabledOnly (t : Trunk) (sub : Nat) (ok : Bool) (data : Bytes) (s : State) : Ack :=
  if (trunk s t).state ≠ .disabled then refuse errState s
  else if ok then putReg (0x4005 + t.val) sub data s else refuse errRange s

/-- Writes of 0x4005 + t. -/
def writeMgmtObj (t : Trunk) (sub : Nat) (data : Bytes) (s : State) : Ack :=
  let v := valueOf data
  let idx := 0x4005 + t.val
  match sub with
  | 1 => writeTrunkControl t data s
  | 2 => disabledOnly t 2 (decide (1 ≤ v) && decide (v ≤ 8)) data s
  | 3 => disabledOnly t 3 (decide (1 ≤ v) && decide (v ≤ widthMax s t)) data s
  | 4 => putRange idx 4 100 65535 data s
  | 5 => putRange idx 5 1 65535 data s
  | 6 => putRange idx 6 10 65535 data s
  | 7 => putRange idx 7 100 65535 data s
  | 8 => putRange idx 8 16 65535 data s
  | 9 => putReg idx 9 data s
  | 0x0A => disabledOnly t 10 (v = 0 || (decide (1000 ≤ v) && decide (v ≤ 1000000000) && 1000000000 % v == 0)) data s
  | 0x0B => disabledOnly t 11 (vc1Period s t = 0 || decide (v < vc1Period s t)) data s
  | _ =>
    if (trunk s t).state ≠ .up then refuse errState s
    else if v ≠ 1 then refuse errRange s
    else done (startRetrain s t 6)

/-- Writes of a trunk's objects by index. -/
def writeTrunkObj (idx sub : Nat) (data : Bytes) (s : State) : Ack :=
  if idx = 0x4001 then writeTransportObj 0 sub data s
  else if idx = 0x4002 then writeTransportObj 1 sub data s
  else if idx = 0x4005 then writeMgmtObj 0 sub data s
  else writeMgmtObj 1 sub data s

def senderCode : SenderState → Nat
  | .down => 0
  | .run => 1
  | .replay => 2
  | .keyHalt => 3

def trunkCode : TrunkState → Nat
  | .disabled => 0
  | .backoff => 1
  | .grant => 2
  | .align => 3
  | .exchange => 4
  | .confirm => 5
  | .up => 6

/-- Table 9.13. -/
def transportStatus (s : State) (t : Trunk) : Nat :=
  let x := trunk s t
  boolBits [refInRange (trunkKey s t), refInRange (trunkNextKey s t), x.txOnNext, x.rxOnNext, x.partnerNkr, x.txKp, x.rxKp] +
    128 * senderCode x.sender + 512 * x.esnEnd.toNat

/-- Table 10.4. -/
def mgmtStatus (s : State) (t : Trunk) : Nat :=
  let x := trunk s t
  trunkCode x.state + 8 * x.resumed.toNat + 16 * (!x.changing.isEmpty).toNat + 32 * widthOf x.active + 512 * Nat.min x.failures 255

def readTransportObj (t : Trunk) (sub : Nat) (s : State) : Except W32 Bytes :=
  match sub with
  | 4 => regRead s (0x4001 + t.val) 4 8
  | 5 => regRead s (0x4001 + t.val) 5 1
  | 0x0A => numRead 4 (transportStatus s t)
  | 0x0C => numRead 2 (replayFree s t)
  | 0x0D => numRead 2 (outstanding (trunk s t))
  | _ => regRead s (0x4001 + t.val) sub 2

def readMgmtObj (t : Trunk) (sub : Nat) (s : State) : Except W32 Bytes :=
  let x := trunk s t
  match sub with
  | 1 => regRead s (0x4005 + t.val) 1 4
  | 2 => regRead s (0x4005 + t.val) 2 1
  | 3 => regRead s (0x4005 + t.val) 3 1
  | 0x0A => regRead s (0x4005 + t.val) 10 4
  | 0x0B => regRead s (0x4005 + t.val) 11 4
  | 0x0D => numRead 4 (mgmtStatus s t)
  | 0x0E => numRead 4 x.epoch.toNat
  | 0x0F => numRead 4 x.peerEpoch.toNat
  | 0x10 => numRead 4 x.prevSid.toNat
  | 0x11 => numRead 2 x.peerNode.toNat
  | 0x12 => numRead 2 (if x.state = .up then (standbyMask s t).toNat * 256 + x.active.toNat else 0)
  | 0x13 => numRead 1 x.lastDown
  | 0x14 => numRead 1 x.lastFail
  | _ => regRead s (0x4005 + t.val) sub 2

/-- Reads of a trunk's objects by index. -/
def readTrunkObj (idx sub : Nat) (s : State) : Except W32 Bytes :=
  if idx = 0x4001 then readTransportObj 0 sub s
  else if idx = 0x4002 then readTransportObj 1 sub s
  else if idx = 0x4005 then readMgmtObj 0 sub s
  else if idx = 0x4006 then readMgmtObj 1 sub s
  else ctrRead s idx sub 8

/-! ### Commands that are writes -/

def keySub : TrunkKeySel → Nat
  | .key => 2
  | .nextKey => 3

def execTrunkKeyWrite (m : Master) (t : Trunk) (which : TrunkKeySel) (key : W16) (s : State) : Out :=
  .next (commandWrite m (0x4001 + t.val) (keySub which) (wordBytes key) (writeTransportObj t (keySub which)) s)

def execReleaseNextKey (m : Master) (t : Trunk) (s : State) : Out :=
  .next (commandWrite m (0x4001 + t.val) 0x0B [1] (writeTransportObj t 0x0B) s)

/-- The control word with enable as given and the lane mask it holds. -/
def controlBytes (s : State) (t : Trunk) (enable : Bool) : Bytes := toBE 4 (2 * (laneMask s t).toNat + enable.toNat)

def execTrunkEnable (m : Master) (t : Trunk) (s : State) : Out :=
  .next (commandWrite m (0x4005 + t.val) 1 (controlBytes s t true) (writeMgmtObj t 1) s)

def execTrunkDisable (m : Master) (t : Trunk) (s : State) : Out :=
  .next (commandWrite m (0x4005 + t.val) 1 (controlBytes s t false) (writeMgmtObj t 1) s)

def execRetrain (m : Master) (t : Trunk) (s : State) : Out :=
  .next (commandWrite m (0x4005 + t.val) 0x0C [1] (writeMgmtObj t 0x0C) s)

/-! ### Resets and power (Table 10.7) -/

/-- Warm reset, or loss of PD_PATH power: the trunk goes down with cause 10 and payloads in mid-transfer are discarded. -/
def trunkPathLost (s : State) (t : Trunk) : State :=
  let s1 := updTrunk s t (fun x => { x with tfOpen := none, tfSkip := false, presenting := none, rxSent := 0, rxStall := none, rxStuckRaised := false })
  match (trunk s t).state with
  | .up => trunkDown s1 t 10
  | .disabled => s1
  | _ => enterGrant (updTrunk s1 t quiet) t

/-- Loss of PD_STORE content: entries, queues and transport state are gone. -/
def trunksLoseStore (s : State) : State := { s with trunks := [] }

end Sys2Proof.Machine
end

