-- ==== Sys2Proof/Machine/Wake.lean ====
section
/-! DEFINITION. Wake causes and the start of an exit from a power state (R98, R414, R418, R419, R424). -/

namespace Sys2Proof.Machine

def setPower (s : State) (p : Power) : State := { s with power := p }

/-- The state whose causes count: the present one, or the one that a transition enters or leaves (R418). -/
def wakeState (p : Power) : Nat :=
  match p.transition with
  | .idle => p.present.toNat
  | .entering k => k.toNat
  | .exiting k => k.toNat
  | .fuses k => k.toNat
  | .entropy k => k.toNat

/-- Frames that the Wake Matcher still holds are dropped, and it stops listening (R424). -/
def stopListening (s : State) : State :=
  let s1 := bumpBy s 0x2101 8 s.power.wakeHeld.length
  setPower s1 { s1.power with wakeHeld := [], wakeFrReady := false }

/-- pwr_req takes a value, once pwr_ack equals the present one (R98). -/
def driveReq (s : State) (v : BitVec 3) : State :=
  if s.power.pwrAck = s.power.pwrReq then
    setPower s { s.power with pwrReq := v, handshakeStart := s.now, handshakeRaised := false }
  else s

/-- R414 step 1 from state k: pwr_req = 0. -/
def startExit (s : State) (k : BitVec 3) : State :=
  let s1 := stopListening s
  driveReq (setPower s1 { s1.power with transition := .exiting k, wakeDue := false }) 0

/-- A wake cause whose condition holds and which counts in the states `lo` to `hi` (R418, R419). While clk_aon is faulty
no wake decision is taken (R41). -/
def latchCause (s : State) (b lo hi : Nat) : State :=
  let k := wakeState s.power
  if s.power.aonFault || s.power.bringUp != .done || decide (k < lo) || decide (hi < k) then s else
  let s1 := setPower s { s.power with wakeCause := setBit s.power.wakeCause b true }
  match s1.power.transition with
  | .idle => startExit s1 s1.power.present
  | .entering _ => setPower s1 { s1.power with wakeDue := true }
  | _ => s1

/-- wake_out (R420). -/
def wakeOut (s : State) : Bool := s.power.wakeCause != 0

/-- A bit of wake_control (Table 12.7). -/
def wakeEnabled (s : State) (b : Nat) : Bool := bit (reg s 0x2100 4) b

end Sys2Proof.Machine
end

