-- ==== Sys2Proof/Machine/Time.lean ====
section
/-! DEFINITION. The Time Unit (11): servo, domain health, selection, Timetable, pins, captures and the clocks' advance. -/

namespace Sys2Proof.Machine

def setTime (s : State) (t : TimeUnit) : State := { s with time := t }
def putDomain (s : State) (i : Fin 2) (d : Domain) : State := setTime s (setDomain s.time i d)
def domReg (s : State) (i : Fin 2) (sub : Nat) : Nat := regN s (0x4401 + i.val) sub
def domEnabled (s : State) (i : Fin 2) : Bool := bit (reg s (0x4401 + i.val) 1) 0
def domSource (s : State) (i : Fin 2) : Nat := field (reg s (0x4401 + i.val) 1) 2 1
def otherDomain (i : Fin 2) : Fin 2 := if i = 0 then 1 else 0

/-- ceil(width / (5/6 ns)) (R401, R406). -/
def widthCycles (ns : Nat) : Nat := ceilDiv (6 * ns) 5

/-! ### Pins (R404, R406) -/

def pinOf (s : State) (p : Nat) : OutPin := spGet pinDefault s.time.pins p
def setPin (s : State) (p : Nat) (x : OutPin) : State := setTime s { s.time with pins := spSet pinDefault s.time.pins p x }
def pinEnabled (s : State) (p : Nat) : Bool := bit (reg s (0x4450 + p) 1) 0

/-- The level that an output pin drives: 0 while disabled or isolated (R43), inverted on demand. -/
def pinLevel (s : State) (p : Nat) : Bool := timeOn s && pinEnabled s p && (pinOf s p).level != bit (reg s (0x4450 + p) 1) 1

/-- The first instant second + offset − delay after a value of L, in units of 2^-48 ns (R406). -/
def nextInstant (s : State) (p : Nat) (l : Nat) : Nat :=
  let base : Int := (regN s (0x4450 + p) 3 : Int) * nsUnit - (regN s (0x4450 + p) 4 : Int) * 2 ^ 32
  (((l : Int) - base).fdiv secUnit + 1) * secUnit + base |>.toNat

/-- pps_out[p] waits for its next instant. -/
def aimPps (s : State) (p : Nat) : State := setPin s p { pinOf s p with nextAt := nextInstant s p (localTime s.time) }

/-! ### Timetable entries (R399 to R402) -/

def ttEntry (s : State) (n : Nat) : TtEntry := spGet ttDefault s.time.timetable n
def setTtEntry (s : State) (n : Nat) (e : TtEntry) : State :=
  setTime s { s.time with timetable := spSet ttDefault s.time.timetable n e }

/-- T in ns. -/
def ttTime (e : TtEntry) : Nat := e.timeS.toNat * 1000000000 + e.timeNs.toNat
def ttAction (e : TtEntry) : Nat := field e.control 4 1
def ttPin (e : TtEntry) : Nat := 4 + field e.control 7 5

/-- The first boundary T + k · period above a value of L, in ns; k ≥ 0. -/
def ttNext (e : TtEntry) (l : Nat) : Nat :=
  let t := ttTime e
  let per := e.period.toNat
  if l < t * nsUnit then t else t + ((l / nsUnit - t) / per + 1) * per

/-- Actions 1 to 4 act on a pin, and their due times come earlier by the pin's delay (R406). -/
def ttAdvance (s : State) (e : TtEntry) : Nat :=
  if 1 ≤ ttAction e ∧ ttAction e ≤ 4 then regN s (0x4450 + ttPin e) 4 * 2 ^ 32 else 0

/-- L(x) has reached the due time of an armed entry (R401). -/
def ttDue (s : State) (e : TtEntry) : Bool :=
  e.state == .armed && decide (e.due * nsUnit ≤ readTime s + ttAdvance s e)

/-- A step of L from `old` to the present L, for one entry (R402). An entry that is due at L(x) is left to run in this cycle
(R379, R401). -/
def stepEntry (old : Nat) (s : State) (n : Nat) : State :=
  let e := ttEntry s n
  let new := localTime s.time + ttAdvance s e
  if e.state ≠ .armed ∨ ttDue s e then s
  else if e.period = 0 then
    (if old + ttAdvance s e < e.due * nsUnit ∧ e.due * nsUnit ≤ new then
       raise (bump (setTtEntry s n { e with state := .done, skipped := true }) 0x4602 2) evTimetableSkipped n
     else s)
  else
    let due := ttNext e new
    setTtEntry s n { e with due := due, skipped := e.skipped || (decide (old < localTime s.time) && decide (e.due < due)) }

/-- L has been stepped in this cycle. -/
def steppedNow (s : State) : Bool := (clockView s).l.epoch != s.time.epochL

/-- What a periodic entry is next due at when it has run (R401); after a step of L in the same cycle, the first boundary above
the new L (R402). -/
def ttFollowing (s : State) (e : TtEntry) : Nat :=
  if steppedNow s then ttNext e (localTime s.time + ttAdvance s e) else e.due + e.period.toNat

/-! ### Steps of L (R170, R382, R402, R406) -/

/-- An instant that L(x) has reached makes its pulse in this cycle; any other is aimed at again from the new L (R379, R406). -/
def reaimPps (s : State) (p : Nat) : State :=
  if pinEnabled s p ∧ (pinOf s p).nextAt ≤ readTime s then s else aimPps s p

/-- Everything that a step of L from `old` brings; L already holds its new value. -/
def afterStep (old : Nat) (s : State) : State :=
  let s1 := bump s 0x4405 1
  let s2 := setTime s1 { s1.time with epochL := s1.time.epochL + 1 }
  let s3 := stepVc1 (stepBoundaries s2)
  let s4 := (s3.time.timetable.map Prod.fst).foldl (stepEntry old) s3
  (List.range 4).foldl reaimPps s4

/-- L, whose value is `l`, is put on domain b (R396). -/
def landOn (s0 : State) (b : Fin 2) (l : Nat) : State :=
  let s := noteClocks s0
  let d := (domainOf s.time b).clk
  let delta : Int := (d : Int) - l
  let counted (s : State) : State := raise (bump s 0x4405 2) evDomainSwitch b.val
  if delta.natAbs < domReg s b 6 * nsUnit then counted (setTime s { s.time with sel := b, lam := -delta })
  else counted (afterStep l (setTime s { s.time with sel := b, lam := 0 }))

/-- A switch of L to domain b; to the selected one it does nothing (R396). -/
def switchTo (s : State) (b : Fin 2) : State := if s.time.sel = b then s else landOn s b (localTime s.time)

/-- What a step of D_i by software or by R394 does to L, given L before it (R382, R397); when the other domain is LOCKED, L
takes no step. -/
def selectedStep (s : State) (i : Fin 2) (old : Nat) : State :=
  if s.time.sel ≠ i then s
  else if (domainOf s.time (otherDomain i)).state = .locked then
    landOn s (otherDomain i) old
  else afterStep old (setTime s { s.time with lam := 0 })

/-! ### Domain states (R395, Table 11.3) -/

/-- Enter a state: the run restarts outside LOCKED, and the exits from and entries to LOCKED raise their events. -/
def enterDomState (s : State) (i : Fin 2) (st : DomainState) : State :=
  let d := domainOf s.time i
  let d1 := { d with state := st, run := if st = .locked then d.run else 0
                     lockedSince := if st = .locked ∧ d.state ≠ .locked then s.now else d.lockedSince }
  let s1 := putDomain s i d1
  if d.state = .locked ∧ st ≠ .locked then raise s1 (evDomain i.val 2) i.val
  else if d.state ≠ .locked ∧ st = .locked then raise s1 (evDomain i.val 1) i.val
  else s1

/-- Automatic rule 1 of R397. -/
def autoSelect (s : State) : State :=
  if !bit (reg s 0x4400 1) 0 then s
  else if (domainOf s.time s.time.sel).state ≠ .locked ∧ (domainOf s.time (otherDomain s.time.sel)).state = .locked then
    switchTo s (otherDomain s.time.sel)
  else s

/-- A step of D_i by `delta` units of 2^-48 ns: ρ cleared, f kept, E_i rises, DISCONTINUOUS, L under R397 (R382, R394). -/
def stepDomain (s0 : State) (i : Fin 2) (delta : Int) : State :=
  let s := noteClocks s0
  let old := localTime s.time
  let d := domainOf s.time i
  let s1 := putDomain s i { d with clk := clkAdd d.clk delta, epoch := d.epoch + 1, rho := 0 }
  autoSelect (selectedStep (enterDomState s1 i .discontinuous) i old)

/-- A good or bad sample below step_threshold moves the domain state (R395). -/
def lockRun (s : State) (i : Fin 2) (theta : Int) : State :=
  let d := domainOf s.time i
  if d.state = .free ∨ d.state = .holdover ∨ domReg s i 7 * 65536 < theta.natAbs then enterDomState s i .acquiring
  else
    let run := satInc 255 d.run
    let s1 := putDomain s i { d with run := run }
    if d.state ≠ .locked ∧ domReg s i 8 ≤ run then enterDomState s1 i .locked else s1

/-- One sample θ, in units of 2^-16 ns (R394). f is kept in units of 2^-40 ppb, ρ in units of 2^-48 ns. -/
def servoSample (s : State) (i : Fin 2) (theta : Int) : State :=
  let d := domainOf s.time i
  let d1 := { d with lastOffset := BitVec.ofInt 64 theta, lastSample := s.now, sampled := true }
  if domReg s i 6 * 65536 ≤ theta.natAbs then
    raise (bump (stepDomain (putDomain s i d1) i (-theta * 2 ^ 32)) 0x4405 3) (evDomain i.val 0) i.val
  else
    let f := clampInt (d.f - (domReg s i 3 : Int) * theta) ((domReg s i 4 : Int) * 2 ^ 40)
    let rho := -((domReg s i 2 : Int) * theta * 65536)
    autoSelect (lockRun (putDomain s i { d1 with f := f, rho := rho }) i theta)

/-! ### Selection (R397) -/

/-- A switch that is not forced; none when it is refused. -/
def selectUnforced (s : State) (b : Fin 2) : Option State :=
  if s.time.sel = b then some s
  else if (domainOf s.time b).state = .locked then some (switchTo s b)
  else none

def switchRefused (s : State) (b : Fin 2) : State := raise (bump s 0x4405 8) evSwitchRefused b.val

/-! ### The Timetable at work (R400, R401) -/

/-- What an entry does when it runs. -/
def ttAct (s : State) (n : Nat) (e : TtEntry) : State :=
  let p := ttPin e
  let x := pinOf s p
  match ttAction e with
  | 1 => setPin s p { x with level := true }
  | 2 => setPin s p { x with level := false }
  | 3 => setPin s p { x with level := !x.level }
  | 4 => setPin s p { x with level := true, pulseEnd := some (s.now + widthCycles e.width.toNat) }
  | 5 =>
    let s1 := raise s evTimetableEvent n
    if wakeEnabled s1 12 then latchCause s1 8 1 2 else s1
  | 6 =>
    let b : Fin 2 := if bit e.control 8 then 1 else 0
    (selectUnforced s b).getD (switchRefused s b)
  | _ => s

/-- Run one entry that is due. -/
def runEntry (s : State) (n : Nat) : State :=
  let e := ttEntry s n
  if !ttDue s e then s else
  let e1 := if e.period = 0 then { e with state := .done }
    else { e with due := ttFollowing s e, runs := satInc 65535 e.runs }
  ttAct (setTtEntry s n e1) n e

/-- A pulse that has ended drops its pin (R401). -/
def endPulse (s : State) (p : Nat) : State :=
  match (pinOf s p).pulseEnd with
  | some c => if c ≤ s.now then setPin s p { pinOf s p with level := false, pulseEnd := none } else s
  | none => s

/-- Every entry due in this cycle, in ascending number; ends of pulses come first. -/
def runTimetable (s : State) : State :=
  let s1 := (List.range 8).foldl (fun s k => endPulse s (4 + k)) s
  (s1.time.timetable.map Prod.fst).foldl runEntry s1

def execTimetableRun (s : State) : Out :=
  .next (if timeOn s && s.time.timetable.any (fun e => ttDue s e.2) then runTimetable s else s)

def execPulseEnd (pin : Fin 8) (s : State) : Out := .next (if timeOn s then endPulse s (4 + pin.val) else s)

/-- pps_out[p]: the end of a pulse, then the instant that L has reached (R406). -/
def ppsOut (s : State) (p : Nat) : State :=
  let s1 := endPulse s p
  let x := pinOf s1 p
  if pinEnabled s1 p ∧ x.nextAt ≤ readTime s1 then
    setPin s1 p { x with level := true, pulseEnd := some (s1.now + widthCycles (regN s1 (0x4450 + p) 2))
                         nextAt := nextInstant s1 p (localTime s1.time) }
  else s1

def execPpsOutPulse (p : Fin 4) (s : State) : Out := .next (if timeOn s then ppsOut s p.val else s)

/-! ### Inputs (R404, R405) -/

/-- 12.5 ns in units of 2^-48 ns. -/
def filterDelay : Int := 25 * 2 ^ 47

/-- Fewer than 50 ns since the previous recognised edge. -/
def tooSoon (s : State) (last : Option Nat) : Bool :=
  match last with
  | some c => decide (s.now < c + 60)
  | none => false

def ppsNone (_ : Nat) : PpsIn := { lastEdge := none, last := 0 }
def ppsOf (s : State) (j : Nat) : PpsIn := spGet ppsNone s.time.ppsIn j
def setPps (s : State) (j : Nat) (x : PpsIn) : State := setTime s { s.time with ppsIn := spSet ppsNone s.time.ppsIn j x }

/-- θ of an edge for a domain clock, in units of 2^-16 ns (R405). -/
def edgeTheta (clk delay : Nat) : Int :=
  let n : Nat := clkAdd clk (-filterDelay - (delay : Int) * 2 ^ 32) % secUnit / 2 ^ 32
  if n < 500000000 * 65536 then n else (n : Int) - 1000000000 * 65536

/-- The distance from the previous accepted edge is off by more than 1 ms (R405). -/
def isOutlier (s : State) (d : Domain) : Bool :=
  match d.lastEdge with
  | none => false
  | some c => decide (1200000 < ((s.now : Int) - c - 1200000000).natAbs)

/-- D_i(x) for every read in this cycle x. -/
def viewOf (s : State) (i : Fin 2) : Nat := if i = 0 then (clockView s).d0.t else (clockView s).d1.t

/-- An edge as a sample θ of one domain. -/
def edgeSample (j : Nat) (s : State) (i : Fin 2) (theta : Int) : State :=
  let d := domainOf s.time i
  if !(domEnabled s i && domSource s i == j + 1) then s
  else if isOutlier s d then bump s 0x4405 7
  else servoSample (putDomain s i { d with lastEdge := some s.now }) i theta

/-- A recognised edge of pps_in[j]: one less than 50 ns after another is lost; a rising one is recorded and sampled (R404,
R405). -/
def ppsEdge (s : State) (j : Nat) (rising : Bool) : State :=
  let x := ppsOf s j
  let s1 := setPps s j { x with lastEdge := some s.now }
  if tooSoon s x.lastEdge then bump s1 (0x4448 + j) 3
  else if !rising then s1
  else
    let theta (i : Fin 2) : Int := edgeTheta (viewOf s i) (regN s (0x4448 + j) 1)
    let s2 := setPps s j { lastEdge := some s.now, last := localStampAt s (-filterDelay) }
    edgeSample j (edgeSample j s2 0 (theta 0)) 1 (theta 1)

def execPpsInEdge (e : InputEdge) (s : State) : Out := .next (if timeOn s then ppsEdge s e.input.val e.rising else s)

def capNone (_ : Nat) : Capture := { fifo := [], lastEdge := none }
def capOf (s : State) (j : Nat) : Capture := spGet capNone s.time.captures j
def setCap (s : State) (j : Nat) (x : Capture) : State := setTime s { s.time with captures := spSet capNone s.time.captures j x }

/-- A capture entry (Table 11.7). -/
def capEntry (s : State) (rising : Bool) : Bytes :=
  wordBytes (localStampAt s (-filterDelay)) ++ [BitVec.ofNat 8 rising.toNat, 0]

/-- A lost edge: counted, and the lost flag set (R404, R405). -/
def capLost (s : State) (j : Nat) : State :=
  let s1 := bump (bump s (0x4440 + j) 4) 0x4405 9
  setReg s1 (0x4440 + j) 1 (setBit (reg s1 (0x4440 + j) 1) 2 true)

/-- The edge is one of those that the channel takes. -/
def edgeSelected (s : State) (j : Nat) (rising : Bool) : Bool :=
  let m := field (reg s (0x4440 + j) 1) 1 0
  if rising then m % 2 == 1 else m / 2 == 1

def captureEdge (s : State) (j : Nat) (rising : Bool) : State :=
  let x := capOf s j
  let s1 := setCap s j { x with lastEdge := some s.now }
  if tooSoon s x.lastEdge then capLost s1 j
  else if !edgeSelected s j rising then s1
  else if 16 ≤ x.fifo.length then capLost s1 j
  else setCap s1 j { fifo := x.fifo ++ [capEntry s rising], lastEdge := some s.now }

def execCaptureEdge (j : Fin 8) (rising : Bool) (s : State) : Out :=
  .next (if timeOn s then captureEdge s j.val rising else s)

/-! ### Timers of the domains -/

/-- No sample for sample_timeout: LOCKED becomes HOLDOVER (R395). -/
def execSampleTimeout (i : Fin 2) (s : State) : Out :=
  .next (
    let d := domainOf s.time i
    if timeOn s && d.state == .locked && elapsed s d.lastSample (msCycles (domReg s i 9)) then
      autoSelect (enterDomState s i .holdover)
    else s)

/-- Automatic rule 2 of R397. -/
def execRevert (s : State) : Out :=
  .next (
    let c := reg s 0x4400 1
    let b : Fin 2 := if bit c 1 then 1 else 0
    let d := domainOf s.time b
    if timeOn s && bit c 0 && bit c 2 && d.state == .locked && elapsed s d.lockedSince (secCycles (field c 31 16)) then
      switchTo s b
    else s)

/-! ### Reads that remove (R393, R405) -/

/-- The oldest time-stamp entry; a read of an empty FIFO returns zeros. -/
def readStampFifo (s : State) : State × Except W32 Bytes :=
  match s.time.fifo with
  | [] => (s, .ok (zeros 32))
  | e :: rest => (setTime s { s.time with fifo := rest, fifoOverflowed := s.time.fifoOverflowed && !rest.isEmpty }, .ok e)

def readCapFifo (j : Nat) (s : State) : State × Except W32 Bytes :=
  match (capOf s j).fifo with
  | [] => (s, .ok (zeros 16))
  | e :: rest => (setCap s j { capOf s j with fifo := rest }, .ok e)

def execTimeStampFifoRead (m : Master) (s : State) : Out := .next (commandRead m 0x4404 2 readStampFifo s)
def execCaptureFifoRead (m : Master) (j : Fin 8) (s : State) : Out :=
  .next (commandRead m (0x4440 + j.val) 3 (readCapFifo j.val) s)

/-! ### Objects (Tables 11.4 to 11.7) -/

/-- control of a domain. -/
def writeDomControl (i : Fin 2) (v : W64) (s : State) : Ack :=
  if field v 2 1 = 3 then refuse errRange s else
  let was := domEnabled s i
  let src := domSource s i
  let s1 := setReg s (0x4401 + i.val) 1 v
  let d := domainOf s1.time i
  let s2 := if src ≠ field v 2 1 ∨ (!was && bit v 0) then putDomain s1 i { d with lastEdge := none } else s1
  done (if bit v 0 then s2 else autoSelect (enterDomState s2 i .free))

def writeOffset (i : Fin 2) (v : W64) (s : State) : Ack :=
  if !domEnabled s i ∨ domSource s i ≠ 0 then refuse errState s else done (servoSample s i (asInt v))

/-- The clock value of a set_value, its domain and epoch bits ignored. -/
def setTarget (v : TimeStamp) : Nat := field v 95 48 * secUnit + field v 47 16 * nsUnit + field v 15 0 * 2 ^ 32

def domCommand (i : Fin 2) (v : Nat) (s : State) : Ack :=
  let d := domainOf s.time i
  if v = 1 then
    let s1 := stepDomain s i ((setTarget d.setValue : Int) - d.clk)
    done (putDomain s1 i { domainOf s1.time i with setIn := some s.now })
  else if v = 2 then done (stepDomain s i (asInt (reg s (0x4401 + i.val) 0x10) * 2 ^ 32))
  else if v = 3 then done (putDomain s i { d with f := 0, rho := 0 })
  else refuse errRange s

def writeDomObj (i : Fin 2) (sub : Nat) (data : Bytes) (s : State) : Ack :=
  let idx := 0x4401 + i.val
  let v := valueOf data
  match sub with
  | 1 => writeDomControl i (BitVec.ofNat 64 v) s
  | 2 => putRange idx 2 0 65536 data s
  | 3 => putReg idx 3 data s
  | 4 => putRange idx 4 1000 500000 data s
  | 5 => putRange idx 5 1000 200000 data s
  | 6 => putRange idx 6 100 1000000000 data s
  | 7 => putRange idx 7 1 (domReg s i 6 - 1) data s
  | 8 => putRange idx 8 1 255 data s
  | 9 => putRange idx 9 1 60000 data s
  | 0x0A => writeOffset i (BitVec.ofNat 64 v) s
  | 0x0E => domCommand i v s
  | 0x0F =>
    let x : TimeStamp := BitVec.ofNat 112 v
    if 1000000000 ≤ field x 47 16 then refuse errRange s
    else done (putDomain s i { domainOf s.time i with setValue := x })
  | _ => putReg idx sub data s

/-- sel_command (R397). -/
def selCommand (v : Nat) (s : State) : Ack :=
  let b : Fin 2 := if v = 2 ∨ v = 4 then 1 else 0
  if v = 1 ∨ v = 2 then
    match selectUnforced s b with
    | some s1 => done s1
    | none => refuse errState (switchRefused s b)
  else if v = 3 ∨ v = 4 then done (switchTo s b)
  else refuse errRange s

def writeSelObj (sub : Nat) (data : Bytes) (s : State) : Ack :=
  let v := valueOf data
  match sub with
  | 1 => if v / 65536 < 1 ∨ 3600 < v / 65536 then refuse errRange s else putReg 0x4400 1 data s
  | 2 => selCommand v s
  | 5 => putRange 0x4400 5 1000 894000000 data s
  | _ => putRange 0x4400 6 1000 200000 data s

/-- A write of an entry's control: arming and disarming (R399, R400). -/
def writeTtControl (n : Nat) (v : W32) (s : State) : Ack :=
  let e := { ttEntry s n with control := v }
  let a := field v 4 1
  if a = 0 ∨ 6 < a then refuse errRange s
  else if !bit v 0 then done (setTtEntry s n { e with state := .idle })
  else
    let l := readTime s
    let e1 := { e with skipped := false, runs := 0 }
    if e.period = 0 ∧ ttTime e * nsUnit ≤ l then
      done (raise (bump (setTtEntry s n { e1 with state := .late }) 0x4602 1) evTimetableLate n)
    else done (setTtEntry s n { e1 with state := .armed, due := if e.period = 0 then ttTime e else ttNext e l })

/-- Writes of the Timetable window for entry n. -/
def writeTtObj (n sub : Nat) (data : Bytes) (s : State) : Ack :=
  let v := valueOf data
  let e := ttEntry s n
  if sub = 4 then writeTtControl n (BitVec.ofNat 32 v) s
  else if e.state = .armed then refuse errState s
  else match sub with
  | 1 => if 2 ^ 48 ≤ v then refuse errRange s else done (setTtEntry s n { e with timeS := BitVec.ofNat 64 v })
  | 2 => if 1000000000 ≤ v then refuse errRange s else done (setTtEntry s n { e with timeNs := BitVec.ofNat 32 v })
  | 3 => if v ≠ 0 ∧ (v < 1000 ∨ 4000000000 < v) then refuse errRange s
    else done (setTtEntry s n { e with period := BitVec.ofNat 32 v })
  | _ => if v < 1 ∨ 999999999 < v ∨ (e.period ≠ 0 ∧ e.period.toNat ≤ v) then refuse errRange s
    else done (setTtEntry s n { e with width := BitVec.ofNat 32 v })

def writePinObj (p sub : Nat) (data : Bytes) (s : State) : Ack :=
  let idx := 0x4450 + p
  let aimed (r : Ack) : Ack := if r.2.isNone ∧ p < 4 then (aimPps r.1 p, none) else r
  match sub with
  | 1 => aimed (putReg idx 1 data s)
  | 2 => if 4 ≤ p then refuse errRange s else putRange idx 2 1000 999000000 data s
  | 3 => if 4 ≤ p then refuse errRange s else aimed (putRange idx 3 0 999999999 data s)
  | _ => aimed (putReg idx 4 data s)

/-- cap_control: the mode, and the lost flag cleared by writing 1. -/
def writeCapControl (j : Nat) (v : W64) (s : State) : Ack :=
  let keep := bit (reg s (0x4440 + j) 1) 2 && !bit v 2
  done (setReg s (0x4440 + j) 1 (setBit (v &&& 3) 2 keep))

/-- Writes of the Time area by index. -/
def writeTimeObj (au : Auth) (idx sub : Nat) (data : Bytes) (s : State) : Ack :=
  if idx = 0x4400 then writeSelObj sub data s
  else if idx = 0x4401 then writeDomObj 0 sub data s
  else if idx = 0x4402 then writeDomObj 1 sub data s
  else if 0x4440 ≤ idx ∧ idx ≤ 0x4447 then writeCapControl (idx - 0x4440) (BitVec.ofNat 64 (valueOf data)) s
  else if 0x4450 ≤ idx ∧ idx ≤ 0x445B then writePinObj (idx - 0x4450) sub data s
  else if idx = 0x4600 then putReg (chanIdx au 0x4600) 1 data s
  else if idx = 0x4601 then writeTtObj (regN s (chanIdx au 0x4600) 1) sub data s
  else putReg idx sub data s

def domStateCode : DomainState → Nat
  | .free => 0
  | .acquiring => 1
  | .locked => 2
  | .holdover => 3
  | .discontinuous => 4

def ttStateCode : TtState → Nat
  | .idle => 0
  | .armed => 1
  | .done => 2
  | .late => 3

def readDomObj (i : Fin 2) (sub : Nat) (s : State) : Except W32 Bytes :=
  let d := domainOf s.time i
  let idx := 0x4401 + i.val
  match sub with
  | 8 => regRead s idx 8 1
  | 9 => regRead s idx 9 2
  | 0x0B => numRead 4 (domStateCode d.state + 8 * d.epoch.toNat + 2048 * d.run)
  | 0x0C => .ok (toBE 4 (BitVec.ofInt 32 (d.f.fdiv (2 ^ 32))).toNat)
  | 0x0D =>
    let v := if i = 0 then (clockView s).d0 else (clockView s).d1
    .ok (wordBytes (timeStamp (decide (i = 1)) v.epoch v.t))
  | 0x0F => .ok (wordBytes d.setValue)
  | 0x10 => regRead s idx 0x10 8
  | 0x11 => numRead 8 d.lastOffset.toNat
  | _ => regRead s idx sub 4

def readTtObj (n sub : Nat) (s : State) : Except W32 Bytes :=
  let e := ttEntry s n
  match sub with
  | 1 => numRead 8 e.timeS.toNat
  | 2 => numRead 4 e.timeNs.toNat
  | 3 => numRead 4 e.period.toNat
  | 4 => numRead 4 e.control.toNat
  | 5 => numRead 4 e.width.toNat
  | _ => numRead 4 (ttStateCode e.state + 4 * e.skipped.toNat + 65536 * e.runs)

/-- Reads of the Time area by index. -/
def readTimeObj (au : Auth) (idx sub : Nat) (s : State) : State × Except W32 Bytes :=
  if idx = 0x4404 then
    (if sub = 2 then readStampFifo s else (s, numRead 2 s.time.fifo.length))
  else if 0x4440 ≤ idx ∧ idx ≤ 0x4447 then
    let j := idx - 0x4440
    (if sub = 3 then readCapFifo j s
     else if sub = 2 then (s, numRead 1 (capOf s j).fifo.length)
     else if sub = 4 then (s, ctrRead s idx 4 8)
     else (s, regRead s idx 1 4))
  else (s,
    if idx = 0x4400 then
      (if sub = 3 then numRead 4 (s.time.sel.val + 2 * (s.time.lam != 0).toNat + 4 * s.time.epochL.toNat)
       else if sub = 4 then .ok (wordBytes (localStamp s)) else regRead s idx sub 4)
    else if idx = 0x4401 then readDomObj 0 sub s
    else if idx = 0x4402 then readDomObj 1 sub s
    else if idx = 0x4405 ∨ idx = 0x4602 then ctrRead s idx sub 8
    else if idx = 0x4448 ∨ idx = 0x4449 then
      (if sub = 2 then .ok (wordBytes (ppsOf s (idx - 0x4448)).last)
       else if sub = 3 then ctrRead s idx 3 8 else regRead s idx 1 4)
    else if idx = 0x4600 then
      (if sub = 1 then regRead s (chanIdx au 0x4600) 1 1
       else numRead 2 (s.time.timetable.filter (fun e => e.2.state == .armed)).length)
    else if idx = 0x4601 then readTtObj (regN s (chanIdx au 0x4600) 1) sub s
    else regRead s idx sub 4)

/-! ### Commands that are writes -/

def execOffsetWrite (m : Master) (i : Fin 2) (value : W64) (s : State) : Out :=
  .next (commandWrite m (0x4401 + i.val) 0x0A (wordBytes value) (writeDomObj i 0x0A) s)
def execDomainSet (m : Master) (i : Fin 2) (s : State) : Out :=
  .next (commandWrite m (0x4401 + i.val) 0x0E [1] (writeDomObj i 0x0E) s)
def execDomainStep (m : Master) (i : Fin 2) (s : State) : Out :=
  .next (commandWrite m (0x4401 + i.val) 0x0E [2] (writeDomObj i 0x0E) s)
def execClearServo (m : Master) (i : Fin 2) (s : State) : Out :=
  .next (commandWrite m (0x4401 + i.val) 0x0E [3] (writeDomObj i 0x0E) s)
def execSelectDomain (m : Master) (i : Fin 2) (s : State) : Out :=
  .next (commandWrite m 0x4400 2 [BitVec.ofNat 8 (1 + i.val)] (writeSelObj 2) s)
def execForceDomain (m : Master) (i : Fin 2) (s : State) : Out :=
  .next (commandWrite m 0x4400 2 [BitVec.ofNat 8 (3 + i.val)] (writeSelObj 2) s)

/-- A write of control with arm = 1 for the entry that the sender has selected. -/
def execTimetableArm (m : Master) (value : W32) (s : State) : Out :=
  .next (commandWrite m 0x4601 4 (wordBytes (setBit value 0 true)) (writeTimeObj (authOf m) 0x4601 4) s)
/-- A write of control with arm = 0. -/
def execTimetableDisarm (m : Master) (value : W32) (s : State) : Out :=
  .next (commandWrite m 0x4601 4 (wordBytes (setBit value 0 false)) (writeTimeObj (authOf m) 0x4601 4) s)

/-! ### The clocks' advance in one clk_core cycle (R377, R380) -/

/-- A share of R_nom in ppb, rounded. -/
def slewStep (ppb : Nat) : Nat := (roundDiv ((rNom * ppb : Nat) : Int) 1000000000).toNat

/-- Move a remainder towards 0: what moves, at most `limit`. -/
def slewOf (rest : Int) (limit : Nat) : Int := clampInt rest limit

/-- D_i advances by inc_i + σ_i; a clock set in this cycle shows the set value in the next one (R379). -/
def advanceDomain (s : State) (i : Fin 2) (d : Domain) : Domain :=
  if d.setIn = some s.now then d else
  let sg := slewOf d.rho (slewStep (domReg s i 5))
  { d with clk := clkAdd d.clk ((incOf d.f : Int) + sg), rho := d.rho - sg }

/-- The end of one cycle of the Time Unit: the checks of R397, then the advance of R377 and R380. A selection offset that a
switch of this cycle leaves holds in the next one (R379). -/
def advanceTime (s : State) : State :=
  let s1 := autoSelect s
  let t := s1.time
  setTime s1 { t with d0 := advanceDomain s1 0 t.d0, d1 := advanceDomain s1 1 t.d1
                      lam := if (clockView s1).sel = t.sel then t.lam - slewOf t.lam (slewStep (regN s1 0x4400 6)) else t.lam }

/-! ### Resets (R408) -/

def timeSetting (a : Nat) : Bool :=
  let idx := a / 256 % 65536
  decide (0x4400 ≤ idx ∧ idx ≤ 0x46FF)

/-- Warm reset empties the FIFOs and drops the pins (R408). -/
def timeWarm (s : State) : State :=
  let empty (e : Nat × Capture) : Nat × Capture := (e.1, { e.2 with fifo := [] })
  let drop (e : Nat × OutPin) : Nat × OutPin := (e.1, { e.2 with level := false, pulseEnd := none })
  setTime s { s.time with
    fifo := [], fifoOverflowed := false
    captures := (s.time.captures.map empty).filter (fun e => decide (e.2 ≠ capNone e.1))
    pins := (s.time.pins.map drop).filter (fun e => decide (e.2 ≠ pinDefault e.1)) }

/-- Loss of PD_TIME: clocks, states and objects of the Time area are at their defaults. -/
def timeLost (s : State) : State :=
  { s with time := TimeUnit.default
           regs := s.regs.filter (fun e => !timeSetting e.1)
           ctrs := s.ctrs.filter (fun e => !timeSetting e.1) }

end Sys2Proof.Machine
end

