-- ==== Sys2Proof/Machine/Faults.lean ====
section
/-! DEFINITION. SRAM faults, repair and retirement (R435 to R446), pipelines (R447 to R450), wear (R451, R452), BIST
(R480) and the Faults and Test areas (Tables 13.4 and 14.11). -/

namespace Sys2Proof.Machine

def setFaults (s : State) (f : Faults) : State := { s with faults := f }

/-! ### Arrays (Table 13.3) -/

/-- Spare rows of an array. -/
def arraySpares (a : Nat) : Nat :=
  if 13 ≤ a ∧ a ≤ 44 then 2 else ([32, 0, 16, 16, 8, 16, 16, 8, 8, 4, 4, 4, 4] : List Nat).getD a 0

/-- Rows of an array and words of a row; array 45 is given 21 rows, one for each of its items here. -/
def arrayShape (a : Nat) : Nat × Nat :=
  if a = 45 then (21, 1) else if 13 ≤ a then (12288, 1) else
  [(16384, 14), (128, 9), (8192, 28), (66048, 4), (32768, 2), (16384, 12), (32768, 8), (8192, 8), (8192, 8), (2048, 8),
    (2048, 8), (1024, 8), (1024, 8)].getD a (0, 0)

/-- Units of Table 13.3. -/
def arrayUnits (a : Nat) : Nat :=
  if a = 1 then 64 else if a = 45 then 0 else if 13 ≤ a then 96 else (arrayShape a).1

/-- The unit that holds a row. -/
def unitOfRow (a row : Nat) : Nat := if a = 1 then row / 2 else if 13 ≤ a ∧ a ≤ 44 then row / 128 else row

/-- The unit that a row serves now: a main-bank row serves the slot that the drawn permutation gives it (R231, R239). -/
def unitAt (s : State) (a row : Nat) : Nat :=
  if a = 0 ∧ s.keys.permDrawn then ((Config.slotRow s.keys.permSeed).symm (Fin.ofNat 16384 row)).val else unitOfRow a row

/-- The domain of the array is On and clk_ctl runs. -/
def arrayOn (s : State) (a : Nat) : Bool :=
  ctlOn s && (if a = 1 ∨ a = 45 then true else if 13 ≤ a then domainOn s 4 else storeOn s)

def sparesLeft (s : State) (a : Nat) : Nat := arraySpares a - spGet natZero s.faults.sparesUsed a

/-! ### Wear (R451, R452) -/

/-- One more lasting fault (0x4803.05), saturating. -/
def countLasting (s : State) : State :=
  setFaults s { s.faults with lastingTotal := BitVec.ofNat 32 (satInc 0xFFFFFFFF s.faults.lastingTotal.toNat) }

/-- spares-low and spares-exhausted, each once per array between cold resets; the spare pipelines stand at number 46. -/
def spareEvents (s : State) (a initial left detail : Nat) : State :=
  let low := decide (left ≤ ceilDiv (initial * regN s 0x4800 5) 100) && !spGet boolFalse s.faults.lowRaised a
  let out := decide (left = 0) && !spGet boolFalse s.faults.exhaustedRaised a
  let s1 := if low then raise (setFaults s { s.faults with lowRaised := spSet boolFalse s.faults.lowRaised a true }) evSparesLow detail else s
  if out then raise (setFaults s1 { s1.faults with exhaustedRaised := spSet boolFalse s1.faults.exhaustedRaised a true }) evSparesExhausted detail
  else s1

/-! ### Content lost in a row (Table 13.3, R443, R444) -/

/-- The item of a list, packed in order into units of some length, that covers a unit. -/
def itemAt {α : Type} (len : α → Nat) : List α → Nat → Option Nat
  | [], _ => none
  | x :: xs, u => if u < len x then some 0 else (itemAt len xs (u - len x)).map (· + 1)

/-- A replay entry whose segment is lost is marked lost (R444). -/
def loseSegment (s : State) (t : Trunk) (u : Nat) : State :=
  match itemAt (fun e => segmentsOf e.payload.length) (trunk s t).entries u with
  | some i => updTrunk s t (fun x => { x with entries := x.entries.modify i (fun e => { e with lost := true }) })
  | none => s

/-- A received payload whose unit is lost: its room and its credit return as if it had transferred (R444). -/
def loseReceived (s : State) (t : Trunk) (u : Nat) : State :=
  let x := trunk s t
  let held := (List.range 4).flatMap (rxQueue x)
  match (itemAt payCharge held u).bind (fun i => held[i]?) with
  | some p =>
    let v := p.vc.toNat
    raise (updTrunk s t (fun x => returnCredit s.now v (payCharge p) (setRxQueue x v ((rxQueue x v).erase p)))) evPayloadLost t.val
  | none => s

/-- A payload of a transmit queue is discarded before numbering and counted in protocol_errors. -/
def loseQueued (s : State) (t : Trunk) (u : Nat) : State :=
  let v := u / 256
  match itemAt (fun p => ceilDiv p.payload.length 64) (txQueue (trunk s t) v) (u % 256) with
  | some i => transportCtr (updTrunk s t (fun x => setTxQueue x v ((txQueue x v).eraseIdx i))) t 19
  | none => s

/-- The frame of a Port Shim buffer that holds a word is closed under R62 or discarded, and counted as errored. -/
def loseFrameWord (s : State) (p row : Nat) : State :=
  let side : Side := if row < 6144 then .wi else .fi
  let d := dirOf s p side
  let len (f : QFrame) : Nat := if isOpen f then ceilDiv f.bytes.length 8 else 0
  match itemAt len d.frames (row % 6144) with
  | some i =>
    let d1 := { d with frames := d.frames.modify i (endFrame [.port 12]) }
    setDir s p side (if i + 1 = d.frames.length then stopFeeding d1 else d1)
  | none => s

/-- The item of array code 45 under a number is discarded: 0 mailbox data, 1 and 2 the field-network queues, 3 the
time-stamp FIFO, 4 to 11 the capture FIFOs, 12 the learning queue, 13 to 20 the roots of the Memory Guard regions, whose
loss poisons the region (R289, R443). -/
def loseItem (s : State) (n : Nat) : State :=
  if n = 0 then { s with server := { s.server with mailbox := { s.server.mailbox with data := 0 } } }
  else if n = 1 then { s with server := { s.server with rxQueue := s.server.rxQueue.drop 1 } }
  else if n = 2 then { s with server := { s.server with txQueue := s.server.txQueue.drop 1, txWord := 0, txHeld := false } }
  else if n = 3 then setTime s { s.time with fifo := s.time.fifo.drop 1 }
  else if n ≤ 11 then setCap s (n - 4) { capOf s (n - 4) with fifo := (capOf s (n - 4)).fifo.drop 1 }
  else if n = 12 then setCls s { s.cls with learnQ := s.cls.learnQ.drop 1 }
  else if n ≤ 20 then poisonRegion s (Fin.ofNat 8 (n - 13))
  else s

/-- A copy of the Retention Bank is not good any more; retention-copy-loss when neither is (R241, R243). -/
def loseCopy (s : State) (row : Nat) : State :=
  let k : W16 := BitVec.ofNat 16 (2 ^ 15 + row / 2)
  let p := pairOf s k
  let q : RetPair := if row % 2 = 0 then { p with a := { p.a with valid := false } } else { p with b := { p.b with valid := false } }
  let s1 := setPair s k q
  evaluateRetentionSlot s1 (k.toNat, slotOf s1 k)

/-- What becomes of the content of a row with a lasting uncorrectable error (last column of Table 13.3); arrays 0 and 2
retire their unit instead. -/
def loseContent (s : State) (a row word : Nat) : State :=
  match a with
  | 0 => s
  | 1 => loseCopy s row
  | 2 => s
  | 3 => (match streamAt s row with
    | some _ => loseEntry (noteStash (bumpClear s row)) .stream row
    | none => s)
  | 4 => (match stationAt s row with
    | some _ => loseEntry (delStation s row) .station row
    | none => s)
  | 5 => (match spFind s.cls.pfxEntries (row * 4 + word / 3) with
    | some e => loseEntry (deleteEntry s .pfx e.key (row * 4 + word / 3)) .pfx (row * 4 + word / 3)
    | none => s)
  | 6 => loseCacheLine s row
  | 7 => loseSegment s 0 row
  | 8 => loseSegment s 1 row
  | 9 => loseReceived s 0 row
  | 10 => loseReceived s 1 row
  | 11 => loseQueued s 0 row
  | 12 => loseQueued s 1 row
  | 45 => loseItem s row
  | _ => loseFrameWord s (a - 13) row

/-! ### Repair and retirement (R439, R440) -/

/-- A key slot goes RETIRED: a staging on it ends with code 14, a batch with it as a target with code 3, its value is
gone (R239). -/
def retireSlot (s : State) (k : W16) : State :=
  let s1 := if stagingOn s k then abortStaging s 14 else s
  let s2 := if batchOn s1 k then endBatch s1 3 else s1
  let x := slotOf s2 k
  let s3 := setSlot s2 k { KeySlot.default with state := .retired, txu := x.txu, bindings := x.bindings, generation := x.generation }
  if refRetention k then setPair s3 k ⟨RetCopy.default, RetCopy.default⟩ else s3

/-- The lasting bits of a row are forgotten: a spare row stands in its place. -/
def clearRow (s : State) (a row : Nat) : State :=
  setFaults s { s.faults with lastingBits := s.faults.lastingBits.filter (fun e => e.1 / 256 != a * 2 ^ 32 + row) }

/-- What the array's own chapter does with a retired unit, and the event it names (R440). -/
def retireContent (s : State) (a u : Nat) (readable : Bool) : State :=
  match a with
  | 0 => raise (retireSlot s (BitVec.ofNat 16 u)) evSlotRetired u
  | 1 => raise (retireSlot s (BitVec.ofNat 16 (2 ^ 15 + u))) evUnitRetired a
  | 2 => retireContext s u
  | 3 => raise (retireStream s u readable) evUnitRetired a
  | 4 => raise (retireStation s u readable) evUnitRetired a
  | 5 => raise (retirePrefix s u) evUnitRetired a
  | 6 => raise (retireWay s u readable) evUnitRetired a
  | _ => raise s evUnitRetired a

/-- Retire a unit: marked, the usable count lower, its content handled (R440). -/
def retireUnit (s : State) (a u : Nat) (readable : Bool) : State :=
  if retiredUnit s a u then s else
  let s1 := setFaults s { s.faults with retired := spSet boolFalse s.faults.retired (a * 2 ^ 32 + u) true }
  retireContent (arrayCtr s1 a 7 1) a u readable

/-- A spare row takes the place of a row (R439). -/
def useSpare (s : State) (a row : Nat) : State :=
  let s1 := clearRow s a row
  let used := spGet natZero s1.faults.sparesUsed a + 1
  setFaults s1 { s1.faults with sparesUsed := spSet natZero s1.faults.sparesUsed a used }

/-- A row due for repair: a spare row, or the retirement of its unit (R439, R440). Array 45 reports only. -/
def repairRow (s : State) (a row : Nat) (readable : Bool) : State :=
  if a = 45 then s
  else if 0 < sparesLeft s a then
    let s1 := raise (useSpare s a row) evSramRepaired a
    spareEvents s1 a (arraySpares a) (sparesLeft s1 a) a
  else retireUnit s a (unitAt s a row) readable

/-- Lasting faulty bits of a word, as a mask of positions. -/
def lastingMask (s : State) (a row word : Nat) : BitVec 79 :=
  BitVec.ofNat 79 (spGet natZero s.faults.lastingBits ((a * 2 ^ 32 + row) * 256 + word))

/-- New lasting faulty bits of a word; the row is due for repair at repair_bits (R437, R439). -/
def noteLasting (s : State) (a row word : Nat) (bits : List Nat) : State :=
  let m := lastingMask s a row word
  let fresh := bits.filter (fun i => !m.getLsbD i)
  if fresh.isEmpty then s else
  let m1 := flipBits m fresh
  let s1 := countLasting (arrayCtr s a 5 fresh.length)
  let s2 := setFaults s1 { s1.faults with
    lastingBits := spSet natZero s1.faults.lastingBits ((a * 2 ^ 32 + row) * 256 + word) m1.toNat }
  if field (reg s 0x4800 4) 17 16 ≤ popCount m1 79 then repairRow s2 a row true else s2

/-- A lasting uncorrectable error (R437, R439, R239, R173). -/
def lastingUncorrectable (s : State) (a row word : Nat) : State :=
  let s1 := raise (countLasting (arrayCtr s a 6 1)) evSramUncorrectable a
  if a = 0 ∨ a = 2 then retireUnit s1 a (unitAt s1 a row) false
  else repairRow (loseContent s1 a row word) a row false

def transientError (s : State) (a : Nat) : State := raise (arrayCtr s a 4 1) evSramTransient a

/-- A read that was not clean and the read that follows it (R437). A corrected read followed by an uncorrectable one
decides nothing: that second read has its own second attempt. -/
def secondAttempt (s : State) (a row word : Nat) (first second : BitVec 79) : State :=
  match sramDecode first, sramDecode second with
  | .clean _, _ => s
  | .corrected _ _, .clean _ => transientError s a
  | .corrected _ b1, .corrected _ b2 =>
    let both := b2.filter (fun i => b1.contains i)
    if both.isEmpty then transientError s a else noteLasting s a row word both
  | .corrected _ _, .uncorrectable => s
  | .uncorrectable, .uncorrectable => lastingUncorrectable s a row word
  | .uncorrectable, _ => transientError s a

def execSramSecondAttempt (array : Fin 46) (row word : Nat) (first second : BitVec 79) (s : State) : Out :=
  .next (
    let a := array.val
    if arrayOn s a && decide (row < (arrayShape a).1) && decide (word < (arrayShape a).2) && !retiredUnit s a (unitAt s a row)
    then secondAttempt s a row word first second else s)

/-- The scrubber begins another pass (R438); what a pass finds arrives as second attempts. -/
def execScrubPeriod (s : State) : Out :=
  .next (if ctlOn s && elapsed s s.faults.scrubStart (secCycles (field (reg s 0x4800 4) 15 0)) then
    setFaults s { s.faults with scrubStart := s.now } else s)

/-! ### Pipelines (R447 to R449) -/

def pipeGroup (s : State) (k : Nat) : Nat := (s.faults.pipelines.getD k 6).toNat

def setPipe (s : State) (k g : Nat) : State := setFaults s { s.faults with pipelines := s.faults.pipelines.set k (BitVec.ofNat 3 g) }

/-- The numbers of a group's pipelines, lowest first. -/
def pipesOf (s : State) (g : Nat) : List Nat := (List.range 24).filter (fun k => pipeGroup s k == g)

/-- The count of spare pipelines fell (R448, R451). -/
def sparePipeEvents (s : State) (k : Nat) : State := spareEvents s 46 2 (groupCount s 5) k

/-- R449 for a trunk: down with cause 2, or its training fails with code 1. -/
def trunkOut (s : State) (t : Trunk) : State :=
  match (trunk s t).state with
  | .up => trunkDown s t 2
  | .align => trainingFailure s t 1
  | .exchange => trainingFailure s t 1
  | .confirm => trainingFailure s t 1
  | _ => s

/-- A group without pipelines takes its path out of service (R449). -/
def pathOut (s : State) (g k : Nat) : State :=
  if groupCount s g ≠ 0 then s else
  let s1 := raise s evPathOut k
  if g = 2 ∨ g = 3 then trunkOut (trunkOut s1 0) 1 else s1

/-- The group that gives a pipeline (R448): the first that holds more than one. -/
def donor (s : State) : Option Nat := [4, 2, 3, 0, 1].find? (fun g => decide (1 < groupCount s g))

/-- A pipeline with a lasting fault leaves its group (R448, R449). -/
def retirePipe (s : State) (k : Nat) : State :=
  let g := pipeGroup s k
  match pipesOf s 5 with
  | sp :: _ => sparePipeEvents (raise (setPipe (setPipe s sp g) k 6) evPipelineSubstituted k) k
  | [] =>
    match donor s with
    | some d =>
      let s1 := if d = g then s else
        match (pipesOf s d).getLast? with
        | some m => setPipe s m g
        | none => s
      raise (setPipe s1 k 6) evAllocationShrink k
    | none => pathOut (setPipe s k 6) g k

def execPipelineParityMismatch (k : Fin 24) (secondPasses : Bool) (s : State) : Out :=
  .next (if !domainOn s 5 || decide (5 ≤ pipeGroup s k.val) then s
    else if secondPasses then raise s evPipelineTransient k.val
    else retirePipe (countLasting s) k.val)

/-! ### Full BIST (R480) -/

/-- Table 14.11: full BIST is accepted. -/
def bistAllowed (s : State) : Bool :=
  inS0 s && decide (s.faults.bist = .none) && (List.range 32).all (fun p => portRate s p == 0) &&
    (trunk s 0).state == .disabled && (trunk s 1).state == .disabled && s.keys.staging.isNone && s.keys.batch.isNone &&
    (List.finRange 8).all (fun r => (regionDyn s r).state == .disabled && (regionDyn s r).run.isNone)

/-- Command 1 of bist_command. -/
def startBist (s : State) : Ack :=
  if bistAllowed s then done (requestGrant (setFaults s { s.faults with bist := .waiting }) .fullBist false) else refuse errState s

/-- The grant is obtained: the main bank is zeroized and testing begins. -/
def bistGranted (s : State) : State :=
  let s1 := zeroizeBank s false
  setFaults s1 { s1.faults with bist := .running }

/-- Retirement marks in the main bank and the Context Store stand after their content is lost (R441). -/
def remarkRetired (s : State) : State :=
  s.faults.retired.foldl (fun s e =>
    let u := e.1 % 2 ^ 32
    if e.1 / 2 ^ 32 = 0 then setSlot s (BitVec.ofNat 16 u) { slotOf s (BitVec.ofNat 16 u) with state := .retired }
    else if e.1 / 2 ^ 32 = 2 then
      setContext s u { Context.default with retired := true, watermark := 0, a := { Assoc.default with nextPn := 0 }, b := { Assoc.default with nextPn := 0 } }
    else s) s

/-- A tested array in its cold-reset content. -/
def coldArray (s : State) (a : Nat) : State :=
  let noEntries (x : TrunkSt) : TrunkSt := { x with entries := [], u := x.n, replayPtr := x.n }
  match a with
  | 0 => remarkRetired (setKeys s { s.keys with slots := s.keys.slots.filter (fun e => decide (e.1 ≥ 2 ^ 15)) })
  | 1 => s
  | 2 => remarkRetired { s with contexts := [] }
  | 3 => setCls s { s.cls with stream := [], streamVer := [], stash := [], stashVer := [], stashHigh := false }
  | 4 => setCls s { s.cls with station := [] }
  | 5 => setCls s { s.cls with pfxEntries := [], filters := [] }
  | 6 => { s with mem := { s.mem with cache := [], plru := [] } }
  | 7 => updTrunk s 0 noEntries
  | 8 => updTrunk s 1 noEntries
  | 9 => updTrunk s 0 (fun x => { x with rxQ := [], presenting := none, rxSent := 0, rxStall := none })
  | 10 => updTrunk s 1 (fun x => { x with rxQ := [], presenting := none, rxSent := 0, rxStall := none })
  | 11 => updTrunk s 0 (fun x => { x with txQ := [], tfOpen := none })
  | 12 => updTrunk s 1 (fun x => { x with txQ := [], tfOpen := none })
  | 45 =>
    let s1 := memoryLoseStore s
    let s2 := setTime s1 { s1.time with fifo := [], fifoOverflowed := false, captures := s1.time.captures.map (fun e => (e.1, { e.2 with fifo := [] })) }
    let s3 := setTime s2 { s2.time with captures := s2.time.captures.filter (fun e => decide (e.2 ≠ capNone e.1)) }
    let s4 := setCls s3 { s3.cls with learnQ := [] }
    { s4 with events := { s4.events with pending := 0, cause := [], count := [], lastTime := [], detail := [] }
              ctrs := s4.ctrs.filter (fun e => !(decide (oa 0x14800 0 ≤ e.1) && decide (e.1 < oa 0x14900 0)))
              server := { s4.server with mailbox := { s4.server.mailbox with data := 0, length := 0, abort := 0 }
                                         rxQueue := [], txQueue := [], txWord := 0, txHeld := false } }
  | _ => setShim s (a - 13) Shim.default

/-- A row that fails BIST: a spare row, or its unit retired from the start (R441). Array 1 is not tested. -/
def bistRow (s : State) (f : Fin 46 × Nat) : State :=
  let a := f.1.val
  if a = 1 ∨ (arrayShape a).1 ≤ f.2 then s else
  let s1 := raise (countLasting s) evBistFail a
  if a = 45 then s1
  else if 0 < sparesLeft s1 a then
    let s2 := useSpare s1 a f.2
    spareEvents s2 a (arraySpares a) (sparesLeft s2 a) a
  else retireUnit s1 a (unitAt s1 a f.2) false

/-- A pipeline that fails BIST: a spare is marked retired, a serving one is replaced under R448. -/
def bistPipe (s : State) (k : Fin 24) : State :=
  let g := pipeGroup s k.val
  if g = 6 then s
  else
    let s1 := raise (countLasting s) evBistFail k.val
    if g = 5 then sparePipeEvents (setPipe s1 k.val 6) k.val else retirePipe s1 k.val

/-- Capacity lost between two states: an allocation shrink or a retired unit. -/
def capacityLost (s0 s1 : State) : Bool :=
  decide (s0.faults.retired.length < s1.faults.retired.length) ||
    (List.range 5).any (fun g => decide (groupCount s1 g < groupCount s0 g))

/-- The arrays with a faulty row among those tested. -/
def faultyArrays (rows : List (Fin 46 × Nat)) : Nat :=
  ((List.finRange 46).filter (fun a => a.val ≠ 1 && rows.any (fun f => f.1 == a))).length

/-- The tested arrays in ascending order. -/
def testedArrays : List Nat := (List.range 46).filter (fun a => a ≠ 1)

/-- Full BIST ends with a result; its grant is released. -/
def endBist (s : State) (result : BitVec 3) : State :=
  releaseGrant (setFaults s { s.faults with bist := .none, bistResult := result }) .fullBist

/-- The run is complete (R480). -/
def completeBist (s : State) (rows : List (Fin 46 × Nat)) (pipes : List (Fin 24)) : State :=
  let s1 := testedArrays.foldl coldArray s
  let s2 := pipes.foldl bistPipe (rows.foldl bistRow s1)
  let s3 := setFaults s2 { s2.faults with bistArrays := BitVec.ofNat 8 (faultyArrays rows) }
  endBist s3 (if capacityLost s s3 then 2 else if rows.isEmpty && pipes.isEmpty then 0 else 1)

/-- A revocation, a warm reset or the loss of PD_CTL abandons a running full BIST with result 4: the arrays begun are in
cold-reset content, and all of them but the last keep what was decided. One that still waits for its grant is not run. -/
def abandonBist (s : State) : State :=
  match s.faults.bist with
  | .none => s
  | .waiting => endBist s 3
  | .running =>
    let begun := testedArrays.take (Config.bistFindings s.now).1
    let decided := (Config.bistFindings s.now).2.filter (fun f => begun.dropLast.contains f.1.val)
    let s1 := decided.foldl bistRow (begun.foldl coldArray s)
    endBist (setFaults s1 { s1.faults with bistArrays := BitVec.ofNat 8 (faultyArrays decided) }) 4

def execBistComplete (arrays : List (Fin 46 × Nat)) (pipelines : List (Fin 24)) (s : State) : Out :=
  .next (if s.faults.bist = .running then completeBist s arrays pipelines else s)

/-! ### Spare-pipeline BIST (R480) -/

/-- A due run asks for its grant, in S0 only. -/
def spareGo (s : State) : State :=
  if s.faults.spareDue && decide (s.faults.spareBist = .none) && inS0 s then
    requestGrant (setFaults s { s.faults with spareDue := false, spareBist := .waiting }) .spareBist false
  else s

/-- A run is due, unless one is due, waiting or running. -/
def spareMakeDue (s : State) : State :=
  if s.faults.spareDue || decide (s.faults.spareBist ≠ .none) then s
  else spareGo (setFaults s { s.faults with spareDue := true })

/-- The run starts. -/
def spareGranted (s : State) : State := setFaults s { s.faults with spareBist := .running, spareStart := s.now }

/-- The run is not made or is abandoned: spare_bist_last reads 3. The next run counts from here. -/
def spareNotRun (s : State) : State :=
  releaseGrant (setFaults s { s.faults with spareBist := .none, spareLast := 3, spareStart := s.now }) .spareBist

/-- The run ends: failing spares are retired (R448). -/
def spareDone (s : State) (failed : List (Fin 24)) : State :=
  let bad := failed.filter (fun k => pipeGroup s k.val == 5)
  let s1 := bad.foldl bistPipe s
  releaseGrant (setFaults s1 { s1.faults with spareBist := .none, spareLast := if bad.isEmpty then 1 else 2
                                              spareRuns := satInc 0xFFFF s1.faults.spareRuns }) .spareBist

def bistCommand (data : Bytes) (s : State) : Ack :=
  match valueOf data with
  | 1 => startBist s
  | 2 => done (spareMakeDue s)
  | _ => refuse errRange s

def execFullBist (m : Master) (s : State) : Out := .next (commandWrite m 0x5F00 1 [1] bistCommand s)
def execSparePipelineBist (m : Master) (s : State) : Out := .next (commandWrite m 0x5F00 1 [2] bistCommand s)

/-- The period after the start of the last run, or after H6, is over. -/
def execSpareBistDue (s : State) : Out :=
  .next (if s.power.bringUp = .done && elapsed s s.faults.spareStart (secCycles (regN s 0x5F00 3)) then spareMakeDue s else s)

def execSpareBistRun (failed : List (Fin 24)) (s : State) : Out :=
  .next (if s.faults.spareBist = .running then spareDone s failed else s)

/-! ### Time in S0 (R452) -/

def execS0Second (s : State) : Out :=
  .next (if inS0 s && elapsed s s.faults.s0Start (secCycles 1) then
    bump (setFaults s { s.faults with s0Start := s.faults.s0Start + secCycles 1 }) 0x4803 1 else s)

/-! ### Objects (Tables 13.4 and 14.11) -/

def writeFaultObj (au : Auth) (idx sub : Nat) (data : Bytes) (s : State) : Ack :=
  let v := valueOf data
  match idx with
  | 0x4800 =>
    if sub = 5 then putRange idx sub 1 100 data s
    else if v % 65536 < 1 ∨ 3600 < v % 65536 ∨ v / 65536 % 4 = 0 ∨ v / 65536 % 4 = 3 then refuse errRange s
    else putReg idx sub data s
  | 0x4802 => putRange (chanIdx au idx) sub 0 45 data s
  | 0x4803 =>
    if sub = 2 then (if s.faults.wearWritten then refuse errState s
      else putReg idx sub data (setFaults s { s.faults with wearWritten := true }))
    else if s.faults.lastingWritten then refuse errState s
    else putReg idx sub data (setFaults s { s.faults with lastingWritten := true })
  | _ => if sub = 1 then bistCommand data s else putRange idx sub 1 3600 data s

def allocationWord (s : State) : Nat := (List.range 6).foldl (fun a g => a + groupCount s g * 2 ^ (8 * g)) 0

def readFaultObj (au : Auth) (idx sub : Nat) (s : State) : Except W32 Bytes :=
  match idx with
  | 0x4800 =>
    match sub with
    | 1 => numRead 8 (allocationWord s)
    | 2 => .ok (s.faults.pipelines.map (fun g => g.setWidth 8))
    | 3 => numRead 4 (portRateLimit s)
    | 4 => regRead s idx sub 4
    | 5 => regRead s idx sub 1
    | _ => numRead 2 (contextCapacity s)
  | 0x4802 =>
    let a := regN s (chanIdx au idx) 1
    match sub with
    | 1 => regRead s (chanIdx au idx) 1 1
    | 2 => numRead 2 (sparesLeft s a)
    | 3 => numRead 4 (arrayUnits a - retiredCount s a)
    | _ => ctrRead s (0x14800 + a) sub 8
  | 0x4803 =>
    match sub with
    | 3 => numRead 8 (Nat.min (regN s idx 2 + (ctr s idx 1).toNat) (2 ^ 64 - 1))
    | 5 => numRead 4 (Nat.min (regN s idx 4 + s.faults.lastingTotal.toNat) (2 ^ 32 - 1))
    | 2 => regRead s idx sub 8
    | 4 => regRead s idx sub 4
    | _ => ctrRead s idx sub 8
  | _ =>
    match sub with
    | 2 => numRead 4 ((decide (s.faults.bist ≠ .none)).toNat + s.faults.bistResult.toNat * 2 + s.faults.bistArrays.toNat * 2 ^ 8)
    | 3 => regRead s idx sub 2
    | 4 => numRead 4 (s.faults.spareLast.toNat + s.faults.spareRuns * 2 ^ 16)
    | _ => numRead 1 (s.power.tmHonoured.toNat + s.power.tmIgnored.toNat * 2)

end Sys2Proof.Machine
end

