-- ==== Sys2Proof/Machine/Grants.lean ====
section
/-! DEFINITION. The Power Grant Arbiter: granting, waiting, revoking, and what each heavy operation does (R100, R101, R427
to R432, Table 12.6), and its objects (Table 12.8). -/

namespace Sys2Proof.Machine

def setGrants (s : State) (g : Grants) : State := { s with grants := g }

/-! ### What a grant, its absence and its revocation mean (Table 12.6) -/

/-- What an operation does in the cycle in which it obtains its grant. -/
def granted (s : State) : HeavyOp → State
  | .derivation => s
  | .signing => s
  | .remask => s
  | .rebuild => s
  | .renorm _ => s
  | .regionOp r => regionGranted s r
  | .fullBist => bistGranted s
  | .spareBist => spareGranted s
  | .training t => trainingGranted s t

/-- Operations that keep waiting when grant_wait is over. -/
def keepsWaiting : HeavyOp → Bool
  | .remask => true
  | .training _ => true
  | _ => false

/-- No grant within grant_wait: the second column of Table 12.6. The request has left its queue. -/
def deniedGrant (s : State) : HeavyOp → State
  | .derivation => endBatch s 8
  | .signing => signingDenied s
  | .rebuild => endRebuild s 3
  | .regionOp r => regionDenied s r
  | .fullBist => endBist s 3
  | .spareBist => spareNotRun s
  | .remask => s
  | .training _ => s
  | .renorm _ => s

/-- A held grant is revoked and released: the operation yields (third column of Table 12.6). -/
def yieldGrant (s : State) (op : HeavyOp) : State :=
  let s1 := releaseGrant s op
  match op with
  | .derivation => endBatch s1 8
  | .signing => abandonRequest s1 6
  | .remask => requestGrant s1 .remask true
  | .rebuild => endRebuild s1 3
  | .renorm k => holdGrant s1 (.renorm k) false
  | .regionOp r => requestGrant s1 (.regionOp r) true
  | .fullBist => abandonBist s1
  | .spareBist => spareNotRun s1
  | .training t => trainingRevoked s1 t

/-! ### Deciding (R428, R429, R432) -/

/-- The arbiter grants: S0 is reported, no transition runs (R432), and PD_CTL is not isolated (R43). -/
def arbiterOpen (s : State) : Bool := inS0 s && ctlOn s

/-- pg_req and pg_step at the boundary: clamped while PD_CTL is isolated (R43). -/
def pgReqPin (s : State) : Bool := ctlOn s && s.grants.pgReq
def pgStepPin (s : State) : Byte := if ctlOn s then s.grants.pgStep else 0

/-- The head of the internal queue is granted when the budget outside the reserve allows it. -/
def issueInternal (s : State) : State :=
  match s.grants.internalQ with
  | [] => s
  | q :: rest =>
    if usedOther s.grants + q.step + 4 ≤ regN s 0x4A00 1 then
      granted (holdGrant (setGrants s { s.grants with internalQ := rest }) q.op false) q.op
    else s

/-- The external handshake of the head of its queue: pg_step first, pg_req at the next decision (R100, R429). -/
def issueExternal (s : State) : State :=
  match s.grants.externalQ with
  | [] => s
  | q :: rest =>
    if s.grants.pgReq || s.grants.pgGrant then s
    else if s.grants.pgStep.toNat ≠ q.step then setGrants s { s.grants with pgStep := BitVec.ofNat 8 q.step }
    else setGrants s { s.grants with externalQ := rest, handshake := some q, pgReq := true, pgSince := s.now,
                                     withdrawn := false }

/-- One decision of the arbiter. -/
def execGrantIssue (s : State) : Out := .next (if arbiterOpen s then issueExternal (issueInternal s) else s)

/-- pg_grant rises: the request in its handshake is granted; a rise without pg_req is ignored, counted and reported
(R101), but for the one that crosses the withdrawal of a handshake (R429). -/
def execPgGrantRise (s : State) : Out :=
  .next (if s.grants.pgGrant || !ctlOn s then s else
    let s1 := setGrants s { s.grants with pgGrant := true, withdrawn := false }
    if !s.grants.pgReq then (if s.grants.withdrawn then s1 else raise (bump s1 0x4A01 6) evGrantProtocol 0)
    else match s.grants.handshake with
      | some q => granted (holdGrant (setGrants s1 { s1.grants with handshake := none }) q.op true) q.op
      | none => s1)

/-! ### Limits (R429, R431) -/

/-- The request of an operation in a list. -/
def findReq (l : List GrantReq) (op : HeavyOp) : Option GrantReq := l.find? (fun q => q.op == op)

/-- An operation that keeps waiting is not limited again. -/
def unlimit (op : HeavyOp) (q : GrantReq) : GrantReq := if q.op = op then { q with noTimeout := true } else q

/-- grant_wait is over for a request in a queue. -/
def execGrantWaitExpiry (op : HeavyOp) (s : State) : Out :=
  .next (match findReq (s.grants.internalQ ++ s.grants.externalQ) op with
    | none => s
    | some q =>
      if q.noTimeout || !elapsed s q.since (msCycles (regN s 0x4A00 3)) then s else
      let s1 := bump s 0x4A01 2
      if keepsWaiting op then
        setGrants s1 { s1.grants with internalQ := s1.grants.internalQ.map (unlimit op), externalQ := s1.grants.externalQ.map (unlimit op) }
      else deniedGrant (releaseGrant s1 op) op)

/-- pg_grant has not risen within pg_timeout of pg_req. -/
def execPgTimeout (s : State) : Out :=
  .next (match s.grants.handshake with
    | none => s
    | some q =>
      if !s.grants.pgReq || !elapsed s s.grants.pgSince (msCycles (regN s 0x4A00 4)) then s else
      let s1 := raise (bump (setGrants s { s.grants with pgReq := false, handshake := none, withdrawn := true }) 0x4A01 5) evGrantTimeout 0
      if q.noTimeout || keepsWaiting q.op then setGrants s1 { s1.grants with externalQ := s1.grants.externalQ ++ [{ q with noTimeout := true }] }
      else deniedGrant s1 q.op)

/-- A grant held for grant_hold is revoked. -/
def execGrantHoldExpiry (op : HeavyOp) (s : State) : Out :=
  .next (match s.grants.held.find? (fun g => g.op == op) with
    | none => s
    | some g =>
      if elapsed s g.since (msCycles (regN s 0x4A00 2)) then yieldGrant (bump s 0x4A01 3) op else s)

/-- pg_grant falls while pg_req is 1: the external grant is revoked (R101). -/
def execGrantRevocation (s : State) : Out :=
  .next (if !s.grants.pgGrant || !s.grants.pgReq then s else
    let s1 := setGrants s { s.grants with pgGrant := false }
    match s.grants.held.find? (fun g => g.external) with
    | some g => yieldGrant (bump s1 0x4A01 4) g.op
    | none => s1)

/-- pg_grant falls while pg_req is 0: the handshake has ended (R100). -/
def execPgGrantFall (s : State) : Out :=
  .next (if s.grants.pgGrant && !s.grants.pgReq then setGrants s { s.grants with pgGrant := false } else s)

/-! ### Objects (Table 12.8) -/

def writeGrantObj (sub : Nat) (data : Bytes) (s : State) : Ack :=
  match sub with
  | 1 => putRange 0x4A00 1 4 0x28 data s
  | 2 => putRange 0x4A00 2 10 1000 data s
  | _ => putRange 0x4A00 sub 1 1000 data s

def grantStatus (s : State) : Nat :=
  Nat.min (usedBudget s.grants) 255 + (s.grants.held.any (fun g => g.external)).toNat * 2 ^ 8 + s.grants.pgReq.toNat * 2 ^ 9 +
    s.grants.internalQ.length * 2 ^ 16 + s.grants.externalQ.length * 2 ^ 24

def readGrantObj (idx sub : Nat) (s : State) : Except W32 Bytes :=
  if idx = 0x4A00 then
    (match sub with
      | 1 => regRead s idx sub 1
      | 5 => numRead 4 (grantStatus s)
      | _ => regRead s idx sub 2)
  else ctrRead s idx sub 8

/-! ### Resets -/

/-- The arbiter lies in PD_CTL: its queues, its grants and its handshake are gone (R104). pg_grant stays the partner's. -/
def arbiterLost (s : State) : State := setGrants s { Grants.default with pgGrant := s.grants.pgGrant }

end Sys2Proof.Machine
end

