-- ==== Sys2Proof/Machine/Losses.lean ====
section
/-! DEFINITION. What resets and power losses leave (Tables 6.13, 7.6, 10.7 and 12.3, R298, R408, R483, R493), the fuse
load (R94, R95, R234 to R236), test mode (R105, R487), and the report of S0 (R414, R484). -/

namespace Sys2Proof.Machine

/-! ### Dictionary Server (R483) -/

/-- The objects kept once per channel (R461) that stand among the settings. -/
def perChannel (a : Nat) : Bool :=
  let idx := a / 256 % 65536
  let sub := a % 256
  (idx = 0x2403 && sub = 1) || (idx = 0x3000 && sub = 1) || (idx = 0x3801 && sub = 1) || (idx = 0x3C20 && sub = 2) ||
    (idx = 0x4600 && sub = 1) || (idx = 0x4802 && sub = 1)

/-- Warm reset or loss of PD_CTL power: session, transfer, collection, mailbox and snapshots are gone, the per-channel
copies are at their defaults. -/
def serverLost (s : State) : State :=
  { s with server := Server.default, regs := s.regs.filter (fun e => !perChannel e.1)
           cls := { s.cls with hostRegs := TableRegs.default, dnRegs := TableRegs.default } }

/-! ### Retention Bank (R243) -/

def evaluateRetention (s : State) : State := s.keys.slots.foldl evaluateRetentionSlot s

/-! ### Domains (Table 12.3) -/

/-- The units of PD_CTL start again: BIST, the arbiter, the server, keys in work, attestation. A spare-pipeline BIST that
waits stays due, one that runs is not made. -/
def ctlRestart (s : State) : State :=
  let s1 := abandonBist s
  let s2 := if s1.faults.spareBist = .running then spareNotRun s1 else s1
  let s3 := attestRestart (keysRestart (serverLost (arbiterLost s2)))
  setFaults s3 { s3.faults with spareBist := .none
                                spareDue := s3.faults.spareDue || decide (s3.faults.spareBist = .waiting) }

/-- PD_CTL: its units, and the pending events. -/
def ctlLost (s : State) : State :=
  let s1 := ctlRestart s
  { s1 with events := { Events.default with held := s1.events.held } }

/-- PD_PATH and PD_FARM with PD_STORE kept: frames, work of the Memory Guard and of the Classifier, trunks. -/
def pathLost (s : State) : State :=
  let s1 := contextsWarm (dropFrames s)
  let s2 := setCls s1 { s1.cls with learnQ := [], passRunning := 0 }
  memoryWarm (trunkPathLost (trunkPathLost s2 0) 1)

/-- Settings and counters that outlast a loss of PD_STORE: the Power area and the wear record in PD_AON (R452,
Table 12.3), and the entropy declaration (Table 6.13). -/
def aonObject (a : Nat) : Bool :=
  let idx := a / 256
  idx = 0x2100 || idx = 0x2101 || idx = 0x4803 || a = 0x380801

/-- PD_STORE: main bank, contexts, tables, regions, trunks, and every setting and counter without another home. -/
def storeLost (s : State) : State :=
  let s1 := trunksLoseStore (memoryLoseStore (keysLoseStore s))
  remarkRetired { s1 with
    contexts := [], cls := Classifier.default, shims := []
    regs := s1.regs.filter (fun e => aonObject e.1), ctrs := s1.ctrs.filter (fun e => aonObject e.1)
    faults := { s1.faults with bistResult := 0, bistArrays := 0, spareLast := 0, spareRuns := 0 } }

/-- The losses of a stay in state k, in the order of R414 step 3 (Tables 12.1 and 12.3). -/
def losses (s : State) (k : Nat) : State :=
  let s1 := if 4 ≤ k then storeLost s else s
  let s2 := if 3 ≤ k then timeLost (ctlLost s1) else s1
  if 2 ≤ k then pathLost s2 else s2

/-- Source 224 is pending while CLOCK_LOST is latched (R454). -/
def followClockLost (s : State) : State :=
  { s with events := { s.events with pending := setBit s.events.pending evClockLost s.power.clockLost } }

/-- Every domain is released (H4, R414 step 3), held raises become pending (R455). The clocks of a released PD_TIME
advance from the cycle after (R408). -/
def releaseDomains (s : State) : State :=
  let s1 := setPower s { s.power with pdIso := 0, pdRet := false }
  followClockLost { s1 with events := releaseHeldEvents s1.events
                            time := if timeOn s then s1.time else { s1.time with startAt := s.now + 1 } }

/-! ### The fuse load (R95, R234 to R236) -/

/-- A new read of the fuse image begins: FUSE_FAULT is cleared, and with it the lifecycle state FAULT. DESIGN CHOICE
(log 69): the manual gives no lifecycle state from there to the end of the read; the model shows 0 (RAW). -/
def startFuse (s : State) : State :=
  setKeys s { s.keys with fuse := { FuseLoad.default with running := true, since := s.now }, fuseFault := false
                          lifecycle := if s.keys.fuseFault then 0 else s.keys.lifecycle }

/-- Bits set of the words of an image from `i`, `n` of them. -/
def fuseBits (image : List W32) (i n : Nat) : Nat := ((image.drop i).take n).foldl (fun a w => a + popCount w 32) 0

def fuseNumber (image : List W32) (i n : Nat) : Nat := ((image.drop i).take n).foldl (fun a w => a * 2 ^ 32 + w.toNat) 0

/-- The lifecycle state of word 11 (R234, Table 6.10). -/
def lifecycleOf (w : W32) : BitVec 3 :=
  let n (f : Nat) : Nat := popCount (w >>> (6 * f)) 6
  let blown := (List.range 5).map (fun f => decide (4 ≤ n f))
  let k := (blown.takeWhile id).length
  if (List.range 5).any (fun f => n f == 3) || (blown.drop k).any id then 6 else BitVec.ofNat 3 k

/-- fz_addr, and fz_req while a word is being read (R93, R94). -/
def fzAddr (s : State) : BitVec 6 := if ctlOn s then BitVec.ofNat 6 s.keys.fuse.word else 0
def fzReq (s : State) : Bool := ctlOn s && s.keys.fuse.running

/-- FUSE_FAULT: no part of the image is loaded and the lifecycle state is FAULT (R95, R235). -/
def fuseFailed (s : State) : State :=
  raise (setKeys s { s.keys with fuse := FuseLoad.default, fuseFault := true, lifecycle := 7, deviceId := 0, antiRollback := 0
                                 drs := none }) evFuseFault 0

/-- The whole image has been accepted. -/
def loadImage (s : State) (image : List W32) : State :=
  let life := lifecycleOf (image.getD 11 0)
  let loads := life = 2 ∨ life = 3
  let ones := fuseBits image 0 8
  if loads ∧ (ones < 64 ∨ 192 < ones) then fuseFailed s else
  let s1 := setKeys s { s.keys with
    fuse := { FuseLoad.default with drain := some s.now }, fuseLoaded := true, lifecycle := life, deviceId := BitVec.ofNat 64 (fuseNumber image 9 2)
    antiRollback := fuseBits image 13 2
    drs := if loads ∧ !s.power.tmHonoured then some (BitVec.ofNat 256 (fuseNumber image 0 8)) else none }
  if life = 4 ∨ life = 5 ∨ life = 6 then zeroizeBank (zeroizeBank s1 false) true else s1

/-! ### Test mode (R105) -/

/-- tm_mode is honoured: both banks and the Device Root Secret go, the DRBG is uninstantiated, its declaration at its
default (Tables 6.13 and 7.6). -/
def enterTest (s : State) : State :=
  let s1 := clearDrs (zeroizeBank (zeroizeBank s false) true)
  let s2 := attestTestMode (setReg (setKeys s1 { s1.keys with drbg := Drbg.default }) 0x3808 1 8)
  setPower s2 { s2.power with tmHonoured := true, tmPending := false }

/-- tm_mode is 1 and the lifecycle state is known. -/
def testMode (s : State) : State :=
  if s.keys.lifecycle = 0 ∨ s.keys.lifecycle = 1 ∨ s.keys.lifecycle = 4 then enterTest s
  else raise (setPower s { s.power with tmIgnored := true, tmPending := false }) evTestMode 0

/-! ### S0 (R414 step 6, H6) -/

/-- S0 is reported, with the state last left; a spare-pipeline BIST that was due is made. -/
def reportS0 (s : State) (k : BitVec 3) : State :=
  spareGo (raise (setPower s { s.power with present := 0, transition := .idle, lastLeft := k, bringUp := .done }) evPowerState 0)

/-- Step 5 of R414, second half: the DRBG is instantiated, and S0 waits for it; a failed known-answer test leaves nothing
to wait for. -/
def instantiateThen (s : State) (k : BitVec 3) : State :=
  let ok := Config.drbgTestsPass s.now
  let s1 := startInstantiation (setPower s { s.power with drbgAfterFuses := false, transition := .entropy k }) ok
  if ok then s1 else reportS0 s1 k

/-- The fuse load has ended: test mode, and what waited for it. -/
def fuseEnded (s : State) : State :=
  let s1 := if s.power.tmPending then testMode s else s
  match s1.power.bringUp, s1.power.transition with
  | .h5, _ => reportS0 (setFaults s1 { s1.faults with spareStart := s1.now }) 5
  | _, .fuses k => if s1.power.drbgAfterFuses then instantiateThen s1 k else reportS0 s1 k
  | _, _ => s1

/-- DRBG ready ends the wait of an exit (R414 step 5). -/
def afterDrbg (s : State) : State :=
  match s.power.transition, s.keys.drbg.phase with
  | .entropy k, .ready => reportS0 s k
  | _, _ => s

/-- A sample on en_data: taken while the DRBG collects (R96). -/
def execEntropySample (sample : W32) (s : State) : Out :=
  .next (if !ctlOn s then s else
    match s.keys.drbg.phase with
    | .instantiating => afterDrbg (collectSample s sample 384 finishInstantiation)
    | .reseeding => collectSample s sample 256 finishReseed
    | _ => s)

/-! ### Fuse reads (R94, R95) -/

/-- The word was accepted: the next word, or the end of the image. -/
def acceptFuseWord (s : State) (d : W32) : State :=
  let f := s.keys.fuse
  let image := f.image ++ [d]
  if f.word + 1 = 64 then fuseEnded (loadImage s image)
  else setKeys s { s.keys with fuse := { f with word := f.word + 1, repeated := false, since := s.now, image := image } }

/-- fz_ack has moved and fz_req has followed: the limit of R94 counts from this edge; after the last word fz_ack has fallen. -/
def fuseMoved (s : State) : State :=
  let f := s.keys.fuse
  setKeys s { s.keys with fuse := if f.running then { f with since := s.now } else { f with drain := none } }

/-- A pair of reads of the present word: equal and clean, or repeated once, or FUSE_FAULT. -/
def fusePair (d1 : W32) (e1 : Bool) (d2 : W32) (e2 : Bool) (s : State) : State :=
  let f := s.keys.fuse
  if !f.running then s
  else if d1 = d2 ∧ !e1 ∧ !e2 then acceptFuseWord (if f.repeated then bump s 0x380A 6 else s) d1
  else if f.repeated then fuseEnded (fuseFailed s)
  else setKeys s { s.keys with fuse := { f with repeated := true, since := s.now } }

def execFuseRead (d1 : W32) (e1 : Bool) (d2 : Option W32) (e2 : Bool) (s : State) : Out :=
  .next (if !ctlOn s then s else
    match d2 with
    | some d => fusePair d1 e1 d e2 s
    | none => fuseMoved s)

/-- fz_ack has not followed the last edge of fz_req within 4,096 clk_ctl cycles: during the read of a word, or after the last
word. -/
def execFuseTimeout (s : State) : Out :=
  let f := s.keys.fuse
  let late (c : Nat) : Bool := ctlOn s && elapsed s c (ctlCycles 4096)
  .next (
    if f.running then (if late f.since then fuseEnded (fuseFailed s) else s)
    else match f.drain with
      | some c => if late c then fuseFailed s else s
      | none => s)

/-- tm_so: the scan chains are connected in test mode only (R102, R105). -/
def tmSo (s : State) : W32 := if s.power.tmHonoured then Config.scanOut s.now else 0

/-- tm_mode rises; before the lifecycle state is established it waits (R487). -/
def execTestModeEntry (s : State) : Out :=
  .next (
    let known : Bool := match s.power.transition with
      | .fuses _ => false
      | .entropy _ => ctlOn s
      | _ => s.power.bringUp == .done && ctlOn s && !s.keys.fuse.running
    if s.power.tmHonoured then s
    else if known then testMode s else setPower s { s.power with tmPending := true })

end Sys2Proof.Machine
end

