-- ==== Sys2Proof/Machine/Power.lean ====
section
/-! DEFINITION. The power ladder, its handshakes and the wake causes (R97 to R99, R404, R409 to R426), and their objects
(Table 12.7). -/

namespace Sys2Proof.Machine

/-! ### Inputs (R421) -/

/-- Input i is at its active level. -/
def wakeActive (s : State) (i : Nat) : Bool := s.power.wakeInLevel.getLsbD i == bit (reg s 0x2100 4) (4 + i)

def wakeMasked (s : State) (i : Nat) : Bool := s.power.wakeInMask.getLsbD i || s.power.wakeInMask.getLsbD (4 + i)

/-- Input i is a wake cause: enabled, unmasked and at its active level. -/
def wakeInCause (s : State) (i : Nat) : Bool := wakeEnabled s i && !wakeMasked s i && wakeActive s i

/-- The levels of the wake inputs as causes [3:0]. -/
def levelCauses (s : State) : State :=
  (List.range 4).foldl (fun s i => if wakeInCause s i then latchCause s i 1 4 else s) s

/-- The stuck limit of input i counts from this cycle, when it is at its active level. -/
def countStuck (s : State) (i : Nat) : State :=
  setPower s { s.power with stuckFrom := if wakeActive s i then spPut s.power.stuckFrom i s.now else spDel s.power.stuckFrom i }

/-! ### Entering a state (R412, R413) -/

/-- Requests of mq_ or a region command are outstanding. -/
def memoryBusy (s : State) : Bool :=
  [(0 : Chan), 1].any (fun k => !(memChan s k).rsp.isEmpty || (memChan s k).ops.any isRequest) ||
    (List.finRange 8).any (fun r => (regionDyn s r).run.isSome)

/-- Grants held or queued. -/
def grantsBusy (s : State) : Bool :=
  !s.grants.held.isEmpty || !s.grants.internalQ.isEmpty || !s.grants.externalQ.isEmpty || s.grants.handshake.isSome

/-- Table 12.2 for targets 1 to 5: the first condition that holds. -/
def entryRefusal (s : State) (k : Nat) : Option (BitVec 4) :=
  if s.power.present ≠ 0 then some 1
  else if (List.range 32).any (fun p => portRate s p != 0) then some 2
  else if (trunk s 0).state != .disabled || (trunk s 1).state != .disabled then some 3
  else if memoryBusy s then some 4
  else if grantsBusy s then some 5
  else if (List.range 4).any (wakeInCause s) then some 6
  else if 3 ≤ k ∧ s.power.aonFault then some 7
  else if s.power.transition ≠ .idle then some 8
  else none

/-- Table 12.2 for target 0. -/
def exitRefusal (s : State) : Option (BitVec 4) :=
  if s.power.present ≠ 1 ∧ s.power.present ≠ 2 then some 1
  else if s.power.transition ≠ .idle then some 8 else none

/-- The pd_iso bits of the domains that are Off in state k (Table 12.1). -/
def isoOf (k : Nat) : BitVec 6 :=
  if k ≤ 1 then 0 else if k = 2 then 0b110000 else if k = 3 then 0b110110 else 0b111110

/-- Steps 3 to 5 of R413 for state k. -/
def isolateFor (s : State) (k : BitVec 3) : State :=
  driveReq (setPower s { s.power with pdIso := s.power.pdIso ||| isoOf k.toNat, pdRet := decide (k = 3), entryWait := false }) k

/-- Step 2 of R413 is over: every message accepted from the field network has been answered. A running retention commit
does not outlast its cycle in this model. -/
def answered (s : State) : Bool := s.server.rxQueue.isEmpty && s.server.txQueue.isEmpty

/-- The end of step 2: open staging and derivation are aborted with code 13; then steps 3 to 5. -/
def leaveCtl (s : State) (k : BitVec 3) : State := isolateFor (endBatch (abortStaging s 13) 13) k

/-- R413 for state k. -/
def startEntry (s : State) (k : Nat) : State :=
  let kk : BitVec 3 := BitVec.ofNat 3 k
  let s1 := setPower s { s.power with transition := .entering kk, wakeDue := false }
  if k < 3 then isolateFor s1 kk
  else if answered s then leaveCtl s1 kk
  else setPower s1 { s1.power with entryWait := true }

/-- An entry that waits in step 2 goes on when the last answer has been sent. -/
def resumeEntry (s : State) : State :=
  match s.power.transition with
  | .entering k => if s.power.entryWait && answered s then leaveCtl s k else s
  | _ => s

def refuseEntry (s : State) (c : BitVec 4) : Ack :=
  refuse errState (bump (setPower s { s.power with lastCode := c }) 0x2101 1)

/-- A write of 0x2100.01. -/
def powerTarget (data : Bytes) (s : State) : Ack :=
  let k := valueOf data
  if 5 < k then refuse errRange s
  else if k = 0 then
    match exitRefusal s with
    | some c => refuseEntry s c
    | none => done (startExit s s.power.present)
  else match entryRefusal s k with
    | some c => refuseEntry s c
    | none => done (startEntry s k)

def execPowerStateRequest (m : Master) (target : Byte) (s : State) : Out :=
  .next (commandWrite m 0x2100 1 [target] powerTarget s)

def execStateExitRequest (m : Master) (s : State) : Out := .next (commandWrite m 0x2100 1 [0] powerTarget s)

/-! ### Power handshakes (R98, R99, R413 step 5, R414, R484) -/

/-- Divider lock (R37): step H1 ends. -/
def lockDividers (s : State) : State :=
  if s.power.bringUp = .h1 then setPower s { s.power with bringUp := .h2, dividerLock := true } else s

/-- H3 to H5. -/
def bringUpDomains (s : State) : State :=
  let s1 := startFuse (releaseDomains s)
  setPower s1 { s1.power with bringUp := .h5 }

/-- State k is established: the Wake Matcher listens in S1 to S4, and a cause latched during the entry starts the exit. -/
def establish (s : State) (k : BitVec 3) : State :=
  let due := s.power.wakeDue
  let s1 := setPower s { s.power with present := k, transition := .idle, wakeDue := false, wakeFrReady := decide (k.toNat ≤ 4) }
  if due then startExit s1 k else s1

/-- Steps 2 to 5 of R414 after a stay in state k; the DRBG is instantiated after the fuse read. -/
def wakeDomains (s : State) (k : BitVec 3) : State :=
  let s1 := releaseDomains (losses s k.toNat)
  if 3 ≤ k.toNat then
    startFuse (evaluateRetention (setPower s1 { s1.power with transition := .fuses k, drbgAfterFuses := true }))
  else reportS0 s1 k

/-- A pwr_ack value seen on two consecutive samples that equals pwr_req. -/
def ackPower (s : State) : State :=
  let s1 := setPower s { s.power with
    pwrAck := s.power.pwrReq, ackSeen := true
    monitorFrom := if 4 ≤ s.power.pwrAck.toNat ∧ s.power.pwrReq = 0 then some s.now else s.power.monitorFrom }
  match s1.power.bringUp with
  | .h5 => s1
  | .done =>
    (match s1.power.transition with
      | .entering k =>
        if s1.power.entryWait then s1 else if s1.power.pwrReq = k then establish s1 k else driveReq s1 k
      | .exiting k =>
        if s1.power.pwrReq ≠ 0 then driveReq s1 0
        else if s1.power.clockLost then s1 else wakeDomains s1 k
      | _ => s1)
  | _ => if s1.power.clockLost then s1 else bringUpDomains (lockDividers s1)

def execPowerAck (value : BitVec 3) (s : State) : Out := .next (if value = s.power.pwrReq then ackPower s else s)

/-- The engine waits for pwr_ack to match pwr_req: in H2 until it has been seen to, in a transition while it differs. -/
def awaitsAck (s : State) : Bool :=
  match s.power.bringUp, s.power.transition with
  | .h2, _ => !s.power.ackSeen
  | .done, .entering _ => s.power.pwrAck != s.power.pwrReq
  | .done, .exiting _ => s.power.pwrAck != s.power.pwrReq
  | _, _ => false

def handshakeEvent (s : State) : State := raise (bump s 0x2101 2) evPowerHandshake 0

/-- The two power-handshake faults of R99. -/
def execPowerHandshakeFault (f : HandshakeFault) (s : State) : Out :=
  .next (match f with
    | .timeout =>
      if awaitsAck s && !s.power.handshakeRaised && elapsed s s.power.handshakeStart (msCycles (regN s 0x2100 3)) then
        handshakeEvent (setPower s { s.power with handshakeRaised := true })
      else s
    | .wrongValue v =>
      if v = s.power.pwrReq ∨ v = s.power.pwrAck then s else handshakeEvent (setPower s { s.power with pwrAck := v }))

/-! ### Wake decisions (R418, R419) -/

/-- A cause presented as a level: bits [3:0] and [7:5] of wake_cause. -/
def execWakeDecision (src : WakeSource) (s : State) : Out :=
  .next (match src with
    | .wakeIn i => if wakeInCause s i.val then latchCause s i.val 1 4 else s
    | .memory => if wakeEnabled s 9 then latchCause s 5 1 2 else s
    | .host => if wakeEnabled s 10 then latchCause s 6 3 4 else s
    | .fieldNetwork => if wakeEnabled s 11 then latchCause s 7 3 4 else s)

/-- A recognition at the active level: counted for chatter, and masked above the chatter count (R421). -/
def recognise (s : State) (i : Nat) : State :=
  let n := spGet natZero s.power.chatter i + 1
  let s1 := setPower s { s.power with chatter := spSet natZero s.power.chatter i n }
  if field (reg s 0x2100 0x1C) 23 16 < n && !s.power.wakeInMask.getLsbD (4 + i) then
    raise (setPower s1 { s1.power with wakeInMask := setBit s1.power.wakeInMask (4 + i) true }) evWakeChatter i
  else s1

def execWakeInEdge (i : Fin 4) (level : Bool) (s : State) : Out :=
  .next (if s.power.wakeInLevel.getLsbD i.val = level then s else
    let s1 := countStuck (setPower s { s.power with wakeInLevel := setBit s.power.wakeInLevel i.val level }) i.val
    let s2 := if wakeActive s1 i.val && wakeEnabled s1 i.val then recognise s1 i.val else s1
    if wakeInCause s2 i.val then latchCause s2 i.val 1 4 else s2)

/-- An enabled input at its active level for longer than the stuck limit is masked (R421). -/
def execWakeInputStuck (i : Fin 4) (s : State) : Out :=
  .next (match spFind s.power.stuckFrom i.val with
    | some c =>
      if wakeEnabled s i.val && wakeActive s i.val && !s.power.wakeInMask.getLsbD i.val &&
          elapsed s c (msCycles (field (reg s 0x2100 0x1C) 15 0) + 1) then
        raise (setPower s { s.power with wakeInMask := setBit s.power.wakeInMask i.val true }) evWakeStuck i.val
      else s
    | none => s)

/-- A chatter window of 32,768 clk_aon cycles ends. -/
def execChatterWindow (s : State) : Out :=
  .next (if elapsed s s.power.chatterStart (aonCycles 32768) then
    setPower s { s.power with chatter := [], chatterStart := s.power.chatterStart + aonCycles 32768 } else s)

/-! ### Wake frames (R91, R422 to R426) -/

def wakeKey (s : State) : W16 := (reg s 0x2100 6).setWidth 16

/-- The slot and its ancestors lie in the Retention Bank (R423). -/
def retentionChain (s : State) : Nat → W16 → Bool
  | 0, k => refRetention k
  | n + 1, k => refRetention k && (!(slotOf s k).hasParent || retentionChain s n (slotOf s k).parent)

/-- The format tests of R424. -/
def wakeFormatOk (s : State) (f : Bytes) : Bool :=
  f.length == 40 && beNat (slice f 0 6) == field (reg s 0x2100 7) 47 0 && beNat (slice f 12 2) == regN s 0x2100 8 &&
    byteAt f 14 == 1 && decide ((byteAt f 15).toNat < 16) && bit (reg s 0x2100 9) (byteAt f 15).toNat

/-- The bound wake key serves: effectively LIVE (R423). -/
def wakeKeyUsable (s : State) : Bool := refInRange (wakeKey s) && effState s (wakeKey s) == .live

/-- The tag of Table 12.5. -/
def wakeTag (s : State) (f : Bytes) : Bytes :=
  (cmac256 (slotValue s (wakeKey s)) (wordBytes s.keys.deviceId ++ f.take 32)).take 8

/-- The floor, wake_last and the cause of an accepted frame. -/
def acceptWake (s : State) (f : Bytes) : State :=
  let src := (byteAt f 15).toNat
  let s1 := setReg s 0x2100 (0x0A + src) (BitVec.ofNat 64 (beNat (slice f 16 8)))
  let s2 := setPower s1 { s1.power with wakeLast := BitVec.ofNat 8 src :: zeros 7 ++ slice f 24 8 }
  let s3 := bump s2 0x2101 9
  if wakeEnabled s3 8 then latchCause s3 4 1 4 else s3

/-- The decision on one frame (R424). -/
def decideWake (s : State) (f : Bytes) : State :=
  let src := (byteAt f 15).toNat
  if !wakeFormatOk s f then bump s 0x2101 3
  else if beNat (slice f 16 8) ≤ regN s 0x2100 (0x0A + src) then bump s 0x2101 4
  else if !wakeKeyUsable s then bump s 0x2101 5
  else if s.power.tokens = 0 then bump s 0x2101 6
  else
    let s1 := setPower s { s.power with tokens := s.power.tokens - 1 }
    if wakeTag s f ≠ slice f 32 8 then raise (bump s1 0x2101 7) evWakeAuthFail src
    else acceptWake s1 f

/-- The oldest held frame is decided; a wake decision drops the frames behind it (R424). -/
def decideOldest (s : State) : State :=
  match s.power.wakeHeld with
  | [] => s
  | h :: rest => decideWake (setPower s { s.power with wakeHeld := rest }) h.bytes

/-- A frame has arrived: held in one of two places, or dropped. It is decided in this cycle or later, within 64 clk_aon
cycles. -/
def holdWake (s : State) (f : Bytes) : State :=
  if 2 ≤ s.power.wakeHeld.length then bump s 0x2101 8
  else
    let s1 := setPower s { s.power with wakeHeld := s.power.wakeHeld ++ [{ bytes := f, since := s.now }] }
    if Config.wakeDecides s.now && !s.power.aonFault then decideOldest s1 else s1

/-- The Wake Matcher in one cycle: it decides its oldest frame when it comes to it, and at 64 clk_aon cycles at the
latest; no frame is decided while clk_aon is faulty (R41). -/
def wakeTick (s : State) : State :=
  match s.power.wakeHeld with
  | [] => s
  | h :: _ =>
    if !s.power.aonFault && (Config.wakeDecides s.now || elapsed s h.since (aonCycles 64)) then decideOldest s else s

/-- The words on wake_fr_ since the last complete frame: none, an open frame, or words of a frame without a first word. -/
inductive WakeRun where
  | none
  | frame (words : List MsgWord)
  | headless
  deriving DecidableEq, Repr

/-- A broken run is counted once, when it ends (R91). -/
def countBroken (s : State) : WakeRun → State
  | .none => s
  | _ => bump s 0x2101 3

/-- A word that continues a frame of `ws`: the frame ends with its last word, and is counted above 16 words. -/
def extendWake (s : State) (ws : List MsgWord) (w : MsgWord) : State × WakeRun :=
  let all := ws ++ [w]
  if !w.last then (s, .frame all)
  else if 16 < all.length then (bump s 0x2101 3, .none)
  else (holdWake s (all.flatMap (fun x => wordBytes x.data)), .none)

/-- One word on wake_fr_ (R88, R91): a frame runs from a first word to a last one; any other run of words is discarded and
counted in wake_bad_format. -/
def takeWakeWord (a : State × WakeRun) (w : MsgWord) : State × WakeRun :=
  if !a.1.power.wakeFrReady then (a.1, .none)
  else if w.first then extendWake (countBroken a.1 a.2) [] w
  else match a.2 with
    | .frame ws => extendWake a.1 ws w
    | _ => if w.last then (bump a.1 0x2101 3, .none) else (a.1, .headless)

/-- The words of a wake frame arrive; one that lacks its last word is broken. -/
def execWakeFrame (words : List MsgWord) (s : State) : Out :=
  .next (
    let r := words.foldl takeWakeWord (s, .none)
    if r.1.power.wakeFrReady then countBroken r.1 r.2 else r.1)

/-- The refill interval in clk_aon cycles: ceil(refill · 32.768). -/
def refillInterval (s : State) : Nat := ceilDiv (field (reg s 0x2100 0x1B) 31 16 * 32768) 1000

def wakeBurst (s : State) : Nat := field (reg s 0x2100 0x1B) 4 0

/-- A refill interval ends (R426). -/
def execTokenRefill (s : State) : Out :=
  .next (if elapsed s s.power.refillStart (aonCycles (refillInterval s)) then
    setPower s { s.power with tokens := Nat.min (wakeBurst s) (s.power.tokens + 1)
                              refillStart := s.power.refillStart + aonCycles (refillInterval s) }
  else s)

/-! ### Objects (Table 12.7) -/

/-- W1C of wake_cause (R420). -/
def clearCauses (data : Bytes) (s : State) : Ack :=
  done (setPower s { s.power with wakeCause := s.power.wakeCause &&& ~~~(BitVec.ofNat 32 (valueOf data)) })

def execWakeCauseClear (m : Master) (value : W32) (s : State) : Out :=
  .next (commandWrite m 0x2100 5 (wordBytes value) clearCauses s)

/-- W1C of wake_in_mask: an unmasked input at its active level is a cause from this cycle, and its stuck limit counts
again. -/
def unmaskInputs (data : Bytes) (s : State) : Ack :=
  let v : Byte := BitVec.ofNat 8 (valueOf data)
  let s1 := setPower s { s.power with wakeInMask := s.power.wakeInMask &&& ~~~v }
  let s2 := (List.range 4).foldl (fun s i => if v.getLsbD i || v.getLsbD (4 + i) then countStuck s i else s) s1
  done (levelCauses s2)

def execWakeInUnmask (m : Master) (value : Byte) (s : State) : Out :=
  .next (commandWrite m 0x2100 0x1D [value] unmaskInputs s)

/-- A write of wake_key (R423). -/
def writeWakeKey (data : Bytes) (s : State) : Ack :=
  let k : W16 := BitVec.ofNat 16 (valueOf data)
  if wakeEnabled s 8 then refuse errState s
  else if !keyRefOk k true ∨ (refInRange k ∧ !refRetention k) then refuse errRange s
  else if k = keyNone then done (setReg (releaseKey s (wakeKey s)) 0x2100 6 (k.setWidth 64))
  else if effState s k ≠ .live ∨ (slotOf s k).usage ≠ .mac ∨ !retentionChain s 4 k ∨ bindSaturated s k then refuse errState s
  else done (setReg (bindKey (releaseKey s (wakeKey s)) k) 0x2100 6 (k.setWidth 64))

def execWakeKeyWrite (m : Master) (key : W16) (s : State) : Out :=
  .next (commandWrite m 0x2100 6 (toBE 2 key.toNat) writeWakeKey s)

/-- A write of wake_control: frame enable needs a bound key (R423); a changed polarity or enable counts at once. -/
def writeWakeControl (data : Bytes) (s : State) : Ack :=
  let v : W64 := BitVec.ofNat 64 (valueOf data)
  if bit v 8 && !refInRange (wakeKey s) then refuse errState s else
  let old := reg s 0x2100 4
  let s1 := setReg s 0x2100 4 v
  let moved (i : Nat) : Bool := bit v i != bit old i || bit v (4 + i) != bit old (4 + i)
  done (levelCauses ((List.range 4).foldl (fun s i => if moved i then countStuck s i else s) s1))

def writePowerObj (sub : Nat) (data : Bytes) (s : State) : Ack :=
  let v := valueOf data
  match sub with
  | 1 => powerTarget data s
  | 3 => putRange 0x2100 sub 1 1000 data s
  | 4 => writeWakeControl data s
  | 5 => clearCauses data s
  | 6 => writeWakeKey data s
  | 7 => if 2 ^ 48 ≤ v then refuse errRange s else putReg 0x2100 sub data s
  | 0x1B =>
    if v % 32 < 1 ∨ 16 < v % 32 ∨ v / 65536 < 10 ∨ 60000 < v / 65536 then refuse errRange s else
    let r := putReg 0x2100 sub data s
    done (setPower r.1 { r.1.power with tokens := Nat.min (v % 32) r.1.power.tokens })
  | 0x1C =>
    if v % 65536 < 100 ∨ 60000 < v % 65536 ∨ v / 65536 % 256 < 2 then refuse errRange s else putReg 0x2100 sub data s
  | 0x1D => unmaskInputs data s
  | _ =>
    if 0x0A ≤ sub ∧ sub ≤ 0x19 then (if v < regN s 0x2100 sub then refuse errRange s else putReg 0x2100 sub data s)
    else putReg 0x2100 sub data s

/-- 0x2100.02. -/
def powerStatus (s : State) : Nat :=
  let p := s.power
  p.present.toNat + (decide (p.transition ≠ .idle ∨ p.bringUp ≠ .done)).toNat * 8 + p.lastCode.toNat * 16 + p.lastLeft.toNat * 256

def readPowerObj (idx sub : Nat) (s : State) : Except W32 Bytes :=
  if idx = 0x2101 then ctrRead s idx sub 8 else
  match sub with
  | 2 => numRead 4 (powerStatus s)
  | 3 => regRead s 0x2100 sub 2
  | 4 => regRead s 0x2100 sub 4
  | 5 => numRead 4 s.power.wakeCause.toNat
  | 7 => regRead s 0x2100 sub 8
  | 0x1A => .ok s.power.wakeLast
  | 0x1B => regRead s 0x2100 sub 4
  | 0x1C => regRead s 0x2100 sub 4
  | 0x1D => numRead 1 s.power.wakeInMask.toNat
  | 0x1E => numRead 1 s.power.wakeInLevel.toNat
  | _ => regRead s 0x2100 sub (if 0x0A ≤ sub ∧ sub ≤ 0x19 then 8 else 2)

end Sys2Proof.Machine
end

