-- ==== Sys2Proof/Machine/Resets.lean ====
section
/-! DEFINITION. Cold and warm reset (R102 to R104, R484, R487), and the clock monitor (R38 to R41). -/

namespace Sys2Proof.Machine

/-- Cold reset: every field at its reset value; the commands that wait are the sender's and stay. A latched CLOCK_LOST
stays latched until a following window is in range (R39). -/
def coldReset (s : State) : State :=
  let p := Power.default
  followClockLost { State.reset with
    pending := s.pending, power := { p with clockLost := s.power.clockLost, recoveryDue := s.power.clockLost } }

def execColdReset (s : State) : Out := .next (coldReset s)

/-- The domains that are On start again; PD_AON is not reset (R104). -/
def warmRestart (s : State) (tableRunning : Bool) : State :=
  let s1 := classifierWarm (ctlRestart s) tableRunning
  let s2 := timeWarm (pathLost s1)
  let s3 := evaluateRetention s2
  match s3.power.transition with
  | .fuses _ => spareGo (startFuse s3)
  | .entropy k => spareGo (startFuse (setPower s3 { s3.power with transition := .fuses k, drbgAfterFuses := true }))
  | _ => spareGo (startFuse (startInstantiation s3 (Config.drbgTestsPass s.now)))

/-- The recovery of R40 waits for an in-range window, when CLOCK_LOST is latched. -/
def armRecovery (s : State) : State :=
  if s.power.clockLost then setPower s { s.power with recoveryDue := true } else s

/-- Warm reset, from its assertion to its deassertion. In S1 to S4 its end is wake cause [9]; while CLOCK_LOST is latched
it only arms the recovery of R40; before H6 the fuse load begins after it, and reset_count has counted it (R248). -/
def warmReset (s : State) (tableRunning : Bool) : State :=
  match s.power.bringUp with
  | .h1 => armRecovery (attestRestart s)
  | .h2 => armRecovery (attestRestart s)
  | .h5 => if s.power.clockLost then armRecovery (attestRestart s) else startFuse (attestRestart s)
  | .done =>
    let s1 := if s.power.clockLost then armRecovery s
      else if ctlOn s then warmRestart s tableRunning else s
    latchCause s1 9 1 4

def execWarmReset (tableRunning : Bool) (s : State) : Out := .next (warmReset s tableRunning)

/-! ### The clock monitor (R38 to R40, R410) -/

/-- The monitor evaluates the window that ends: pwr_req and pwr_ack show neither 4 nor 5, clk_aon runs, and the window of
32 clk_aon cycles started after pwr_ack last returned to 0 (R410). -/
def monitorOn (s : State) : Bool :=
  decide (s.power.pwrReq.toNat < 4) && decide (s.power.pwrAck.toNat < 4) && !s.power.aonFault &&
    match s.power.monitorFrom with
    | some c => elapsed s c (aonCycles 32)
    | none => true

/-- Two consecutive windows out of range: CLOCK_LOST is latched and every other domain isolated (R39). -/
def loseClock (s : State) : State :=
  raise (setPower s { s.power with clockLost := true, recoveryDue := false, pdIso := 0b111110 }) evClockLost 0

/-- H3 to H6 after CLOCK_LOST: every domain but PD_AON has lost its content as in S4 (R40). Before H3 the cold-start
sequence goes on, when pwr_ack has shown S0. -/
def recoverClock (s : State) : State :=
  let s1 := setPower s { s.power with clockLost := false, recoveryDue := false }
  match s.power.bringUp with
  | .h1 => if s.power.ackSeen then bringUpDomains (lockDividers s1) else followClockLost s1
  | .h2 => if s.power.ackSeen then bringUpDomains s1 else followClockLost s1
  | _ =>
    let s2 := releaseDomains (losses s1 4)
    let s3 := setPower s2 { s2.power with
      bringUp := .done, present := 0, transition := .fuses 4, drbgAfterFuses := false, entryWait := false }
    startFuse (startInstantiation (evaluateRetention s3) (Config.drbgTestsPass s.now))

/-- The count of a window is outside 2,343,750 ± 11,718. -/
def windowBad (count : W32) : Bool := decide (count.toNat < 2343750 - 11718) || decide (2343750 + 11718 < count.toNat)

/-- A window out of range. -/
def badWindow (s : State) : State :=
  let n := s.power.outRun + 1
  let s1 := raise (setPower s { s.power with windowOut := true, outRun := n }) evClockFault 0
  if 2 ≤ n && !s.power.clockLost then loseClock s1 else s1

/-- A window in range; it ends CLOCK_LOST after a warm reset, once pwr_ack shows S0. -/
def goodWindow (s : State) : State :=
  let s1 := setPower s { s.power with windowOut := false, outRun := 0 }
  if s.power.clockLost && s.power.recoveryDue && s.power.pwrReq == 0 && s.power.pwrAck == 0 then recoverClock s1 else s1

def execClockMonitorWindow (count : W32) (s : State) : Out :=
  .next (if !monitorOn s then s else
    let s1 := setPower s { s.power with rootCount := count }
    if windowBad count then badWindow s1 else goodWindow s1)

/-! ### clk_aon (R41) -/

def execAonClockFault (s : State) : Out :=
  .next (if s.power.aonFault then s else raise (setPower s { s.power with aonFault := true }) evAonClockFault 0)

/-- clk_aon edges arrive again: wake decisions are taken again, and an input at its active level is a cause at once. -/
def execAonClockReturn (s : State) : Out :=
  .next (if s.power.aonFault then levelCauses (setPower s { s.power with aonFault := false }) else s)

/-- 0x2200.01. -/
def clockStatus (s : State) : Nat :=
  s.power.dividerLock.toNat + s.power.clockLost.toNat * 2 + s.power.windowOut.toNat * 4 + s.power.aonFault.toNat * 8

end Sys2Proof.Machine
end

