-- ==== Sys2Proof/Machine/Flags.lean ====
section
/-! DEFINITION. The event flags: pending and enable words, cause words, irq lines and the error register (R92, R453 to
R456, Tables 13.5 and 13.6). -/

namespace Sys2Proof.Machine

/-- Sources that Table 13.6 does not mark reserved. -/
def sourceExists (e : Nat) : Bool :=
  decide (e ≤ 43) || (decide (64 ≤ e) && decide (e ≤ 75)) || (decide (96 ≤ e) && decide (e ≤ 105)) ||
    (decide (128 ≤ e) && decide (e ≤ 171)) || (decide (192 ≤ e) && decide (e ≤ 198)) || (decide (224 ≤ e) && decide (e ≤ 245))

/-- A line's word with the bits of reserved sources 0. -/
def existingBits (line : Nat) (w : W32) : W32 :=
  (List.range 32).foldl (fun w b => if sourceExists (32 * line + b) then w else setBit w b false) w

def pendingWord (s : State) (line : Nat) : W32 := s.events.pending.extractLsb' (32 * line) 32

/-- The enable word of a line; the bit of source 224 reads 1 (R454). -/
def enableWord (s : State) (line : Nat) : W32 :=
  let w : W32 := (reg s 0x2401 (line + 1)).setWidth 32
  if line = 7 then setBit w 0 true else w

/-- irq[i] (R39, R92). -/
def irqLine (s : State) (i : Nat) : Bool :=
  (ctlOn s && pendingWord s i &&& enableWord s i != 0) || (i == 7 && s.power.clockLost)

/-- 0x1001: an enabled source of severity E or C is pending; these are the sources enabled at cold reset (R456). -/
def errorRegister (s : State) : Nat :=
  ((List.range 8).any (fun i =>
    pendingWord s i &&& enableWord s i &&& (regDefaultAt 0x2401 (i + 1)).setWidth 32 != 0)).toNat

/-- Clear the pending bit of a source, with its cause word (R454). -/
def clearSource (e : Events) (src : Nat) : Events :=
  if src = evClockLost then e
  else { e with pending := setBit e.pending src false, cause := spSet w32Zero e.cause src 0 }

/-- W1C of a pending word. -/
def clearPending (line : Nat) (v : W32) (s : State) : State :=
  { s with events := ((List.range 32).filter (fun b => v.getLsbD b)).foldl (fun e b => clearSource e (32 * line + b)) s.events }

/-- W1C of a cause word: clearing its last bit clears the source. -/
def clearCause (src : Nat) (v : W32) (s : State) : State :=
  let w := spGet w32Zero s.events.cause src &&& ~~~v
  let e := { s.events with cause := spSet w32Zero s.events.cause src w }
  { s with events := if w = 0 then { e with pending := setBit e.pending src false } else e }

/-- The source of a cause word object. -/
def causeSource (idx sub : Nat) : Nat :=
  if idx = 0x2410 then sub - 1 else if idx = 0x2411 then 96 + (sub - 1) else 104 + (sub - 1)

def writeEventObj (au : Auth) (idx sub : Nat) (data : Bytes) (s : State) : Ack :=
  let v : W32 := BitVec.ofNat 32 (valueOf data)
  match idx with
  | 0x2400 => done (clearPending (sub - 1) v s)
  | 0x2401 =>
    let w := existingBits (sub - 1) v
    done (setReg s 0x2401 sub ((if sub = 8 then setBit w 0 true else w).setWidth 64))
  | 0x2403 => putReg (chanIdx au idx) sub data s
  | _ => done (clearCause (causeSource idx sub) v s)

def readEventObj (au : Auth) (idx sub : Nat) (s : State) : Except W32 Bytes :=
  match idx with
  | 0x2400 => numRead 4 (pendingWord s (sub - 1)).toNat
  | 0x2401 => numRead 4 (enableWord s (sub - 1)).toNat
  | 0x2403 =>
    let e := regN s (chanIdx au idx) 1
    (match sub with
      | 1 => numRead 1 e
      | 2 => numRead 8 (spGet w64Zero s.events.count e).toNat
      | 3 => .ok (wordBytes (spGet tsZero s.events.lastTime e))
      | _ => numRead 4 (spGet w16Zero s.events.detail e).toNat)
  | _ => numRead 4 (spGet w32Zero s.events.cause (causeSource idx sub)).toNat

/-- A W1C write of pending bits or of a cause word (R454). -/
def execEventClear (m : Master) (index : W16) (sub : Byte) (value : W32) (s : State) : Out :=
  let idx := index.toNat
  .next (if idx = 0x2400 ∨ idx = 0x2410 ∨ idx = 0x2411 ∨ idx = 0x2412 then
    commandWrite m idx sub.toNat (wordBytes value) (writeEventObj (authOf m) idx sub.toNat) s else s)

end Sys2Proof.Machine
end

