-- ==== Sys2Proof/Machine/Session.lean ====
section
/-! DEFINITION. Authenticated dictionary sessions up to the sealed request (R470 to R478), and identity and service
objects (Tables 14.4 and 14.5). -/

namespace Sys2Proof.Machine

def setSession (s : State) (x : Session) : State := { s with server := { s.server with session := x } }

/-- The 12 label bytes of K_S (R474). -/
def sessionLabel : Bytes := asciiBytes "ULU-SESSION1"

/-- K_S from K_DR (R474). -/
def dictSessionKey (s : State) (kdr : KeyVal) (clientId : W16) (rights : Byte) (nc ne : Bytes) : KeyVal :=
  deriveBound s kdr tagDSES sessionLabel (wordBytes clientId ++ [rights, 0] ++ nc ++ ne) 0

/-- A hello (R471, R473). -/
def hello (data : Bytes) (s : State) : Ack :=
  let x := s.server.session
  if x.state = .opened ∨ x.state = .locked ∨ !drsUsable s ∨ !drbgServes s then refuse errState s else
  let kdr := s.keys.kDr.getD (deriveKdr s (s.keys.drs.getD 0))
  let r := draw s 8
  let rights := byteAt data 2 &&& (reg s 0x2003 3).setWidth 8 &&& 3
  let clientId : W16 := BitVec.ofNat 16 (beNat (slice data 0 2))
  let nc := slice data 4 8
  let s1 := setKeys r.2 { r.2.keys with kDr := some kdr }
  done (setSession s1 { Session.default with
    state := .challenged, clientId := clientId, rights := rights, nc := nc, ne := r.1
    ks := some (dictSessionKey s1 kdr clientId rights nc r.1), failRun := x.failRun, since := s.now })

/-- The attempt of a proof has failed: K_S and ne are cleared; the third failure in a row locks (R475). -/
def proofFailed (s : State) : State :=
  let x := s.server.session
  let run := x.failRun + 1
  let s1 := raise (bump s 0x2002 7) evSessionFail 0
  setSession s1 { x with state := if 3 ≤ run then .locked else .idle, ks := none, ne := zeros 8,
                         failRun := if 3 ≤ run then 0 else run, since := s.now }

/-- A proof (R475). -/
def proof (data : Bytes) (s : State) : Ack :=
  let x := s.server.session
  if x.state ≠ .challenged then refuse errState s else
  let k := x.ks.getD 0
  if data = cmac256 k ([0x01] ++ x.ne ++ x.nc) then
    done (setSession (bump s 0x2002 6) { x with
      state := .opened, lastSeq := 0, confirm := cmac256 k ([0x02] ++ x.nc ++ x.ne), failRun := 0, tagFails := 0, since := s.now })
  else done (proofFailed s)

/-- A write of 0x2004.06 (R478). -/
def closeSession (data : Bytes) (s : State) : Ack := if valueOf data = 1 then done (endSession s) else refuse errRange s

def sessionCode : SessionState → Nat
  | .idle => 0
  | .challenged => 1
  | .opened => 2
  | .locked => 3

def execHello (m : Master) (data : Bytes) (s : State) : Out := .next (commandWrite m 0x2004 1 data hello s)
def execProof (m : Master) (data : Bytes) (s : State) : Out := .next (commandWrite m 0x2004 3 data proof s)
def execSessionClose (m : Master) (s : State) : Out := .next (commandWrite m 0x2004 6 [1] closeSession s)

/-- session_idle seconds without an accepted sealed request. -/
def execSessionIdleTimeout (s : State) : Out :=
  .next (if s.server.session.state = .opened ∧ elapsed s s.server.session.since (secCycles (regN s 0x2003 2)) then
    endSession s else s)

/-- 10 s in CHALLENGED without a proof. -/
def execChallengeTimeout (s : State) : Out :=
  .next (let x := s.server.session
    if x.state = .challenged ∧ elapsed s x.since (secCycles 10) then
      setSession s { x with state := .idle, ks := none, ne := zeros 8 } else s)

/-- 10 s after LOCKED was entered. -/
def execLockedEnd (s : State) : Out :=
  .next (let x := s.server.session
    if x.state = .locked ∧ elapsed s x.since (secCycles 10) then setSession s { x with state := .idle } else s)

/-! ### Identity and service objects -/

/-- A CAN identifier word: bit 30 is 0 (Table 14.5). -/
def identifierOk (v : Nat) : Bool := !(BitVec.ofNat 32 v).getLsbD 30

/-- Writes of 0x1200, 0x2003 and 0x2004; 0x2005.01 is written in Server. -/
def writeServiceObj (idx sub : Nat) (data : Bytes) (s : State) : Ack :=
  match idx with
  | 0x1200 => if identifierOk (valueOf data) then putReg idx sub data s else refuse errRange s
  | 0x2003 => if sub = 1 then putRange idx sub 10 60000 data s else if sub = 2 then putRange idx sub 1 3600 data s else putReg idx sub data s
  | 0x2004 => if sub = 1 then hello data s else if sub = 3 then proof data s else closeSession data s
  | _ => refuse errMaster s

def readServiceObj (idx sub : Nat) (s : State) : Except W32 Bytes :=
  let x := s.server.session
  match idx with
  | 0x1018 => numRead 4 (([0, 0x0A71, 0x0832, 0x00020001, s.keys.deviceId.toNat % 2 ^ 32] : List Nat).getD sub 0)
  | 0x1200 => regRead s idx sub 4
  | 0x2000 =>
    (match sub with
      | 1 => numRead 1 2
      | 2 => numRead 1 1
      | 3 => numRead 1 Config.patchLevel.toNat
      | _ => .ok [0x46, 0x4B, 0x2D, 0x38, 0x33, 0x32, 0x00, 0x00])
  | 0x2002 => ctrRead s idx sub 8
  | 0x2003 => regRead s idx sub (if sub = 3 then 1 else 2)
  | 0x2004 =>
    (match sub with
      | 2 => .ok x.ne
      | 4 => .ok x.confirm
      | 7 => numRead 4 x.lastSeq.toNat
      | _ => numRead 4 (sessionCode x.state + field x.rights 1 0 * 4 + x.clientId.toNat * 2 ^ 16))
  | 0x2200 => if sub = 1 then numRead 4 (clockStatus s) else numRead 4 s.power.rootCount.toNat
  | _ => .ok x.response

end Sys2Proof.Machine
end

