-- ==== Sys2Proof/Machine/Dictionary.lean ====
section
/-! DEFINITION. The whole dictionary: one read and one write of any object (Table 14.9), the sealed request that carries
them (R476, R477), the host window (R8, R458, R462 to R466) and the mailbox. -/

namespace Sys2Proof.Machine

/-! ### Any object (Table 14.9) -/

/-- The value of an object, and what reading it does; the first checks of R459 have passed. -/
def readObj (au : Auth) (idx sub : Nat) (s : State) : State × Except W32 Bytes :=
  if sub = 0 then
    (s, if idx = 0x1000 then numRead 4 0 else if idx = 0x1001 then numRead 1 (errorRegister s) else numRead 1 (topSub idx))
  else if idx < 0x2100 then (s, readServiceObj idx sub s)
  else if idx ≤ 0x2101 then (s, readPowerObj idx sub s)
  else if idx = 0x2200 then (s, readServiceObj idx sub s)
  else if idx ≤ 0x2412 then (s, readEventObj au idx sub s)
  else if idx ≤ 0x2860 then (s, readPortObj idx sub s)
  else if idx ≤ 0x3001 then (s, readContextObj au idx sub s)
  else if idx ≤ 0x3406 then (s, readClassifierObj au idx sub s)
  else if idx = 0x3808 ∧ sub = 4 then drbgOutput s
  else if idx ≤ 0x380A then (s, readKeysObj au idx sub s)
  else if idx ≤ 0x3A06 then (s, readAttestObj idx sub s)
  else if idx ≤ 0x3C20 then (s, readMemoryObj au idx sub s)
  else if idx ≤ 0x4016 then (s, readTrunkObj idx sub s)
  else if idx ≤ 0x4602 then readTimeObj au idx sub s
  else if 0x4A00 ≤ idx ∧ idx ≤ 0x4A01 then (s, readGrantObj idx sub s)
  else (s, readFaultObj au idx sub s)

/-- What a write does with a value, in every area but the sealed request; the first checks of R459 have passed. -/
def writeObj (au : Auth) (idx sub : Nat) (data : Bytes) (s : State) : Ack :=
  if idx < 0x2100 then writeServiceObj idx sub data s
  else if idx ≤ 0x2101 then writePowerObj sub data s
  else if idx ≤ 0x2412 then writeEventObj au idx sub data s
  else if idx ≤ 0x2860 then writePortObj idx sub data s
  else if idx ≤ 0x3001 then writeContextObj au idx sub data s
  else if idx ≤ 0x3406 then writeClassifierObj au idx sub data s
  else if idx ≤ 0x380A then writeKeysObj au idx sub data s
  else if idx ≤ 0x3A06 then writeAttestObj idx sub data s
  else if idx ≤ 0x3C20 then writeMemoryObj au idx sub data s
  else if idx ≤ 0x4016 then writeTrunkObj idx sub data s
  else if idx ≤ 0x4602 then writeTimeObj au idx sub data s
  else if idx = 0x4A00 then writeGrantObj sub data s
  else writeFaultObj au idx sub data s

/-- One read access, checked and counted (R459). -/
def dictRead (au : Auth) (idx sub : Nat) (s : State) : State × Except W32 Bytes :=
  match checkAccess au false idx sub 0 with
  | some c => (countRefusal au s, .error c)
  | none =>
    match readObj au idx sub s with
    | (s1, .ok v) => (s1, .ok v)
    | (s1, .error c) => (countRefusal au s1, .error c)

/-- One write access to any object but a sealed request. -/
def dictWrite (au : Auth) (idx sub : Nat) (data : Bytes) (s : State) : Ack := writeAccess au idx sub data (writeObj au idx sub) s

/-! ### Sealed requests (R476, R477, Tables 14.7 and 14.8) -/

/-- The result code and the value of the inner access, with the state after it. -/
def innerAccess (s : State) (data : Bytes) : State × W32 × Bytes :=
  let rights := s.server.session.rights
  let au : Auth := .sealed (bit rights 0) (bit rights 1)
  let idx := beNat (slice data 8 2)
  let sub := (byteAt data 10).toNat
  let n := (byteAt data 11).toNat
  if byteAt data 0 ≠ 1 then (countRefusal au s, errRange, [])
  else if byteAt data 1 = 1 ∧ n = 0 then
    match dictRead au idx sub s with
    | (s1, .ok v) => if 144 < v.length then (countRefusal au s1, errLength, []) else (s1, 0, v)
    | (s1, .error c) => (s1, c, [])
  else if byteAt data 1 = 2 ∧ 1 ≤ n ∧ n ≤ 144 then
    if idx = 0x2004 ∧ sub = 6 then
      (if !bit rights 1 then (countRefusal au s, errMaster, [])
        else if slice data 12 n = [1] then (s, 0, []) else (countRefusal au s, if n = 1 then errRange else errLength, []))
    else match dictWrite au idx sub (slice data 12 n) s with
      | (s1, none) => (s1, 0, [])
      | (s1, some c) => (s1, c, [])
  else (countRefusal au s, errRange, [])

/-- The inner access closes the session: a write of 1 to 0x2004.06 with the write right. -/
def sealedClose (s : State) (data : Bytes) : Bool :=
  bit s.server.session.rights 1 && byteAt data 1 == 2 && decide (slice data 8 5 = [0x20, 0x04, 0x06, 0x01, 0x01])

/-- The sealed response (Table 14.8). -/
def sealedResponse (k : KeyVal) (data : Bytes) (result : W32) (value : Bytes) : Bytes :=
  let body := [0x01, byteAt data 1 ||| 0x80] ++ slice data 2 9 ++ [BitVec.ofNat 8 value.length] ++ wordBytes result ++ value
  body ++ cmac256 k body

/-- Step 6 of R477 and what follows it. -/
def runSealed (s : State) (data : Bytes) (k : KeyVal) (seq : W32) : State :=
  let r := innerAccess s data
  let x := r.1.server.session
  if x.state ≠ .opened then r.1 else
  let s1 := setSession r.1 { x with response := sealedResponse k data r.2.1 r.2.2, lastSeq := seq, since := s.now }
  if sealedClose s data then endSession s1 else s1

/-- A wrong tag: counted, and the third in one session ends it. -/
def tagFailed (s : State) : State :=
  let x := s.server.session
  let s1 := raise (bump s 0x2002 7) evSessionFail 0
  let s2 := setSession s1 { x with tagFails := x.tagFails + 1 }
  if 3 ≤ x.tagFails + 1 then endSession s2 else s2

/-- A write of 0x2005.01 (R477). -/
def sealedRequest (data : Bytes) (s : State) : Ack :=
  let x := s.server.session
  let n := (byteAt data 11).toNat
  let seq : W32 := BitVec.ofNat 32 (beNat (slice data 4 4))
  let k := x.ks.getD 0
  if data.length ≠ 28 + n then refuse errLength s
  else if x.state ≠ .opened ∨ slice data 2 2 ≠ wordBytes x.clientId then refuse errState s
  else if cmac256 k (data.take (12 + n)) ≠ data.drop (12 + n) then refuse errMaster (tagFailed s)
  else if seq = x.lastSeq then done s
  else if seq ≠ x.lastSeq + 1 then refuse errState s
  else done (runSealed s data k seq)

def execSealedRequest (m : Master) (data : Bytes) (s : State) : Out := .next (commandWrite m 0x2005 1 data sealedRequest s)

/-! ### Host writes of a window word (R8, R86, R458, R462 to R466) -/

def setServer (s : State) (x : Server) : State := { s with server := x }

def protocolFault (s : State) : State := bump s 0x2002 3

/-- A write refused with a code, counted. -/
def refuseHost (au : Auth) (c : W32) (s : State) : Ack := refuse c (countRefusal au s)

def dropCollection (s : State) : State := setServer s { s.server with collection := none }

/-- The lowest word of an object opens a collection, discarding an open one. -/
def openCollection (idx sub : Nat) (w : W32) (s : State) : Ack :=
  let s1 := if s.server.collection.isSome then protocolFault s else s
  done (setServer s1 { s1.server with collection := some ⟨BitVec.ofNat 16 idx, BitVec.ofNat 8 sub, [w]⟩ })

/-- A word whose object the master may not write, or whose turn it is not, is refused; what it carries in padding and
reserved bits is counted all the same (R10). -/
def refuseWord (au : Auth) (o : ObjInfo) (j : Nat) (w : W32) (c : W32) (s : State) : Ack :=
  refuseHost au c (if wordStray o j w then protocolFault s else s)

/-- The value of an object, with its padding counted where no reserved bit of the same write is (R8, R10). -/
def putWords (au : Auth) (idx sub size v : Nat) (s : State) : Ack :=
  let data := toBE size v
  dictWrite au idx sub data (if decide (2 ^ (8 * size) ≤ v) && !strayBits idx sub data then protocolFault s else s)

/-- A higher word: the next of the open collection, or refused. -/
def nextWord (au : Auth) (idx sub : Nat) (o : ObjInfo) (j : Nat) (w : W32) (s : State) : Ack :=
  match s.server.collection with
  | some c =>
    if c.index.toNat = idx ∧ c.sub.toNat = sub ∧ c.words.length = j then
      let ws := c.words ++ [w]
      if j + 1 < ceilDiv o.size 4 then done (setServer s { s.server with collection := some { c with words := ws } })
      else putWords au idx sub o.size ((ws.reverse.map BitVec.toNat).foldl (fun a x => a * 2 ^ 32 + x) 0) (dropCollection s)
    else refuseWord au o j w errBroken (protocolFault (dropCollection s))
  | none => refuseWord au o j w errBroken (protocolFault s)

/-- A refused word of a multi-word object discards the open collection (R86); one that was not its next word is counted
(R458). -/
def breakCollection (idx sub j : Nat) (s : State) : State :=
  match s.server.collection with
  | none => s
  | some c =>
    if c.index.toNat = idx ∧ c.sub.toNat = sub ∧ c.words.length = j then dropCollection s
    else protocolFault (dropCollection s)

/-- Word j of an object is written (R8, R458, R459). -/
def writeWord (au : Auth) (idx sub j : Nat) (w : W32) (s : State) : Ack :=
  match objInfo idx sub with
  | none => refuseHost au (if indexExists idx then errNoSub else errNoIndex) s
  | some o =>
    if 128 < o.size then refuseHost au errLength s
    else if ceilDiv o.size 4 ≤ j then refuseHost au errNoSub s
    else if o.size ≤ 4 then putWords au idx sub o.size w.toNat s
    else match checkAccess au true idx sub o.size with
      | some c => refuseWord au o j w c (breakCollection idx sub j s)
      | none => if j = 0 then openCollection idx sub w s else nextWord au idx sub o j w s

/-! ### Host reads of a window word (R8, R458) -/

/-- A read that ends in a refusal, counted. -/
def refuseRead (au : Auth) (c : W32) (s : State) : State × Except W32 W32 := (countRefusal au s, .error c)

/-- The objects whose read removes an entry (R393, R405). -/
def removesOnRead (idx sub : Nat) : Bool := (idx = 0x4404 && sub = 2) || (0x4440 ≤ idx && idx ≤ 0x4447 && sub = 3)

/-- The value that a word read takes: nothing is removed. -/
def peekObj (au : Auth) (idx sub : Nat) (s : State) : State × Except W32 Bytes :=
  if removesOnRead idx sub then (s, (readObj au idx sub s).2) else readObj au idx sub s

/-- The highest word of a snapshot has been read: the entry it shows is removed, while it is still the oldest. -/
def removeRead (au : Auth) (idx sub : Nat) (ws : List W32) (s : State) : State :=
  match removesOnRead idx sub, readObj au idx sub s with
  | true, (s1, .ok v) => if hostWords v = ws then s1 else s
  | _, _ => s

/-- Word j of an object is read: the lowest word takes a snapshot of the whole, a higher one shows it, or the present
value where there is none (R458). -/
def readWord (au : Auth) (idx sub j : Nat) (s : State) : State × Except W32 W32 :=
  match objInfo idx sub with
  | none => refuseRead au (if indexExists idx then errNoSub else errNoIndex) s
  | some o =>
    if 128 < o.size then refuseRead au errLength s
    else if ceilDiv o.size 4 ≤ j then refuseRead au errNoSub s
    else match checkAccess au false idx sub 0 with
      | some c => refuseRead au c s
      | none =>
        match decide (0 < j), spFind s.server.snapshots (oa idx sub) with
        | true, some ws => (if j + 1 = ceilDiv o.size 4 then removeRead au idx sub ws s else s, .ok (ws.getD j 0))
        | _, _ =>
          match peekObj au idx sub s with
          | (s1, .ok v) => (if j = 0 then takeSnapshot idx sub v s1 else s1, .ok ((hostWords v).getD j 0))
          | (s1, .error c) => refuseRead au c s1

/-! ### Mailbox (R463, R464) -/

def lowerAuthority (a b : Bool × BitVec 2) : Bool × BitVec 2 :=
  if a.1 = b.1 then (if b.2 < a.2 then b else a) else if a.1 then b else a

/-- A master has written target or a data word. -/
def noteAuthority (s : State) (sec : Bool) (priv : BitVec 2) : State :=
  let low := match s.server.mailbox.lowest with
    | some a => lowerAuthority a (sec, priv)
    | none => (sec, priv)
  setServer s { s.server with mailbox := { s.server.mailbox with lowest := some low } }

/-- The authority an operation is judged against (R464). -/
def mailboxAuth (s : State) (sec : Bool) (priv : BitVec 2) : Bool × BitVec 2 :=
  match s.server.mailbox.lowest with
  | some a => lowerAuthority a (sec, priv)
  | none => (sec, priv)

def targetIndex (s : State) : Nat := field s.server.mailbox.target 23 8
def targetSub (s : State) : Nat := field s.server.mailbox.target 7 0

/-- The mailbox after an operation. -/
def mailboxEnd (s : State) (code : Option W32) (f : Mailbox → Mailbox) : State :=
  let m : Mailbox := { s.server.mailbox with busy := false, done := code.isNone, refused := code.isSome
                                             abort := code.getD 0, lowest := none, secretRead := false }
  setServer s { s.server with mailbox := f m }

/-- Op 1 (R463). -/
def mailboxRead (sec : Bool) (priv : BitVec 2) (s : State) : State :=
  let a := mailboxAuth s sec priv
  match dictRead (.host a.1 a.2) (targetIndex s) (targetSub s) s with
  | (s1, .ok v) =>
    mailboxEnd s1 none (fun m => { m with length := BitVec.ofNat 8 v.length, data := BitVec.ofNat 1408 (valueOf v), secretRead := a.1 })
  | (s1, .error c) => mailboxEnd s1 (some c) id

/-- Op 2 (R463). -/
def mailboxWrite (sec : Bool) (priv : BitVec 2) (length : Nat) (s : State) : State :=
  let a := mailboxAuth s sec priv
  let value := toBE length (s.server.mailbox.data.toNat % 2 ^ (8 * length))
  let r := dictWrite (.host a.1 a.2) (targetIndex s) (targetSub s) value s
  mailboxEnd r.1 r.2 id

def execMailboxRead (sec : Bool) (priv : BitVec 2) (s : State) : Out :=
  .next (if hpReady s then hpAnswer 0 0 (mailboxRead sec priv s) else s)

def execMailboxWrite (sec : Bool) (priv : BitVec 2) (length : Byte) (s : State) : Out :=
  .next (if hpReady s then hpAnswer 0 0 (mailboxWrite sec priv length.toNat s) else s)

/-- A write of a mailbox register (Table 14.3). -/
def writeMailbox (sec : Bool) (priv : BitVec 2) (a : Nat) (w : W32) (s : State) : Ack :=
  let au : Auth := .host sec priv
  let m := s.server.mailbox
  if m.busy then refuseHost au errState s
  else if a = 0 then
    let s1 := noteAuthority (if w.toNat < 2 ^ 24 then s else protocolFault s) sec priv
    done (setServer s1 { s1.server with mailbox := { s1.server.mailbox with target := w &&& 0x00FFFFFF } })
  else if a = 4 then
    let s1 := if field w 7 2 = 0 ∧ field w 31 16 = 0 then s else protocolFault s
    if field w 1 0 = 1 then done (mailboxRead sec priv s1)
    else if field w 1 0 = 2 then done (mailboxWrite sec priv (field w 15 8) s1)
    else refuseHost au errRange s1
  else refuseHost au errWriteRo s

/-- A write of data word j. -/
def writeMailboxData (sec : Bool) (priv : BitVec 2) (j : Nat) (w : W32) (s : State) : Ack :=
  if s.server.mailbox.busy then refuseHost (.host sec priv) errState s else
  let s1 := noteAuthority s sec priv
  let m : Mailbox := { s1.server.mailbox with data := setField s1.server.mailbox.data (32 * j + 31) (32 * j) w.toNat }
  done (setServer s1 { s1.server with mailbox := m })

/-- The object and word of a fast-path address (Table 14.4a). -/
def fastPath (a : Nat) : Option (Nat × Nat × Nat) :=
  if 0x400 ≤ a ∧ a ≤ 0x41C then some (0x2400, (a - 0x400) / 4 + 1, 0)
  else if 0x420 ≤ a ∧ a ≤ 0x43C then some (0x2401, (a - 0x420) / 4 + 1, 0)
  else if 0x440 ≤ a ∧ a ≤ 0x44C then some (0x4400, 4, (a - 0x440) / 4)
  else if a = 0x450 then some (0x2100, 2, 0)
  else if a = 0x454 then some (0x2100, 5, 0)
  else if a = 0x458 then some (0x4400, 3, 0)
  else if a = 0x45C then some (0x3800, 4, 0)
  else if a = 0x460 then some (0x4404, 1, 0)
  else if 0x464 ≤ a ∧ a ≤ 0x480 then some (0x4404, 2, (a - 0x464) / 4)
  else if a = 0x484 then some (0x4A00, 5, 0)
  else if 0x488 ≤ a ∧ a ≤ 0x48C then some (0x4800, 1, (a - 0x488) / 4)
  else none

/-- A host write of one word of the window, but for the key staging window (Table 14.2). -/
def writeWindow (sec : Bool) (priv : BitVec 2) (a : Nat) (w : W32) (s : State) : Ack :=
  let au : Auth := .host sec priv
  if a < 0x10 then writeMailbox sec priv a w s
  else if 0x100 ≤ a ∧ a < 0x1B0 then writeMailboxData sec priv ((a - 0x100) / 4) w s
  else if a = 0x4F0 then
    let s1 := if w.toNat < 2 ^ 16 then s else protocolFault s
    done (setServer s1 { s1.server with page := w.setWidth 16 })
  else match fastPath a with
    | some (idx, sub, j) => writeWord au idx sub j w s
    | none =>
      if 0x8000 ≤ a then writeWord au s.server.page.toNat ((a - 0x8000) / 128) (a % 128 / 4) w s
      else refuseHost au errNoIndex s

/-- A read of a mailbox register (Table 14.3): op is write only. -/
def readMailbox (au : Auth) (a : Nat) (s : State) : State × Except W32 W32 :=
  let m := s.server.mailbox
  if a = 0 then (s, .ok m.target)
  else if a = 4 then refuseRead au errReadWo s
  else if a = 8 then
    (s, .ok (BitVec.ofNat 32 (m.busy.toNat + m.done.toNat * 2 + m.refused.toNat * 4 + m.length.toNat * 256)))
  else (s, .ok m.abort)

/-- A host read of one word of the window (Table 14.2). -/
def readWindow (sec : Bool) (priv : BitVec 2) (a : Nat) (s : State) : State × Except W32 W32 :=
  let au : Auth := .host sec priv
  if a < 0x10 then readMailbox au a s
  else if 0x100 ≤ a ∧ a < 0x1B0 then
    (if s.server.mailbox.secretRead && !sec then refuseRead au errMaster s
      else (s, .ok (BitVec.ofNat 32 (s.server.mailbox.data.toNat / 2 ^ (8 * (a - 0x100))))))
  else if a = 0x4F0 then (s, .ok (s.server.page.setWidth 32))
  else if 0x800 ≤ a ∧ a < 0x830 then stagingWindowRead sec priv (a - 0x800) s
  else match fastPath a with
    | some (idx, sub, j) => readWord au idx sub j s
    | none =>
      if 0x8000 ≤ a then readWord au s.server.page.toNat ((a - 0x8000) / 128) (a % 128 / 4) s
      else refuseRead au errNoIndex s

/-- A host access to any word of the window (R11, R84, R462): a write of `data`, or a read (hp_write = 0). -/
def execRegisterWrite (addr : BitVec 14) (data : Option W32) (sec : Bool) (priv : BitVec 2) (s : State) : Out :=
  let a := 4 * addr.toNat
  .next (if !hpReady s then s else
    match data with
    | none =>
      (match readWindow sec priv a s with
        | (s1, .ok v) => hpAnswer 0 v s1
        | (s1, .error c) => hpAnswer (hpRespOf (some c)) 0 s1)
    | some w =>
      if 0x800 ≤ a ∧ a < 0x830 then stagingWindowWrite (.host sec priv) (a - 0x800) w s
      else
        let r := writeWindow sec priv a w s
        hpAnswer (hpRespOf r.2) 0 r.1)

end Sys2Proof.Machine
end

