-- ==== Sys2Proof/Machine/FieldNetwork.lean ====
section
/-! DEFINITION. The field network: messages on dn_rx_ (R87 to R89) and the USDO server (R467 to R469). -/

namespace Sys2Proof.Machine

/-- The identifier word in 0x1200 names this message (Table 14.5). -/
def identifierMatches (cfg : W32) (id : BitVec 29) (ext : Bool) : Bool :=
  !cfg.getLsbD 31 && cfg.getLsbD 29 == ext &&
    (if ext then cfg.extractLsb' 0 29 == id else cfg.extractLsb' 0 11 == id.extractLsb' 0 11)

def usdoRxId (s : State) : W32 := (reg s 0x1200 1).setWidth 32

/-- USDO traffic is served; the messages accepted before an entry to a lower state still are (R413 step 2). -/
def usdoServed (s : State) : Bool := (serverReady s || s.power.entryWait) && !(usdoRxId s).getLsbD 31

/-- The words of a message run from its first to its last, as many as its length needs (R88). -/
def messageWhole (len : Nat) (words : List MsgWord) : Bool :=
  decide (len ≤ 64) && decide (words.length = Nat.max 1 (ceilDiv len 4)) &&
    (words.map MsgWord.first == true :: List.replicate (words.length - 1) false) &&
    (words.map MsgWord.last == List.replicate (words.length - 1) false ++ [true])

/-- A message on dn_rx_. It is not taken while eight are held; a broken one is discarded and reported, one for another
receiver is discarded (R88, R89). -/
def execDnRxMessage (id : BitVec 29) (ext : Bool) (len : BitVec 7) (words : List MsgWord) (s : State) : Out :=
  .next (if !serverReady s || decide (8 ≤ s.server.rxQueue.length) then s
    else if !messageWhole len.toNat words then raise s evFieldProtocol 0
    else if identifierMatches (usdoRxId s) id ext then
      setServer s { s.server with rxQueue := s.server.rxQueue ++ [(words.flatMap (fun w => wordBytes w.data)).take len.toNat] }
    else s)

/-! ### Messages on dn_tx_ (R54, R87 to R89) -/

/-- The payload of an answer, at most 64 bytes; CiA 1301 lays it out. -/
def answerBytes : UsdoAnswer → Bytes
  | .downloadDone => (Config.usdoMessage 0 0 []).take 64
  | .segmentDone => (Config.usdoMessage 1 0 []).take 64
  | .value v => (Config.usdoMessage 2 0 v).take 64
  | .abort c => (Config.usdoMessage 3 c []).take 64

/-- The words of a message, the first byte in [31:24], its first and last word marked (R87, R88). -/
def messageWords (bytes : Bytes) : List MsgWord :=
  let n := Nat.max 1 (ceilDiv bytes.length 4)
  (List.range n).map (fun i =>
    { data := BitVec.ofNat 32 (beNat (fitTo 4 (slice bytes (4 * i) 4))), first := i == 0, last := i + 1 == n })

/-- What dn_tx_ shows: the present word of the message at the head of the queue, with identifier, format and length. -/
structure DnTx where
  valid : Bool
  word : MsgWord
  id : BitVec 29
  ext : Bool
  len : BitVec 7
  deriving DecidableEq, Repr

/-- The outputs of dn_tx_; at their reset value while no message waits or PD_CTL is isolated (R43). -/
def dnTx (s : State) : DnTx :=
  match ctlOn s, s.server.txQueue with
  | true, a :: _ =>
    let cfg : W32 := (reg s 0x1200 2).setWidth 32
    { valid := true, word := (messageWords (answerBytes a)).getD s.server.txWord ⟨0, false, false⟩
      id := cfg.extractLsb' 0 29, ext := cfg.getLsbD 29, len := BitVec.ofNat 7 (answerBytes a).length }
  | _, _ => { valid := false, word := ⟨0, false, false⟩, id := 0, ext := false, len := 0 }

/-- Queue an answer; an abort of the engine is counted (0x2002.04). -/
def answerUsdo (s : State) (a : UsdoAnswer) : State :=
  let s1 := match a with
    | .abort _ => bump s 0x2002 4
    | _ => s
  setServer s1 { s1.server with txQueue := s1.server.txQueue ++ [a] }

def setTransfer (s : State) (t : Option UsdoTransfer) : State :=
  setServer s { s.server with transfer := t, transferSince := s.now }

/-- A value in the byte order of a USDO payload, either way (R468). -/
def usdoOrder (idx sub : Nat) (v : Bytes) : Bytes :=
  match objInfo idx sub with
  | some o => if o.str then v else v.reverse
  | none => v

/-- The write that a download makes. A sealed request takes its own path (R476). -/
def usdoWrite (idx sub : Nat) (data : Bytes) (s : State) : Ack :=
  if idx = 0x2005 ∧ sub = 1 then writeAccess .dn idx sub data sealedRequest s
  else dictWrite .dn idx sub (usdoOrder idx sub data) s

/-- A whole value has been downloaded: the answer shows the outcome of the access. -/
def finishDownload (idx sub : Nat) (data : Bytes) (ok : UsdoAnswer) (s : State) : State :=
  match usdoWrite idx sub data s with
  | (s1, none) => answerUsdo (setTransfer s1 none) ok
  | (s1, some c) => answerUsdo (setTransfer s1 none) (.abort c)

def isAbortAnswer : UsdoAnswer → Bool
  | .abort _ => true
  | _ => false

/-- The messages that stay when the transfer is dropped: the one whose word dn_tx_ has presented, and aborts (R54, R469). -/
def keptAnswers (x : Server) : List UsdoAnswer :=
  if x.txHeld then x.txQueue.take 1 ++ (x.txQueue.drop 1).filter isAbortAnswer else x.txQueue.filter isAbortAnswer

/-- The open transfer is dropped with its queued messages. -/
def dropTransfer (s : State) : State := setServer s { s.server with transfer := none, txQueue := keptAnswers s.server }

/-- An initiate request while a transfer is open (R469). -/
def initiateBusy (s : State) : State := answerUsdo (dropTransfer s) (.abort errCommand)

/-- Segments of an upload from its first byte. -/
def sendSegment (idx : W16) (sub : Byte) (rest : Bytes) (s : State) : State :=
  let n := Nat.max 1 Config.usdoSegmentSize
  let s1 := setTransfer s (if rest.length ≤ n then none else some (.upload idx sub (rest.drop n)))
  answerUsdo s1 (.value (rest.take n))

/-- One request of the client (R467 to R469). -/
def serveUsdo (req : UsdoReq) (s : State) : State :=
  match req with
  | .downloadInit idx sub size data expedited =>
    if s.server.transfer.isSome then initiateBusy s
    else if expedited then finishDownload idx.toNat sub.toNat data .downloadDone s
    else if 176 < size then answerUsdo s (.abort errLength)
    else answerUsdo (setTransfer s (some (.download idx sub size []))) .downloadDone
  | .downloadSegment data last =>
    (match s.server.transfer with
      | some (.download idx sub size got) =>
        let all := got ++ data
        if size < all.length ∨ (last ∧ all.length ≠ size) then answerUsdo (setTransfer s none) (.abort errLength)
        else if last then finishDownload idx.toNat sub.toNat all .segmentDone s
        else answerUsdo (setTransfer s (some (.download idx sub size all))) .segmentDone
      | _ => answerUsdo s (.abort errCommand))
  | .uploadInit idx sub =>
    if s.server.transfer.isSome then initiateBusy s
    else match dictRead .dn idx.toNat sub.toNat s with
      | (s1, .ok v) =>
        let w := usdoOrder idx.toNat sub.toNat v
        if Config.usdoExpedited w.length then answerUsdo s1 (.value w)
        else answerUsdo (setTransfer s1 (some (.upload idx sub w))) (.value [])
      | (s1, .error c) => answerUsdo s1 (.abort c)
  | .uploadSegment =>
    (match s.server.transfer with
      | some (.upload idx sub rest) => sendSegment idx sub rest s
      | _ => answerUsdo s (.abort errCommand))
  | .abort => setTransfer s none
  | .unsupported => answerUsdo s (.abort errCommand)

/-- A request is taken from the received messages and served, while the eight places for answers are not all in use. -/
def takeRequest (req : UsdoReq) (s : State) : State :=
  if !usdoServed s || decide (8 ≤ s.server.txQueue.length) then s
  else
    let t := serveUsdo req s
    resumeEntry (setServer t { t.server with rxQueue := t.server.rxQueue.drop 1 })

def isDownload : UsdoReq → Bool
  | .downloadInit _ _ _ _ _ => true
  | .downloadSegment _ _ => true
  | .unsupported => true
  | _ => false

def isUpload : UsdoReq → Bool
  | .uploadInit _ _ => true
  | .uploadSegment => true
  | .unsupported => true
  | _ => false

def execUsdoDownload (req : UsdoReq) (s : State) : Out := .next (if isDownload req then takeRequest req s else s)
def execUsdoUpload (req : UsdoReq) (s : State) : Out := .next (if isUpload req then takeRequest req s else s)
def execUsdoAbort (s : State) : Out := .next (takeRequest .abort s)

/-- The open transfer waited for the client, or was held on dn_tx_, for longer than transfer_timeout (R469). -/
def execTransferTimeout (s : State) : Out :=
  .next (if s.server.transfer.isSome && ctlOn s && elapsed s s.server.transferSince (msCycles (regN s 0x2003 1) + 1) then
    let s1 := dropTransfer s
    let s2 := if s1.server.txQueue.length < 8 then answerUsdo s1 (.abort errTimeout) else s1
    resumeEntry (raise (bump s2 0x2002 5) evTransferTimeout 0)
  else s)

/-- dn_tx_ in one cycle: its word transfers, or is held; the message has left with its last word. -/
def dnTick (s : State) : State :=
  if !(dnTx s).valid then s
  else if !Config.dnTxReady s.now then setServer s { s.server with txHeld := true }
  else if (dnTx s).word.last then
    resumeEntry (setServer s { s.server with
      txQueue := s.server.txQueue.drop 1, txWord := 0, txHeld := false, transferSince := s.now })
  else setServer s { s.server with txWord := s.server.txWord + 1, txHeld := true }

end Sys2Proof.Machine
end

