-- ==== Sys2Proof/Machine/Dispatch.lean ====
section
/-! DEFINITION. One arm per command: the call of its meaning. -/

namespace Sys2Proof.Machine

def exec (i : Instr) (s : State) : Host.Outcome State Fault Refusal :=
  match i with
  | .coldReset => Sys2Proof.Machine.execColdReset s
  | .warmReset tableRunning => Sys2Proof.Machine.execWarmReset tableRunning s
  | .testModeEntry => Sys2Proof.Machine.execTestModeEntry s
  | .clockMonitorWindow count => Sys2Proof.Machine.execClockMonitorWindow count s
  | .aonClockFault => Sys2Proof.Machine.execAonClockFault s
  | .fuseRead d1 e1 d2 e2 => Sys2Proof.Machine.execFuseRead d1 e1 d2 e2 s
  | .fuseTimeout => Sys2Proof.Machine.execFuseTimeout s
  | .txFrame port words => Sys2Proof.Machine.execTxFrame port words s
  | .rxFrame port words => Sys2Proof.Machine.execRxFrame port words s
  | .frameGapTimeout port side => Sys2Proof.Machine.execFrameGapTimeout port side s
  | .inputUnderrun port side => Sys2Proof.Machine.execInputUnderrun port side s
  | .frameRelease port side => Sys2Proof.Machine.execFrameRelease port side s
  | .lateBinding port => Sys2Proof.Machine.execLateBinding port s
  | .rxVerdict port => Sys2Proof.Machine.execRxVerdict port s
  | .frameSettle port side => Sys2Proof.Machine.execFrameSettle port side s
  | .portStuck port side => Sys2Proof.Machine.execPortStuck port side s
  | .periodBoundary ctx => Sys2Proof.Machine.execPeriodBoundary ctx s
  | .portControlWrite m port value => Sys2Proof.Machine.execPortControlWrite m port value s
  | .portDisable m port => Sys2Proof.Machine.execPortDisable m port s
  | .contextEnable m value => Sys2Proof.Machine.execContextEnable m value s
  | .associationInstall m slot value => Sys2Proof.Machine.execAssociationInstall m slot value s
  | .associationClear m slot value => Sys2Proof.Machine.execAssociationClear m slot value s
  | .tableInsert m table => Sys2Proof.Machine.execTableInsert m table s
  | .tableDelete m table => Sys2Proof.Machine.execTableDelete m table s
  | .tableRead m table => Sys2Proof.Machine.execTableRead m table s
  | .tableReplace m table => Sys2Proof.Machine.execTableReplace m table s
  | .descriptorWrite m n value => Sys2Proof.Machine.execDescriptorWrite m n value s
  | .learningRequest => Sys2Proof.Machine.execLearningRequest s
  | .classifierSecond => Sys2Proof.Machine.execClassifierSecond s
  | .shadowPassStart => Sys2Proof.Machine.execShadowPassStart s
  | .shadowPassEnd table => Sys2Proof.Machine.execShadowPassEnd table s
  | .rebuild m value => Sys2Proof.Machine.execRebuild m value s
  | .rebuildSwitch => Sys2Proof.Machine.execRebuildSwitch s
  | .stagingOpen m value => Sys2Proof.Machine.execStagingOpen m value s
  | .stagingWordWrite m word value => Sys2Proof.Machine.execStagingWordWrite m word value s
  | .commit m => Sys2Proof.Machine.execCommit m s
  | .abort m => Sys2Proof.Machine.execAbort m s
  | .stagingTimeout => Sys2Proof.Machine.execStagingTimeout s
  | .invalidate m key => Sys2Proof.Machine.execInvalidate m key s
  | .staleWalk => Sys2Proof.Machine.execStaleWalk s
  | .zeroizeSlot m key => Sys2Proof.Machine.execZeroizeSlot m key s
  | .zeroizeMainBank m => Sys2Proof.Machine.execZeroizeMainBank m s
  | .zeroizeRetentionBank m => Sys2Proof.Machine.execZeroizeRetentionBank m s
  | .zeroizeBothBanks m => Sys2Proof.Machine.execZeroizeBothBanks m s
  | .bankOverwriteDone => Sys2Proof.Machine.execBankOverwriteDone s
  | .derivationStart m => Sys2Proof.Machine.execDerivationStart m s
  | .derivationTargetCommit => Sys2Proof.Machine.execDerivationTargetCommit s
  | .remaskPeriodExpiry => Sys2Proof.Machine.execRemaskPeriodExpiry s
  | .remaskingSweep => Sys2Proof.Machine.execRemaskingSweep s
  | .drbgInstantiate m testsPass => Sys2Proof.Machine.execDrbgInstantiate m testsPass s
  | .drbgReseed m => Sys2Proof.Machine.execDrbgReseed m s
  | .reseedInterval => Sys2Proof.Machine.execReseedInterval s
  | .entropySample sample => Sys2Proof.Machine.execEntropySample sample s
  | .entropyAbsent => Sys2Proof.Machine.execEntropyAbsent s
  | .drbgOutputRead m => Sys2Proof.Machine.execDrbgOutputRead m s
  | .nativeResponse e => Sys2Proof.Machine.execNativeResponse e s
  | .compatibilityReport e => Sys2Proof.Machine.execCompatibilityReport e s
  | .publicKey e => Sys2Proof.Machine.execPublicKey e s
  | .extend m data => Sys2Proof.Machine.execExtend m data s
  | .memoryRead ch addr id => Sys2Proof.Machine.execMemoryRead ch addr id s
  | .memoryWrite ch addr id data mask => Sys2Proof.Machine.execMemoryWrite ch addr id data mask s
  | .mcResponse ch id data status => Sys2Proof.Machine.execMcResponse ch id data status s
  | .mcTimeout ch id => Sys2Proof.Machine.execMcTimeout ch id s
  | .renormalisation ch => Sys2Proof.Machine.execRenormalisation ch s
  | .renormalisationCommit ch => Sys2Proof.Machine.execRenormalisationCommit ch s
  | .cacheEviction set way => Sys2Proof.Machine.execCacheEviction set way s
  | .regionEnable m r value => Sys2Proof.Machine.execRegionEnable m r value s
  | .regionDisable m r => Sys2Proof.Machine.execRegionDisable m r s
  | .initialise m r => Sys2Proof.Machine.execInitialise m r s
  | .initialisationComplete r => Sys2Proof.Machine.execInitialisationComplete r s
  | .reseed m r level node => Sys2Proof.Machine.execReseed m r level node s
  | .reseedComplete r => Sys2Proof.Machine.execReseedComplete r s
  | .rekey m r => Sys2Proof.Machine.execRekey m r s
  | .rekeyComplete r => Sys2Proof.Machine.execRekeyComplete r s
  | .tfTxPayload t words => Sys2Proof.Machine.execTfTxPayload t words s
  | .payloadNumbering t vc => Sys2Proof.Machine.execPayloadNumbering t vc s
  | .unitBoundary t => Sys2Proof.Machine.execUnitBoundary t s
  | .ackFlitDue t => Sys2Proof.Machine.execAckFlitDue t s
  | .replayTimerExpiry t => Sys2Proof.Machine.execReplayTimerExpiry t s
  | .groupReceived t lanes => Sys2Proof.Machine.execGroupReceived t lanes s
  | .tfRxPresent t ready taken => Sys2Proof.Machine.execTfRxPresent t ready taken s
  | .trunkReceiveStuck t => Sys2Proof.Machine.execTrunkReceiveStuck t s
  | .trunkKeyWrite m t which key => Sys2Proof.Machine.execTrunkKeyWrite m t which key s
  | .releaseNextKey m t => Sys2Proof.Machine.execReleaseNextKey m t s
  | .trunkEnable m t => Sys2Proof.Machine.execTrunkEnable m t s
  | .trunkDisable m t => Sys2Proof.Machine.execTrunkDisable m t s
  | .retrain m t => Sys2Proof.Machine.execRetrain m t s
  | .ts1Received t flit => Sys2Proof.Machine.execTs1Received t flit s
  | .ts2Received t flit => Sys2Proof.Machine.execTs2Received t flit s
  | .confirmDrained t => Sys2Proof.Machine.execConfirmDrained t s
  | .ts3Received t flit => Sys2Proof.Machine.execTs3Received t flit s
  | .lstatReceived t flit => Sys2Proof.Machine.execLstatReceived t flit s
  | .laneAlignment t lane find => Sys2Proof.Machine.execLaneAlignment t lane find s
  | .sessionStart t => Sys2Proof.Machine.execSessionStart t s
  | .trainTimeout t => Sys2Proof.Machine.execTrainTimeout t s
  | .backoffExpiry t => Sys2Proof.Machine.execBackoffExpiry t s
  | .errorWindow t => Sys2Proof.Machine.execErrorWindow t s
  | .laneUnlock t lane => Sys2Proof.Machine.execLaneUnlock t lane s
  | .laneFifoFault t lane dir => Sys2Proof.Machine.execLaneFifoFault t lane dir s
  | .standbyLaneAdd t => Sys2Proof.Machine.execStandbyLaneAdd t s
  | .laneSwitch t dir => Sys2Proof.Machine.execLaneSwitch t dir s
  | .creditTimeout t => Sys2Proof.Machine.execCreditTimeout t s
  | .trunkCreditStarved t vc => Sys2Proof.Machine.execTrunkCreditStarved t vc s
  | .trunkPeriodBoundary t => Sys2Proof.Machine.execTrunkPeriodBoundary t s
  | .offsetWrite m n value => Sys2Proof.Machine.execOffsetWrite m n value s
  | .ppsInEdge e => Sys2Proof.Machine.execPpsInEdge e s
  | .sampleTimeout n => Sys2Proof.Machine.execSampleTimeout n s
  | .domainSet m n => Sys2Proof.Machine.execDomainSet m n s
  | .domainStep m n => Sys2Proof.Machine.execDomainStep m n s
  | .clearServo m n => Sys2Proof.Machine.execClearServo m n s
  | .selectDomain m n => Sys2Proof.Machine.execSelectDomain m n s
  | .forceDomain m n => Sys2Proof.Machine.execForceDomain m n s
  | .revert => Sys2Proof.Machine.execRevert s
  | .timetableArm m value => Sys2Proof.Machine.execTimetableArm m value s
  | .timetableDisarm m value => Sys2Proof.Machine.execTimetableDisarm m value s
  | .timetableRun => Sys2Proof.Machine.execTimetableRun s
  | .pulseEnd pin => Sys2Proof.Machine.execPulseEnd pin s
  | .ppsOutPulse p => Sys2Proof.Machine.execPpsOutPulse p s
  | .captureEdge j rising => Sys2Proof.Machine.execCaptureEdge j rising s
  | .timeStampFifoRead m => Sys2Proof.Machine.execTimeStampFifoRead m s
  | .captureFifoRead m j => Sys2Proof.Machine.execCaptureFifoRead m j s
  | .powerStateRequest m target => Sys2Proof.Machine.execPowerStateRequest m target s
  | .stateExitRequest m => Sys2Proof.Machine.execStateExitRequest m s
  | .powerAck value => Sys2Proof.Machine.execPowerAck value s
  | .powerHandshakeFault f => Sys2Proof.Machine.execPowerHandshakeFault f s
  | .wakeDecision src => Sys2Proof.Machine.execWakeDecision src s
  | .wakeInEdge n level => Sys2Proof.Machine.execWakeInEdge n level s
  | .wakeInputStuck n => Sys2Proof.Machine.execWakeInputStuck n s
  | .chatterWindow => Sys2Proof.Machine.execChatterWindow s
  | .wakeFrame words => Sys2Proof.Machine.execWakeFrame words s
  | .tokenRefill => Sys2Proof.Machine.execTokenRefill s
  | .wakeCauseClear m value => Sys2Proof.Machine.execWakeCauseClear m value s
  | .wakeInUnmask m value => Sys2Proof.Machine.execWakeInUnmask m value s
  | .wakeKeyWrite m key => Sys2Proof.Machine.execWakeKeyWrite m key s
  | .grantIssue => Sys2Proof.Machine.execGrantIssue s
  | .pgGrantRise => Sys2Proof.Machine.execPgGrantRise s
  | .grantWaitExpiry op => Sys2Proof.Machine.execGrantWaitExpiry op s
  | .pgTimeout => Sys2Proof.Machine.execPgTimeout s
  | .grantHoldExpiry op => Sys2Proof.Machine.execGrantHoldExpiry op s
  | .grantRevocation => Sys2Proof.Machine.execGrantRevocation s
  | .sramSecondAttempt array row word first second => Sys2Proof.Machine.execSramSecondAttempt array row word first second s
  | .scrubPeriod => Sys2Proof.Machine.execScrubPeriod s
  | .pipelineParityMismatch k secondPasses => Sys2Proof.Machine.execPipelineParityMismatch k secondPasses s
  | .fullBist m => Sys2Proof.Machine.execFullBist m s
  | .bistComplete arrays pipelines => Sys2Proof.Machine.execBistComplete arrays pipelines s
  | .sparePipelineBist m => Sys2Proof.Machine.execSparePipelineBist m s
  | .spareBistDue => Sys2Proof.Machine.execSpareBistDue s
  | .spareBistRun failed => Sys2Proof.Machine.execSpareBistRun failed s
  | .s0Second => Sys2Proof.Machine.execS0Second s
  | .eventClear m index sub value => Sys2Proof.Machine.execEventClear m index sub value s
  | .registerWrite addr data sec priv => Sys2Proof.Machine.execRegisterWrite addr data sec priv s
  | .mailboxRead sec priv => Sys2Proof.Machine.execMailboxRead sec priv s
  | .mailboxWrite sec priv length => Sys2Proof.Machine.execMailboxWrite sec priv length s
  | .dnRxMessage id ext len words => Sys2Proof.Machine.execDnRxMessage id ext len words s
  | .usdoDownload req => Sys2Proof.Machine.execUsdoDownload req s
  | .usdoUpload req => Sys2Proof.Machine.execUsdoUpload req s
  | .usdoAbort => Sys2Proof.Machine.execUsdoAbort s
  | .transferTimeout => Sys2Proof.Machine.execTransferTimeout s
  | .hello m data => Sys2Proof.Machine.execHello m data s
  | .proof m data => Sys2Proof.Machine.execProof m data s
  | .sealedRequest m data => Sys2Proof.Machine.execSealedRequest m data s
  | .sessionClose m => Sys2Proof.Machine.execSessionClose m s
  | .sessionIdleTimeout => Sys2Proof.Machine.execSessionIdleTimeout s
  | .challengeTimeout => Sys2Proof.Machine.execChallengeTimeout s
  | .lockedEnd => Sys2Proof.Machine.execLockedEnd s
  | .aonClockReturn => Sys2Proof.Machine.execAonClockReturn s
  | .pgGrantFall => Sys2Proof.Machine.execPgGrantFall s
  | .tfTxGapTimeout t => Sys2Proof.Machine.execTfTxGapTimeout t s

end Sys2Proof.Machine
end

