-- ==== Sys2Proof/Machine/Tick.lean ====
section
/-! DEFINITION. One clk_core cycle without a command: the clocks advance, and what runs by itself goes on. -/

namespace Sys2Proof.Machine

/-- A cycle in which fi_ready is 0 moves the deadlines of the open frame (R110). -/
def holdInput (s : State) (p : Nat) : State :=
  let d := dirOf s p .fi
  match d.inp with
  | some o => if inputReady s p .fi then s else setDir s p .fi { d with inp := some { o with held := o.held + 1 } }
  | none => s

/-- Outside S0 the second of R452 does not run. -/
def holdS0 (s : State) : State :=
  if inS0 s then s else setFaults s { s.faults with s0Start := s.faults.s0Start + 1 }

/-- hp_rvalid lasts one cycle (R85). -/
def endPulseHp (s : State) : State := { s with server := { s.server with hpRvalid := false } }

/-- One clk_core cycle. -/
def tick (s : State) : State :=
  let s1 := if timeOn s && decide (s.time.startAt ≤ s.now) then advanceTime s else s
  let s2 := dnTick (wakeTick (memoryTick (endPulseHp ((s1.shims.map Prod.fst).foldl holdInput s1))))
  let s3 := holdS0 (lockDividers s2)
  { s3 with now := s3.now + 1 }

end Sys2Proof.Machine
end

