-- ==== Sys2Proof/Safety.lean ====
section
/-! DEFINITION. What a safe run is, when a host access of an object is taken, and what every step keeps of the power
ladder: the terms that the statements are written in. -/

namespace Sys2Proof

/-- The step at `s` answers a next state: it neither faults nor refuses. -/
def StepsOn (s : Machine.State) : Prop := ∃ t, Machine.step s = .next t

namespace Machine

/-- Run commands in order, up to the first that answers no next state. -/
def runAll : List Instr → State → Out
  | [], s => .next s
  | c :: cs, s =>
    match exec c s with
    | .next t => runAll cs t
    | o => o

/-- A host write of a value to an object passes every check that R459 makes before the object's own: the port is ready,
the object is there, may be written by this master and takes the length, no full BIST blocks it, and no reserved bit is
set (R10). -/
def hostWrites (sec : Bool) (priv : BitVec 2) (idx sub : Nat) (data : Bytes) (s : State) : Bool :=
  hpReady s && (checkAccess (.host sec priv) true idx sub data.length).isNone && !bistBlocks s idx &&
    !strayBits idx sub data

/-- A host read of an object passes the common checks of R459. -/
def hostReads (sec : Bool) (priv : BitVec 2) (idx sub : Nat) (s : State) : Bool :=
  hpReady s && (checkAccess (.host sec priv) false idx sub 0).isNone

/-- What the host port shows after a write that was done. -/
def hostDone (t : State) : State := hpAnswer 0 0 t

/-- What the host port shows after a write that the object itself refused with a code, with the refusal counted (R459). -/
def hostRefused (sec : Bool) (priv : BitVec 2) (c : W32) (t : State) : State :=
  hpAnswer (hpRespOf (some c)) 0 (countRefusal (.host sec priv) t)

/-- The object write that a command is: who makes it, index, subindex and value. None for the other commands. -/
def objectWrite (s : State) : Instr → Option (Master × Nat × Nat × Bytes)
  | .portControlWrite m p v => some (m, 0x2801 + p.val, 1, wordBytes v)
  | .portDisable m p => some (m, 0x2801 + p.val, 1, wordBytes (setField (portControl s p.val) 2 0 0))
  | .contextEnable m v => some (m, 0x3001, 1, wordBytes v)
  | .associationInstall m i v => some (m, 0x3001, slotSub i, wordBytes (setField v 4 2 1))
  | .associationClear m i v => some (m, 0x3001, slotSub i, wordBytes (setField v 4 2 0))
  | .tableInsert m t => some (m, 0x3400, 1, tableOpBytes 1 t)
  | .tableDelete m t => some (m, 0x3400, 1, tableOpBytes 2 t)
  | .tableRead m t => some (m, 0x3400, 1, tableOpBytes 3 t)
  | .tableReplace m t => some (m, 0x3400, 1, tableOpBytes 4 t)
  | .descriptorWrite m n v => some (m, 0x3403, n.val + 1, wordBytes v)
  | .rebuild m v => some (m, 0x3404, 1, wordBytes v)
  | .invalidate m k => some (m, 0x3802, 1, slotOpBytes 1 k)
  | .zeroizeSlot m k => some (m, 0x3802, 1, slotOpBytes 2 k)
  | .zeroizeMainBank m => some (m, 0x3802, 1, slotOpBytes 3 0)
  | .zeroizeRetentionBank m => some (m, 0x3802, 1, slotOpBytes 4 0)
  | .zeroizeBothBanks m => some (m, 0x3802, 1, slotOpBytes 5 0)
  | .derivationStart m => some (m, 0x3804, 8, [1])
  | .drbgInstantiate m pass => if pass = Config.drbgTestsPass s.now then some (m, 0x3808, 2, [1]) else none
  | .drbgReseed m => some (m, 0x3808, 2, [2])
  | .nativeResponse (.write m) => some (m, 0x3A01, 2, [1])
  | .compatibilityReport (.write m) => some (m, 0x3A01, 2, [2])
  | .publicKey (.write m) => some (m, 0x3A01, 2, [3])
  | .extend m d => some (m, 0x3A02, 9, d)
  | .regionEnable m r v => some (m, regionIdx r, 1, wordBytes (setBit v 8 true))
  | .regionDisable m r => some (m, regionIdx r, 1, wordBytes (setBit (reg s (regionIdx r) 1) 8 false))
  | .initialise m r => some (m, regionIdx r, 8, toBE 4 1)
  | .rekey m r => some (m, regionIdx r, 8, toBE 4 2)
  | .reseed m r l n => some (m, regionIdx r, 8, toBE 4 (3 + l.toNat * 8 + n.toNat * 256))
  | .trunkKeyWrite m t w k => some (m, 0x4001 + t.val, keySub w, wordBytes k)
  | .releaseNextKey m t => some (m, 0x4001 + t.val, 0x0B, [1])
  | .trunkEnable m t => some (m, 0x4005 + t.val, 1, controlBytes s t true)
  | .trunkDisable m t => some (m, 0x4005 + t.val, 1, controlBytes s t false)
  | .retrain m t => some (m, 0x4005 + t.val, 0x0C, [1])
  | .offsetWrite m i v => some (m, 0x4401 + i.val, 0x0A, wordBytes v)
  | .domainSet m i => some (m, 0x4401 + i.val, 0x0E, [1])
  | .domainStep m i => some (m, 0x4401 + i.val, 0x0E, [2])
  | .clearServo m i => some (m, 0x4401 + i.val, 0x0E, [3])
  | .selectDomain m i => some (m, 0x4400, 2, [BitVec.ofNat 8 (1 + i.val)])
  | .forceDomain m i => some (m, 0x4400, 2, [BitVec.ofNat 8 (3 + i.val)])
  | .timetableArm m v => some (m, 0x4601, 4, wordBytes (setBit v 0 true))
  | .timetableDisarm m v => some (m, 0x4601, 4, wordBytes (setBit v 0 false))
  | .powerStateRequest m k => some (m, 0x2100, 1, [k])
  | .stateExitRequest m => some (m, 0x2100, 1, [0])
  | .wakeCauseClear m v => some (m, 0x2100, 5, wordBytes v)
  | .wakeInUnmask m v => some (m, 0x2100, 0x1D, [v])
  | .wakeKeyWrite m k => some (m, 0x2100, 6, toBE 2 k.toNat)
  | .fullBist m => some (m, 0x5F00, 1, [1])
  | .sparePipelineBist m => some (m, 0x5F00, 1, [2])
  | .hello m d => some (m, 0x2004, 1, d)
  | .proof m d => some (m, 0x2004, 3, d)
  | .sessionClose m => some (m, 0x2004, 6, [1])
  | _ => none

/-- The keys listed in a table. -/
def tableKeys (s : State) : TableSel → List Bytes
  | .stream => (s.cls.stream ++ s.cls.stash).map (fun e => e.2.key)
  | .station => s.cls.station.map (fun e => e.2.key)
  | .pfx => s.cls.pfxEntries.map (fun e => e.2.key)

/-- The state of a transition names a state of Table 12.1. -/
def legalTransition : Transition → Prop
  | .idle => True
  | .entering k => k.toNat ≤ 5
  | .exiting k => k.toNat ≤ 5
  | .fuses k => k.toNat ≤ 5
  | .entropy k => k.toNat ≤ 5

/-- The power ladder stands in a state of Table 12.1: bit 0 of pd_iso is never set (R413), and pwr_req, the present state,
the state last left and the state of a transition lie in S0 to S5. -/
def legalLadder (p : Power) : Prop :=
  p.pdIso.getLsbD 0 = false ∧ p.pwrReq.toNat ≤ 5 ∧ p.present.toNat ≤ 5 ∧ p.lastLeft.toNat ≤ 5 ∧ legalTransition p.transition

end Machine

end Sys2Proof
end

