-- ==== Sys2Proof/Certificates/Slice0/Obligations.lean ====
section
/-! DEFINITION. The statements for the provers. Each names the rules of the manual it states or rests on. A command with a
master is stated for a host access that passes the common checks (hostWrites, hostReads); what those checks refuse is
stated once for all of them. -/

open Sys2Proof Sys2Proof.Machine

/-- A step of a state with a command at the front of its queue is what exec answers for that command on the state with the
rest of the queue. On an empty queue (the model's choice, log 1) a step answers the state one clk_core cycle later
with its queue empty, and a block at H1 of Table 15.1 has reached divider lock and stands at H2. (INDEX.md, R37, R484,
notes/assumptions/1.md) -/
def Obligations.StepRunsTheFrontCommand : Prop :=
  (∀ (c : Instr) (s : State), step { s with pending := c :: s.pending } = exec c s) ∧
    ∀ s : State, s.pending = [] → ∃ t, step s = .next t ∧ t = tick s ∧ t.pending = [] ∧
      (s.power.bringUp = .h1 → t.power.bringUp = .h2 ∧ t.power.dividerLock = true)

/-- For every command and every state exec answers a next state, with the commands that wait unchanged: no command of the
block faults, is refused by the model, or touches the queue. (R9, R11, R457) -/
def Obligations.EveryCommandCompletes : Prop :=
  ∀ (c : Instr) (s : State), ∃ t, exec c s = .next t ∧ t.pending = s.pending

/-- From every state whose power ladder is legal (pd_iso bit 0 clear; pwr_req, the present state, the state last left and
the state of a transition in S0 to S5), every step that answers a next state leaves it legal. (R413, R409, R412, R414) -/
def Obligations.EveryStepKeepsTheLadder : Prop :=
  ∀ s t : State, legalLadder s.power → step s = .next t → legalLadder t.power

/-- After reset the queue is empty, every setting reads its Default and every counter 0, no event is pending, every
context and key slot is at its default, pwr_req is 0, pd_iso is 11_1110 and the engine stands at H1. The invariant of
the power ladder holds. (R9, R484, Table 15.1) -/
def Obligations.ResetLeavesDefaults : Prop :=
  legalLadder State.reset.power ∧ State.reset.pending = [] ∧ (∀ i j, i < 2 ^ 16 → j < 256 → reg State.reset i j = regDefaultAt i j) ∧
    (∀ i j, ctr State.reset i j = 0) ∧ State.reset.events.pending = 0 ∧
    (∀ c, context State.reset c = Context.default) ∧ (∀ k, slotOf State.reset k = KeySlot.default) ∧
    State.reset.power.pwrReq = 0 ∧ State.reset.power.pdIso = 0b111110 ∧ State.reset.power.bringUp = .h1 ∧
    State.reset.power.dividerLock = false ∧ State.reset.server.session.state = .idle

/-- For every command that is a write of one object by a master, exec answers the state after the checked dictionary write
of that value to that object. (R11, R457, R459, R461) -/
def Obligations.ObjectCommandsWriteTheirObject : Prop :=
  ∀ (c : Instr) (s : State) (m : Master) (idx sub : Nat) (data : Bytes), objectWrite s c = some (m, idx, sub, data) →
    exec c s = .next (commandWrite m idx sub data (writeObj (authOf m) idx sub) s)

/-- While hp_ready (for a host) or dn_rx_ready is 0 an object write has no effect; hp_ready is 0 in a cycle that gives a
response. Otherwise a write that the first checks of R459
refuse (no object, master, access code, length) answers a next state that differs in the counters and the host answer
only, and a host master sees hp_resp of Table 14.1 and hp_rdata 0. Refused so are, over the field network outside a
session, every write but those of 0x2004.01, 0x2004.03 and 0x2005.01 and every read of a class S object, with
0x0601_0000 where the object exists, and every host access to 0x2003 with hp_sec = 0. (R11, R459, R470, R416, R486,
Table 14.1) -/
def Obligations.RefusedWritesLeaveTheObject : Prop :=
  (∀ (c : Instr) (s : State) (m : Master) (idx sub : Nat) (data : Bytes), objectWrite s c = some (m, idx, sub, data) →
    (accepts m s = false → exec c s = .next s) ∧
    ∀ code, accepts m s = true → checkAccess (authOf m) true idx sub data.length = some code →
      ∃ t, exec c s = .next t ∧
        t = { s with ctrs := t.ctrs, server := { s.server with hpResp := t.server.hpResp, hpRdata := t.server.hpRdata
                                                               hpRvalid := t.server.hpRvalid } } ∧
        ∀ sec priv, m = .host sec priv → t.server.hpResp = hpRespOf (some code) ∧ t.server.hpRdata = 0 ∧ hpReady t = false) ∧
    (∀ idx sub len, (idx, sub) ≠ (0x2004, 1) → (idx, sub) ≠ (0x2004, 3) → (idx, sub) ≠ (0x2005, 1) →
      (checkAccess .dn true idx sub len).isSome = true ∧
      (indexExists idx = true → (objInfo idx sub).isSome = true → checkAccess .dn true idx sub len = some errMaster)) ∧
    (∀ idx sub, classS idx sub = true → indexExists idx = true → (objInfo idx sub).isSome = true →
      checkAccess .dn false idx sub 0 = some errMaster) ∧
    (∀ priv write sub len, (objInfo 0x2003 sub).isSome = true →
      checkAccess (.host false priv) write 0x2003 sub len = some errMaster)

/-- An object write whose value sets reserved bits answers what the write of the value without them answers from the state
with protocol_faults (0x2002.03) one higher, whether that write is then done or refused. (R10, R459) -/
def Obligations.ReservedBitsAreIgnoredAndCounted : Prop :=
  ∀ (c : Instr) (s : State) (m : Master) (idx sub : Nat) (data : Bytes), objectWrite s c = some (m, idx, sub, data) →
    accepts m s = true → strayBits idx sub data = true →
    strayBits idx sub (ownBits idx sub data) = false ∧ (ownBits idx sub data).length = data.length ∧
    ctr (bump s 0x2002 3) 0x2002 3 = satAdd64 (ctr s 0x2002 3) 1 ∧
    exec c s = .next (commandWrite m idx sub (ownBits idx sub data) (writeObj (authOf m) idx sub) (bump s 0x2002 3))

/-- With PD_CTL On, raising source e sets pending bit e (bit e mod 32 of line floor(e/32)), raises its count by one
(saturating), records L, or 0 while PD_TIME is Off, in last_time and the unit in detail, also when the bit was pending
already; nothing else changes, and the line is 1 when the source is enabled. (R453) -/
def Obligations.RaiseRecordsTheSource : Prop :=
  ∀ (s : State) (src d : Nat), ctlOn s = true → src < 256 → d < 65536 →
    (raise s src d).events.pending.getLsbD src = true ∧
    (pendingWord (raise s src d) (src / 32)).getLsbD (src % 32) = true ∧
    spGet w64Zero (raise s src d).events.count src = satAdd64 (spGet w64Zero s.events.count src) 1 ∧
    spGet tsZero (raise s src d).events.lastTime src = (if timeOn s then localStamp s else 0) ∧
    spGet w16Zero (raise s src d).events.detail src = BitVec.ofNat 16 d ∧
    (∀ e, e ≠ src → (raise s src d).events.pending.getLsbD e = s.events.pending.getLsbD e ∧
      spGet w64Zero (raise s src d).events.count e = spGet w64Zero s.events.count e ∧
      spGet tsZero (raise s src d).events.lastTime e = spGet tsZero s.events.lastTime e ∧
      spGet w16Zero (raise s src d).events.detail e = spGet w16Zero s.events.detail e) ∧
    raise s src d = { s with events := { s.events with
      pending := (raise s src d).events.pending, count := (raise s src d).events.count
      lastTime := (raise s src d).events.lastTime, detail := (raise s src d).events.detail } } ∧
    ((enableWord s (src / 32)).getLsbD (src % 32) = true → irqLine (raise s src d) (src / 32) = true)

/-- While PD_CTL is Off a raise of sources 193 to 196 or 224 to 226 adds one to the held count (saturating at 0xFFFF) and
keeps the detail, and any other raise does nothing. The release of PD_CTL makes a single held source pending, raises
its count by the held count, takes its detail with last_time 0, and clears what was held. (R455, Table 13.5) -/
def Obligations.AlwaysOnRaisesAreHeld : Prop :=
  (∀ (s : State) (src d : Nat), ctlOn s = false →
      (aonSource src = true →
        spFind (raise s src d).events.held src =
          some ⟨BitVec.ofNat 16 (satInc 0xFFFF (spGet heldDefault s.events.held src).count.toNat), BitVec.ofNat 16 d⟩ ∧
        raise s src d = { s with events := { s.events with held := (raise s src d).events.held } }) ∧
      (aonSource src = false → raise s src d = s)) ∧
    (∀ src, aonSource src = true ↔ src ∈ [193, 194, 195, 196, 224, 225, 226]) ∧
    ∀ (e : Events) (src : Nat) (h : HeldEvent), e.held = [(src, h)] → src < 256 →
      (releaseHeldEvents e).pending.getLsbD src = true ∧ (releaseHeldEvents e).held = [] ∧
      spGet w64Zero (releaseHeldEvents e).count src = satAdd64 (spGet w64Zero e.count src) h.count.toNat ∧
      spGet tsZero (releaseHeldEvents e).lastTime src = 0 ∧
      spGet w16Zero (releaseHeldEvents e).detail src = h.detail

/-- EVENT_CLEAR of a pending word completes: exactly the pending bits of that line written 1 are cleared, but for source
224, and the cause words of the cleared sources become 0. Of a cause word it completes: the bits written 1 are
cleared, and when none is left the source's pending bit too. Counts, times, details and every other unit are
unchanged. The enable bit of source 224 reads 1. (R454, Table 13.5) -/
def Obligations.EventClearClearsWhatIsWritten : Prop :=
  (∀ (sec : Bool) (priv : BitVec 2) (sub : Byte) (v : W32) (s : State),
      hostWrites sec priv 0x2400 sub.toNat (wordBytes v) s = true →
      ∃ t, exec (.eventClear (.host sec priv) 0x2400 sub v) s = .next t ∧
        t = { hostDone s with events := { s.events with pending := t.events.pending, cause := t.events.cause } } ∧
        (∀ e, e < 256 → t.events.pending.getLsbD e =
          (s.events.pending.getLsbD e && !(decide (e / 32 + 1 = sub.toNat) && v.getLsbD (e % 32) && decide (e ≠ 224)))) ∧
        ∀ e, spGet w32Zero t.events.cause e =
          (if e / 32 + 1 = sub.toNat ∧ v.getLsbD (e % 32) = true ∧ e ≠ 224 then 0 else spGet w32Zero s.events.cause e)) ∧
    (∀ (sec : Bool) (priv : BitVec 2) (idx : W16) (sub : Byte) (v : W32) (s : State),
      idx = 0x2410 ∨ idx = 0x2411 ∨ idx = 0x2412 → hostWrites sec priv idx.toNat sub.toNat (wordBytes v) s = true →
      ∃ t, exec (.eventClear (.host sec priv) idx sub v) s = .next t ∧
        t = { hostDone s with events := { s.events with pending := t.events.pending, cause := t.events.cause } } ∧
        (∀ e, spGet w32Zero t.events.cause e = (if e = causeSource idx.toNat sub.toNat
          then spGet w32Zero s.events.cause e &&& ~~~v else spGet w32Zero s.events.cause e)) ∧
        ∀ e, e < 256 → t.events.pending.getLsbD e = (s.events.pending.getLsbD e &&
          !(decide (e = causeSource idx.toNat sub.toNat) && decide (spGet w32Zero s.events.cause e &&& ~~~v = 0)))) ∧
    ∀ s : State, (enableWord s 7).getLsbD 0 = true

/-- A host write of a word of the window completes: page and the mailbox target take the written value; word 0 of an
object of at most 32 bits is a dictionary write of that object at once; the lowest word of a wider object opens a
collection and changes nothing else; the higher word of a 64-bit object that continues the open collection writes the
whole object; a higher word without its collection is refused with 0x0800_0020, counted as a protocol fault (once more
when it carries padding or reserved bits) and drops an open collection; an address outside every region answers hp_resp
2. A host read of word 0 of a readable object shows the lowest word of its value and takes a snapshot of the whole, and
a higher word but the highest is shown from the snapshot. (R8, R10, R84, R458, R462, R466, Table 14.2, Table 14.3) -/
def Obligations.HostWindowWritesWords : Prop :=
  (∀ (sec : Bool) (priv : BitVec 2) (w : W32) (s : State), hpReady s = true → w.toNat < 2 ^ 16 →
      exec (.registerWrite 0x13C (some w) sec priv) s = .next (hostDone (setServer s { s.server with page := w.setWidth 16 }))) ∧
    (∀ (sec : Bool) (priv : BitVec 2) (w : W32) (s : State), hpReady s = true → s.server.mailbox.busy = false →
      w.toNat < 2 ^ 24 → ∃ t, exec (.registerWrite 0 (some w) sec priv) s = .next t ∧ t.server.mailbox.target = w ∧
        t = hostDone (setServer s { s.server with mailbox :=
          { s.server.mailbox with target := w, lowest := some (mailboxAuth s sec priv) } })) ∧
    (∀ (sec : Bool) (priv : BitVec 2) (addr : BitVec 14) (w : W32) (s : State) (sub : Nat) (o : ObjInfo),
      hpReady s = true → 4 * addr.toNat = 0x8000 + 128 * sub → objInfo s.server.page.toNat sub = some o → 1 ≤ o.size →
      o.size ≤ 4 → w.toNat < 2 ^ (8 * o.size) →
      ∃ t c, dictWrite (.host sec priv) s.server.page.toNat sub (toBE o.size w.toNat) s = (t, c) ∧
        exec (.registerWrite addr (some w) sec priv) s = .next (hpAnswer (hpRespOf c) 0 t)) ∧
    (∀ (sec : Bool) (priv : BitVec 2) (addr : BitVec 14) (w : W32) (s : State) (sub : Nat) (o : ObjInfo),
      hpReady s = true → 4 * addr.toNat = 0x8000 + 128 * sub → objInfo s.server.page.toNat sub = some o → 4 < o.size →
      o.size ≤ 128 → checkAccess (.host sec priv) true s.server.page.toNat sub o.size = none → s.server.collection = none →
      exec (.registerWrite addr (some w) sec priv) s = .next (hostDone (setServer s { s.server with
        collection := some ⟨s.server.page, BitVec.ofNat 8 sub, [w]⟩ }))) ∧
    (∀ (sec : Bool) (priv : BitVec 2) (addr : BitVec 14) (w0 w1 : W32) (s : State) (sub : Nat) (o : ObjInfo),
      hpReady s = true → 4 * addr.toNat = 0x8000 + 128 * sub + 4 → sub < 256 →
      objInfo s.server.page.toNat sub = some o → o.size = 8 →
      checkAccess (.host sec priv) true s.server.page.toNat sub o.size = none →
      s.server.collection = some ⟨s.server.page, BitVec.ofNat 8 sub, [w0]⟩ →
      ∃ t c, dictWrite (.host sec priv) s.server.page.toNat sub (toBE 8 (w1.toNat * 2 ^ 32 + w0.toNat)) (dropCollection s) = (t, c) ∧
        exec (.registerWrite addr (some w1) sec priv) s = .next (hpAnswer (hpRespOf c) 0 t)) ∧
    (∀ (sec : Bool) (priv : BitVec 2) (addr : BitVec 14) (w : W32) (s : State) (sub j : Nat) (o : ObjInfo),
      hpReady s = true → 4 * addr.toNat = 0x8000 + 128 * sub + 4 * j → j < 32 → 1 ≤ j → sub < 256 →
      objInfo s.server.page.toNat sub = some o → 4 < o.size → o.size ≤ 128 → j < ceilDiv o.size 4 →
      checkAccess (.host sec priv) true s.server.page.toNat sub o.size = none →
      (∀ c, s.server.collection = some c → c.index ≠ s.server.page ∨ c.sub.toNat ≠ sub ∨ c.words.length ≠ j) →
      (wordStray o j w = false → exec (.registerWrite addr (some w) sec priv) s =
        .next (hostRefused sec priv errBroken (protocolFault (dropCollection s)))) ∧
      (wordStray o j w = true → exec (.registerWrite addr (some w) sec priv) s =
        .next (hostRefused sec priv errBroken (protocolFault (protocolFault (dropCollection s)))))) ∧
    (∀ (sec : Bool) (priv : BitVec 2) (addr : BitVec 14) (w : W32) (s : State), hpReady s = true →
      0x10 ≤ 4 * addr.toNat → 4 * addr.toNat < 0x100 →
      ∃ t, exec (.registerWrite addr (some w) sec priv) s = .next t ∧ t.server.hpResp = 2 ∧
        t = { s with ctrs := t.ctrs, server := { s.server with hpResp := 2, hpRdata := 0, hpRvalid := true } }) ∧
    (∀ (sec : Bool) (priv : BitVec 2) (addr : BitVec 14) (s t : State) (sub : Nat) (o : ObjInfo) (v : Bytes),
      hpReady s = true → 4 * addr.toNat = 0x8000 + 128 * sub → objInfo s.server.page.toNat sub = some o → 1 ≤ o.size →
      o.size ≤ 128 → checkAccess (.host sec priv) false s.server.page.toNat sub 0 = none →
      removesOnRead s.server.page.toNat sub = false →
      readObj (.host sec priv) s.server.page.toNat sub s = (t, .ok v) →
      exec (.registerWrite addr none sec priv) s =
        .next (hpAnswer 0 ((hostWords v).getD 0 0) (takeSnapshot s.server.page.toNat sub v t))) ∧
    ∀ (sec : Bool) (priv : BitVec 2) (addr : BitVec 14) (s : State) (sub j : Nat) (o : ObjInfo) (ws : List W32),
      hpReady s = true → 4 * addr.toNat = 0x8000 + 128 * sub + 4 * j → 1 ≤ j → j + 1 < ceilDiv o.size 4 → o.size ≤ 128 →
      objInfo s.server.page.toNat sub = some o → checkAccess (.host sec priv) false s.server.page.toNat sub 0 = none →
      spFind s.server.snapshots (oa s.server.page.toNat sub) = some ws →
      exec (.registerWrite addr none sec priv) s = .next (hpAnswer 0 (ws.getD j 0) s)

/-- MAILBOX_READ of an object that the dictionary serves puts its value in data and its length in length and sets done;
MAILBOX_WRITE makes the dictionary write of the low bytes of data and sets done, or refused with the code in abort,
data unchanged. Both are judged by the lowest authority of the writers since the last op, which is at hp_sec = 1 only
when every one of them was. (R463, R464, Table 14.3) -/
def Obligations.MailboxServesOneObject : Prop :=
  (∀ (sec : Bool) (priv : BitVec 2) (s t : State) (v : Bytes), hpReady s = true →
      dictRead (.host (mailboxAuth s sec priv).1 (mailboxAuth s sec priv).2) (targetIndex s) (targetSub s) s = (t, .ok v) →
      exec (.mailboxRead sec priv) s = .next (hpAnswer 0 0 (setServer t { t.server with mailbox :=
        { t.server.mailbox with busy := false, done := true, refused := false, abort := 0, lowest := none
                                length := BitVec.ofNat 8 v.length, data := BitVec.ofNat 1408 (valueOf v)
                                secretRead := (mailboxAuth s sec priv).1 } }))) ∧
    (∀ (sec : Bool) (priv : BitVec 2) (s t : State) (c : W32), hpReady s = true →
      dictRead (.host (mailboxAuth s sec priv).1 (mailboxAuth s sec priv).2) (targetIndex s) (targetSub s) s = (t, .error c) →
      ∃ u, exec (.mailboxRead sec priv) s = .next u ∧ u.server.mailbox.refused = true ∧ u.server.mailbox.done = false ∧
        u.server.mailbox.abort = c ∧ u.server.mailbox.data = t.server.mailbox.data) ∧
    (∀ (sec : Bool) (priv : BitVec 2) (len : Byte) (s : State), hpReady s = true →
      ∃ t c u, dictWrite (.host (mailboxAuth s sec priv).1 (mailboxAuth s sec priv).2) (targetIndex s) (targetSub s)
          (toBE len.toNat (s.server.mailbox.data.toNat % 2 ^ (8 * len.toNat))) s = (t, c) ∧
        exec (.mailboxWrite sec priv len) s = .next u ∧
        u = hpAnswer 0 0 (setServer t { t.server with mailbox :=
          { t.server.mailbox with busy := false, done := c.isNone, refused := c.isSome, abort := c.getD 0
                                  lowest := none, secretRead := false } })) ∧
    ∀ (sec : Bool) (priv : BitVec 2) (s : State),
      ((mailboxAuth s sec priv).1 = true ↔ sec = true ∧ ∀ a, s.server.mailbox.lowest = some a → a.1 = true)

/-- A message whose identifier is the engine's and whose words run from its first to its last, as many as its length needs,
joins the received messages, at most eight of which are held; a message for another identifier changes nothing; a broken
one is discarded and raises the field-network protocol event. While the port is not ready, or eight are held, none is
taken. dn_tx_ shows a word while PD_CTL is On and an answer waits; a word that is not taken stays presented, and the
message leaves with its last word. (R54, R87, R88, R89, R467, Table 14.5) -/
def Obligations.FieldMessagesAreQueuedOrDropped : Prop :=
  (∀ (len : Nat) (ws : List MsgWord), messageWhole len ws = true ↔
      len ≤ 64 ∧ ws.length = Nat.max 1 (ceilDiv len 4) ∧
        ∀ i w, ws[i]? = some w → w.first = decide (i = 0) ∧ w.last = decide (i + 1 = ws.length)) ∧
    (∀ (id : BitVec 29) (ext : Bool) (len : BitVec 7) (ws : List MsgWord) (s : State), serverReady s = true →
      s.server.rxQueue.length < 8 → messageWhole len.toNat ws = true →
      (identifierMatches (usdoRxId s) id ext = true →
        exec (.dnRxMessage id ext len ws) s = .next (setServer s { s.server with
          rxQueue := s.server.rxQueue ++ [(ws.flatMap (fun w => wordBytes w.data)).take len.toNat] })) ∧
      (identifierMatches (usdoRxId s) id ext = false → exec (.dnRxMessage id ext len ws) s = .next s)) ∧
    (∀ (id : BitVec 29) (ext : Bool) (len : BitVec 7) (ws : List MsgWord) (s : State), serverReady s = true →
      s.server.rxQueue.length < 8 → messageWhole len.toNat ws = false →
      exec (.dnRxMessage id ext len ws) s = .next (raise s 73 0)) ∧
    (∀ (id : BitVec 29) (ext : Bool) (len : BitVec 7) (ws : List MsgWord) (s : State),
      serverReady s = false ∨ 8 ≤ s.server.rxQueue.length → exec (.dnRxMessage id ext len ws) s = .next s) ∧
    (∀ s : State, (dnTx s).valid = true ↔ ctlOn s = true ∧ s.server.txQueue ≠ []) ∧
    ∀ (s : State) (a : UsdoAnswer) (rest : List UsdoAnswer), ctlOn s = true → s.server.txQueue = a :: rest →
      s.power.entryWait = false →
      dnTick s = setServer s (if Config.dnTxReady s.now = false then { s.server with txHeld := true }
        else if (dnTx s).word.last then { s.server with txQueue := rest, txWord := 0, txHeld := false, transferSince := s.now }
        else { s.server with txWord := s.server.txWord + 1, txHeld := true })

/-- A request is taken from the received messages. An expedited download makes the write of the value in the object's byte
order and is answered by it, done or abort with the refusal code; a segmented one of at most 176 bytes opens a
transfer, whose last segment makes the write; an upload reads the object and its bytes are sent; an initiate request
while a transfer is open ends it and is answered 0x0504_0001, as is an unsupported command; an abort of the client
ends the transfer. While no request can be taken nothing changes. A transfer older than transfer_timeout is abandoned:
its messages go, but for one that dn_tx_ has presented, abort 0x0504_0000 is queued when there is room, it is counted
and source 75 raised. (R467, R468, R469, 0x2003.01, Table 14.4) -/
def Obligations.UsdoServesOneTransfer : Prop :=
  (∀ (req : UsdoReq) (s : State), usdoServed s = false ∨ 8 ≤ s.server.txQueue.length →
      exec (.usdoDownload req) s = .next s ∧ exec (.usdoUpload req) s = .next s ∧ exec .usdoAbort s = .next s) ∧
    (∀ s : State, usdoServed s = true → s.server.txQueue.length < 8 →
      (∀ (idx : W16) (sub : Byte) (size : Nat) (data : Bytes), s.server.transfer = none →
        ∃ t c u, usdoWrite idx.toNat sub.toNat data s = (t, c) ∧
          exec (.usdoDownload (.downloadInit idx sub size data true)) s = .next u ∧ u.server.transfer = none ∧
          u.server.txQueue = t.server.txQueue ++ [match c with | none => .downloadDone | some e => .abort e] ∧
          u = { t with server := { t.server with transfer := none, transferSince := t.now, txQueue := u.server.txQueue
                                                 rxQueue := t.server.rxQueue.drop 1 }
                       ctrs := u.ctrs }) ∧
      (∀ (idx : W16) (sub : Byte) (size : Nat) (data : Bytes), s.server.transfer = none → size ≤ 176 →
        exec (.usdoDownload (.downloadInit idx sub size data false)) s = .next (setServer s { s.server with
          transfer := some (.download idx sub size []), transferSince := s.now, rxQueue := s.server.rxQueue.drop 1
          txQueue := s.server.txQueue ++ [.downloadDone] })) ∧
      (∀ (idx : W16) (sub : Byte) (size : Nat) (got data : Bytes), s.server.transfer = some (.download idx sub size got) →
        got.length + data.length = size →
        ∃ t c u, usdoWrite idx.toNat sub.toNat (got ++ data) s = (t, c) ∧
          exec (.usdoDownload (.downloadSegment data true)) s = .next u ∧ u.server.transfer = none ∧
          u.server.txQueue = t.server.txQueue ++ [match c with | none => .segmentDone | some e => .abort e]) ∧
      (∀ (idx : W16) (sub : Byte) (t : State) (v : Bytes), s.server.transfer = none →
        dictRead .dn idx.toNat sub.toNat s = (t, .ok v) → ∃ u x, exec (.usdoUpload (.uploadInit idx sub)) s = .next u ∧
          u.server.txQueue = t.server.txQueue ++ [.value x] ∧
          (x = usdoOrder idx.toNat sub.toNat v ∧ u.server.transfer = t.server.transfer ∨
            x = [] ∧ u.server.transfer = some (.upload idx sub (usdoOrder idx.toNat sub.toNat v)))) ∧
      (∀ (idx : W16) (sub : Byte) (rest : Bytes), s.server.transfer = some (.upload idx sub rest) →
        ∃ u n, exec (.usdoUpload .uploadSegment) s = .next u ∧ 1 ≤ n ∧
          u.server.txQueue = s.server.txQueue ++ [.value (rest.take n)] ∧
          u.server.transfer = (if rest.length ≤ n then none else some (.upload idx sub (rest.drop n)))) ∧
      (∀ (idx : W16) (sub : Byte), s.server.transfer.isSome = true →
        ∃ u, exec (.usdoUpload (.uploadInit idx sub)) s = .next u ∧ u.server.transfer = none ∧
          u.server.txQueue = keptAnswers s.server ++ [.abort 0x05040001]) ∧
      (∃ u, exec (.usdoDownload .unsupported) s = .next u ∧
        u.server.txQueue = s.server.txQueue ++ [.abort 0x05040001] ∧ ctr u 0x2002 4 = satAdd64 (ctr s 0x2002 4) 1) ∧
      exec .usdoAbort s = .next (resumeEntry (setServer s { s.server with
        transfer := none, transferSince := s.now, rxQueue := s.server.rxQueue.drop 1 }))) ∧
  (∀ s : State, s.server.transfer.isSome = true → ctlOn s = true →
      elapsed s s.server.transferSince (msCycles (regN s 0x2003 1) + 1) = true →
      ∃ u, exec .transferTimeout s = .next u ∧ u.server.transfer = none ∧ u.events.pending.getLsbD 75 = true ∧
        u.server.txQueue = keptAnswers s.server ++
          (if (keptAnswers s.server).length < 8 then [.abort 0x05040000] else []) ∧
        ctr u 0x2002 5 = satAdd64 (ctr s 0x2002 5) 1 ∧
        u = { s with server := { s.server with transfer := none, txQueue := u.server.txQueue }, ctrs := u.ctrs, events := u.events }) ∧
    ∀ s : State, s.server.transfer = none ∨ elapsed s s.server.transferSince (msCycles (regN s 0x2003 1) + 1) = false →
      exec .transferTimeout s = .next s

/-- A hello of 12 bytes over the field network in IDLE or CHALLENGED, with the Device Root Secret usable and the DRBG
serving, enters CHALLENGED with the client's identifier and nonce, the granted rights (requested and allowed in
0x2003.03), ne fresh from the DRBG and K_S of R474 from the held or freshly derived K_DR. In OPEN or LOCKED, without
the secret or without the DRBG it is refused with 0x0800_0022 and only the refusal is counted. (R471, R472, R473,
R474) -/
def Obligations.HelloOpensAChallenge : Prop :=
  (∀ (data : Bytes) (s : State), serverReady s = true → data.length = 12 →
      s.server.session.state = .idle ∨ s.server.session.state = .challenged → drsUsable s = true → drbgServes s = true →
      ∃ t k, exec (.hello .dn data) s = .next t ∧ k = s.keys.kDr.getD (deriveKdr s (s.keys.drs.getD 0)) ∧
        t.server.session = { Session.default with
          state := .challenged, clientId := BitVec.ofNat 16 (beNat (slice data 0 2))
          rights := byteAt data 2 &&& (reg s 0x2003 3).setWidth 8 &&& 3, nc := slice data 4 8, ne := (draw s 8).1
          ks := some (dictSessionKey s k (BitVec.ofNat 16 (beNat (slice data 0 2)))
            (byteAt data 2 &&& (reg s 0x2003 3).setWidth 8 &&& 3) (slice data 4 8) (draw s 8).1)
          failRun := s.server.session.failRun, since := s.now } ∧
        t.keys.kDr = some k ∧ t.keys.drbg.requests = s.keys.drbg.requests + 1 ∧
        t = { s with server := { s.server with session := t.server.session }
                     keys := { s.keys with kDr := some k, drbg := t.keys.drbg } }) ∧
    ∀ (data : Bytes) (s : State), serverReady s = true → data.length = 12 →
      s.server.session.state = .opened ∨ s.server.session.state = .locked ∨ drsUsable s = false ∨ drbgServes s = false →
      exec (.hello .dn data) s = .next (bump s 0x2002 2)

/-- A proof over the field network in CHALLENGED that equals CMAC-AES-256(K_S, 0x01 ‖ ne ‖ nc) enters OPEN with last_seq
0, confirm = CMAC-AES-256(K_S, 0x02 ‖ nc ‖ ne) and the failure run cleared, counting sessions_opened; any other clears
K_S and ne, counts session_failures, raises source 74 and enters IDLE, or LOCKED at the third consecutive failure.
Outside CHALLENGED it is refused with 0x0800_0022. (R472, R475) -/
def Obligations.ProofOpensOrFailsTheSession : Prop :=
  ∀ (data : Bytes) (s : State), serverReady s = true → data.length = 16 →
    (s.server.session.state = .challenged →
      data = cmac256 (s.server.session.ks.getD 0) ([0x01] ++ s.server.session.ne ++ s.server.session.nc) →
      exec (.proof .dn data) s = .next (setSession (bump s 0x2002 6) { s.server.session with
        state := .opened, lastSeq := 0, failRun := 0, tagFails := 0, since := s.now
        confirm := cmac256 (s.server.session.ks.getD 0) ([0x02] ++ s.server.session.nc ++ s.server.session.ne) })) ∧
    (s.server.session.state = .challenged →
      data ≠ cmac256 (s.server.session.ks.getD 0) ([0x01] ++ s.server.session.ne ++ s.server.session.nc) →
      ∃ t, exec (.proof .dn data) s = .next t ∧ t.server.session.ks = none ∧ t.server.session.ne = zeros 8 ∧
        t.server.session.state = (if 3 ≤ s.server.session.failRun + 1 then .locked else .idle) ∧
        t = setSession (raise (bump s 0x2002 7) 74 0) t.server.session) ∧
    (s.server.session.state ≠ .challenged → exec (.proof .dn data) s = .next (bump s 0x2002 2))

/-- In OPEN, a sealed request of the session's client with the right tag and the next sequence number performs its inner
access, stores the sealed response over the result, sets last_seq and restarts the idle timer; one that repeats
last_seq changes nothing; one with another number, another client or outside OPEN is refused and counted; one with a
wrong tag is refused, counted in session_failures and raises source 74, and the third in a session ends it. (R476,
R477, R478, Table 14.7, Table 14.8) -/
def Obligations.SealedRequestsRunOnceInOrder : Prop :=
  ∀ (data : Bytes) (s : State) (n : Nat) (k : KeyVal) (seq : W32), serverReady s = true →
    n = (byteAt data 11).toNat → data.length = 28 + n → data.length ≤ 172 → k = s.server.session.ks.getD 0 →
    seq = BitVec.ofNat 32 (beNat (slice data 4 4)) →
    (s.server.session.state ≠ .opened ∨ slice data 2 2 ≠ wordBytes s.server.session.clientId →
      exec (.sealedRequest .dn data) s = .next (bump s 0x2002 2)) ∧
    (s.server.session.state = .opened → slice data 2 2 = wordBytes s.server.session.clientId →
      (cmac256 k (data.take (12 + n)) ≠ data.drop (12 + n) →
        ∃ t, exec (.sealedRequest .dn data) s = .next t ∧ t.events = (raise s 74 0).events ∧
          (s.server.session.tagFails + 1 < 3 →
            t.server.session = { s.server.session with tagFails := s.server.session.tagFails + 1 }) ∧
          (3 ≤ s.server.session.tagFails + 1 → t.server.session = { Session.default with failRun := s.server.session.failRun })) ∧
      (cmac256 k (data.take (12 + n)) = data.drop (12 + n) → seq = s.server.session.lastSeq →
        exec (.sealedRequest .dn data) s = .next s) ∧
      (cmac256 k (data.take (12 + n)) = data.drop (12 + n) → seq ≠ s.server.session.lastSeq →
        seq ≠ s.server.session.lastSeq + 1 → exec (.sealedRequest .dn data) s = .next (bump s 0x2002 2)) ∧
      (∀ (t : State) (result : W32) (value : Bytes), cmac256 k (data.take (12 + n)) = data.drop (12 + n) →
        seq = s.server.session.lastSeq + 1 → seq ≠ s.server.session.lastSeq → innerAccess s data = (t, result, value) →
        t.server.session.state = .opened → sealedClose s data = false →
        exec (.sealedRequest .dn data) s = .next (setSession t { t.server.session with
          response := sealedResponse k data result value, lastSeq := seq, since := s.now })) ∧
      (cmac256 k (data.take (12 + n)) = data.drop (12 + n) → seq = s.server.session.lastSeq + 1 →
        seq ≠ s.server.session.lastSeq → byteAt data 0 = 1 → sealedClose s data = true → n = 1 →
        ∃ t, exec (.sealedRequest .dn data) s = .next t ∧ t.server.session = { Session.default with failRun := s.server.session.failRun }))

/-- A host write of 1 to 0x2004.06 with hp_sec = 1 ends an OPEN session: everything of it is cleared and the state is
IDLE. So does session_idle without an accepted sealed request. 10 s in CHALLENGED clear K_S and ne and enter IDLE; 10
s after LOCKED it is IDLE. Before its time each of the three changes nothing. (R472, R478, 0x2003.02, Table 14.6) -/
def Obligations.SessionEndsByCloseOrTime : Prop :=
  (∀ (priv : BitVec 2) (s : State), hpReady s = true → s.server.session.state = .opened →
      exec (.sessionClose (.host true priv)) s =
        .next (hostDone (setSession s { Session.default with failRun := s.server.session.failRun }))) ∧
    (∀ s : State, s.server.session.state = .opened →
      exec .sessionIdleTimeout s = .next (if elapsed s s.server.session.since (secCycles (regN s 0x2003 2)) then
        setSession s { Session.default with failRun := s.server.session.failRun } else s)) ∧
    (∀ s : State, s.server.session.state = .challenged →
      exec .challengeTimeout s = .next (if elapsed s s.server.session.since (secCycles 10) then
        setSession s { s.server.session with state := .idle, ks := none, ne := zeros 8 } else s)) ∧
    (∀ s : State, s.server.session.state = .locked →
      exec .lockedEnd s = .next (if elapsed s s.server.session.since (secCycles 10) then
        setSession s { s.server.session with state := .idle } else s)) ∧
    ∀ s : State,
      (s.server.session.state ≠ .opened → exec .sessionIdleTimeout s = .next s) ∧
      (s.server.session.state ≠ .challenged → exec .challengeTimeout s = .next s) ∧
      (s.server.session.state ≠ .locked → exec .lockedEnd s = .next s)

/-- While the monitor evaluates windows and CLOCK_LOST is not latched, a window is recorded with its count. One outside
2,343,750 ± 11,718 is marked out of range and raises clock-fault, and the second in a row latches CLOCK_LOST, isolates
every domain but PD_AON and raises its event; one inside clears the mark and the run, and nothing else changes. A
window not evaluated changes nothing. (R38) -/
def Obligations.ClockMonitorJudgesWindows : Prop :=
  (∀ (count : W32) (s : State), monitorOn s = true → s.power.clockLost = false →
      (2332032 ≤ count.toNat ∧ count.toNat ≤ 2355468 →
        exec (.clockMonitorWindow count) s =
          .next (setPower s { s.power with rootCount := count, windowOut := false, outRun := 0 })) ∧
      (count.toNat < 2332032 ∨ 2355468 < count.toNat →
        (s.power.outRun = 0 → exec (.clockMonitorWindow count) s =
          .next (raise (setPower s { s.power with rootCount := count, windowOut := true, outRun := 1 }) 225 0)) ∧
        (1 ≤ s.power.outRun → ∃ t, exec (.clockMonitorWindow count) s = .next t ∧
          t.power = { s.power with rootCount := count, windowOut := true, outRun := s.power.outRun + 1, clockLost := true
                                   recoveryDue := false, pdIso := 0b111110 } ∧
          irqLine t 7 = true ∧ t = { s with power := t.power, events := t.events }))) ∧
    ∀ (count : W32) (s : State), monitorOn s = false → exec (.clockMonitorWindow count) s = .next s

/-- A window in range while CLOCK_LOST is latched leaves it latched unless a warm reset has come since. After one, with
pwr_req and pwr_ack 0, it clears CLOCK_LOST, releases every domain, starts the fuse read and reports S0 only after it,
with 4 as the state last left; the DRBG collects, when its known-answer tests pass. AON_CLOCK_FAULT latches the fault status and raises its event once; while it lasts a
wake cause latches nothing; AON_CLOCK_RETURN clears it and, in S0, changes nothing else. (R39, R40, R41, R421) -/
def Obligations.ClockLostEndsAfterWarmReset : Prop :=
  (∀ (count : W32) (s : State), monitorOn s = true → s.power.clockLost = true → windowBad count = false →
      s.power.recoveryDue = false →
      exec (.clockMonitorWindow count) s =
        .next (setPower s { s.power with rootCount := count, windowOut := false, outRun := 0 })) ∧
    (∀ s : State, s.power.clockLost = true → s.power.bringUp = .done → s.power.present = 0 → s.power.transition = .idle →
      ∀ b, exec (.warmReset b) s = .next (setPower s { s.power with recoveryDue := true })) ∧
    (∀ (count : W32) (s : State), monitorOn s = true → s.power.clockLost = true → windowBad count = false →
      s.power.recoveryDue = true → s.power.pwrReq = 0 → s.power.pwrAck = 0 → s.power.bringUp = .done →
      ∃ t, exec (.clockMonitorWindow count) s = .next t ∧ t.power.clockLost = false ∧ t.power.recoveryDue = false ∧
        t.power.pdIso = 0 ∧ t.power.present = 0 ∧ t.power.transition = .fuses 4 ∧ t.keys.fuse.running = true ∧
        t.keys.fuse.word = 0 ∧ t.contexts = [] ∧ t.power.rootCount = count ∧
        t.keys.drbg.phase = (if Config.drbgTestsPass s.now then .instantiating else .uninstantiated)) ∧
    (∀ s : State, exec .aonClockFault s =
      .next (if s.power.aonFault then s else raise (setPower s { s.power with aonFault := true }) 226 0)) ∧
    (∀ (s : State) (b lo hi : Nat), s.power.aonFault = true → latchCause s b lo hi = s) ∧
    (∀ s : State, s.power.aonFault = true → inS0 s = true →
      exec .aonClockReturn s = .next (setPower s { s.power with aonFault := false })) ∧
    ∀ s : State, s.power.aonFault = false → exec .aonClockReturn s = .next s

/-- While the fuse image is read, an equal clean pair before the last word stores the word and goes on, counting a
transient error when it is a repeat; another pair is repeated once; a second such pair, or fz_ack late by 4,096
clk_ctl cycles after the last edge of fz_req, latches FUSE_FAULT: lifecycle FAULT, device identifier and anti-rollback
counter 0, no Device Root Secret, source 227; so does fz_ack late after the last word. Before that time, or with no read
and no edge left, nothing changes. A move of fz_ack within a pair starts the limit again, and after the last word ends
it. (R94, R95, R235, Table 6.9) -/
def Obligations.FuseWordsAreReadTwice : Prop :=
  (∀ (d : W32) (s : State), s.keys.fuse.running = true → ctlOn s = true → s.keys.fuse.word < 63 →
      ∃ t, exec (.fuseRead d false (some d) false) s = .next t ∧
        t.keys = { s.keys with fuse := { s.keys.fuse with word := s.keys.fuse.word + 1, repeated := false, since := s.now
                                                          image := s.keys.fuse.image ++ [d] } } ∧
        t = { s with keys := t.keys, ctrs := t.ctrs } ∧
        ctr t 0x380A 6 = (if s.keys.fuse.repeated then satAdd64 (ctr s 0x380A 6) 1 else ctr s 0x380A 6)) ∧
    (∀ (d1 d2 : W32) (e1 e2 : Bool) (s : State), s.keys.fuse.running = true → ctlOn s = true →
      d1 ≠ d2 ∨ e1 = true ∨ e2 = true →
      (s.keys.fuse.repeated = false → exec (.fuseRead d1 e1 (some d2) e2) s =
        .next (setKeys s { s.keys with fuse := { s.keys.fuse with repeated := true, since := s.now } })) ∧
      (s.keys.fuse.repeated = true → ∃ t, exec (.fuseRead d1 e1 (some d2) e2) s = .next t ∧
        t.keys = { s.keys with fuse := FuseLoad.default, fuseFault := true, lifecycle := 7, deviceId := 0
                               antiRollback := 0, drs := none, drbg := t.keys.drbg } ∧
        (s.power.drbgAfterFuses = false → t.keys.drbg = s.keys.drbg) ∧ t.events.pending.getLsbD 227 = true)) ∧
    (∀ s : State, s.keys.fuse.running = true → ctlOn s = true → elapsed s s.keys.fuse.since (ctlCycles 4096) = true →
      ∃ t, exec .fuseTimeout s = .next t ∧
        t.keys = { s.keys with fuse := FuseLoad.default, fuseFault := true, lifecycle := 7, deviceId := 0
                               antiRollback := 0, drs := none, drbg := t.keys.drbg } ∧
        (s.power.drbgAfterFuses = false → t.keys.drbg = s.keys.drbg) ∧ t.events.pending.getLsbD 227 = true) ∧
    (∀ (c : Nat) (s : State), s.keys.fuse.running = false → ctlOn s = true → s.keys.fuse.drain = some c →
      elapsed s c (ctlCycles 4096) = true →
      exec .fuseTimeout s = .next (raise (setKeys s { s.keys with
        fuse := FuseLoad.default, fuseFault := true, lifecycle := 7, deviceId := 0, antiRollback := 0, drs := none }) 227 0)) ∧
    (∀ s : State, (s.keys.fuse.running = true ∧ elapsed s s.keys.fuse.since (ctlCycles 4096) = false) ∨
        (s.keys.fuse.running = false ∧ ∀ c, s.keys.fuse.drain = some c → elapsed s c (ctlCycles 4096) = false) →
      exec .fuseTimeout s = .next s) ∧
    (∀ (s : State) (d1 : W32) (e1 : Bool) (d2 : W32) (e2 : Bool), s.keys.fuse.running = false →
      exec (.fuseRead d1 e1 (some d2) e2) s = .next s) ∧
    ∀ (s : State) (d1 : W32) (e1 e2 : Bool), ctlOn s = true →
      (s.keys.fuse.running = true →
        exec (.fuseRead d1 e1 none e2) s = .next (setKeys s { s.keys with fuse := { s.keys.fuse with since := s.now } })) ∧
      (s.keys.fuse.running = false →
        exec (.fuseRead d1 e1 none e2) s = .next (setKeys s { s.keys with fuse := { s.keys.fuse with drain := none } }))

/-- From the start of a fuse read at step H5, sixty-four clean pairs whose image is PROVISIONED or MISSION with 64 to 192
secret bits set load the lifecycle state, the device identifier, the anti-rollback counter and the Device Root Secret,
and S0 is reported with 5 as the state last left. (R95, R234, R236, R484, Table 6.9, Table 6.10) -/
def Obligations.AWholeImageIsLoaded : Prop :=
  ∀ (image : List W32) (c : Nat) (s : State), image.length = 64 →
    s.keys.fuse = { FuseLoad.default with running := true, since := c } → ctlOn s = true →
    s.power.bringUp = .h5 → s.power.tmPending = false → s.power.tmHonoured = false →
    lifecycleOf (image.getD 11 0) = 2 ∨ lifecycleOf (image.getD 11 0) = 3 →
    64 ≤ fuseBits image 0 8 → fuseBits image 0 8 ≤ 192 →
    ∃ t, runAll (image.map (fun d => .fuseRead d false (some d) false)) s = .next t ∧ t.keys.fuseLoaded = true ∧
      t.keys.fuse.running = false ∧ t.keys.lifecycle = lifecycleOf (image.getD 11 0) ∧
      t.keys.deviceId = BitVec.ofNat 64 ((image.getD 9 0).toNat * 2 ^ 32 + (image.getD 10 0).toNat) ∧
      t.keys.antiRollback = popCount (image.getD 13 0) 32 + popCount (image.getD 14 0) 32 ∧
      t.keys.drs = some (BitVec.ofNat 256 (fuseNumber image 0 8)) ∧
      t.power.bringUp = .done ∧ t.power.present = 0 ∧ t.power.transition = .idle ∧ t.power.lastLeft = 5 ∧
      t.events.pending.getLsbD 192 = true

/-- Once the lifecycle state is known, tm_mode in lifecycle UNKNOWN, BLANK or RMA leaves every slot of both banks EMPTY or
RETIRED, no Device Root Secret, no K_AT, K_DR or signing key, and the DRBG uninstantiated; in the other states it
changes nothing but the ignored mark and raises the test-mode event. Before then, and while the fuse image is read
again, it is kept for the end of the read, and once honoured it has no further effect. (R105, R487, Table 6.10) -/
def Obligations.TestModeZeroizesOrIsIgnored : Prop :=
  ∀ s : State,
    (s.power.tmHonoured = true → exec .testModeEntry s = .next s) ∧
    (s.power.tmHonoured = false → s.power.bringUp = .done → s.power.transition = .idle → s.keys.fuse.running = false →
      ctlOn s = true →
      (s.keys.lifecycle = 0 ∨ s.keys.lifecycle = 1 ∨ s.keys.lifecycle = 4 → ∃ t, exec .testModeEntry s = .next t ∧
        t.power = { s.power with tmHonoured := true, tmPending := false } ∧
        (∀ k, (slotOf t k).state = .empty ∨ (slotOf t k).state = .retired) ∧ t.keys.drs = none ∧ t.keys.kAt = none ∧
        t.keys.kDr = none ∧ t.attest.signKey = none ∧ t.keys.drbg = Drbg.default ∧ t.keys.staging = none ∧ t.keys.batch = none) ∧
      (s.keys.lifecycle ≠ 0 → s.keys.lifecycle ≠ 1 → s.keys.lifecycle ≠ 4 → exec .testModeEntry s =
        .next (raise (setPower s { s.power with tmIgnored := true, tmPending := false }) 228 0))) ∧
    (s.power.tmHonoured = false →
      s.power.transition = .idle ∧ (s.power.bringUp ≠ .done ∨ s.keys.fuse.running = true) ∨ (∃ k, s.power.transition = .fuses k) →
      exec .testModeEntry s = .next (setPower s { s.power with tmPending := true }))

/-- COLD_RESET leaves the state after reset, with the waiting commands kept; a latched CLOCK_LOST stays latched, with its
recovery armed. WARM_RESET in S0 keeps PD_AON's power state, starts a new fuse read at word 0 and a new DRBG
instantiation (when its known-answer tests pass), with no staging, derivation or session; in S1 to S4 it latches wake
cause 9 and starts the exit; before H6 it counts itself in reset_count and clears the attestation registers, and at H5
starts the fuse read again. (R9, R39, R95, R104, R245, R248, R487, Table 12.4) -/
def Obligations.ResetsRestartWhatTheyReset : Prop :=
  (∀ s : State, s.power.clockLost = false → exec .coldReset s = .next { State.reset with pending := s.pending }) ∧
    (∀ s : State, s.power.clockLost = true → ∃ t, exec .coldReset s = .next t ∧
      t.power = { Power.default with clockLost := true, recoveryDue := true } ∧ t.events.pending.getLsbD 224 = true ∧
      t = { State.reset with pending := s.pending, power := t.power, events := t.events }) ∧
    (∀ (b : Bool) (s : State), inS0 s = true → s.power.clockLost = false → ctlOn s = true →
      ∃ t, exec (.warmReset b) s = .next t ∧ t.power = s.power ∧ t.keys.fuse.running = true ∧ t.keys.fuse.word = 0 ∧
        t.keys.fuse.image = [] ∧ t.keys.fuseFault = false ∧ t.keys.staging = none ∧ t.keys.batch = none ∧ t.shims = [] ∧
        t.keys.drbg.phase = (if Config.drbgTestsPass s.now then .instantiating else .uninstantiated)) ∧
    (∀ (b : Bool) (s : State), s.power.bringUp = .done → s.power.transition = .idle → 1 ≤ s.power.present.toNat →
      s.power.present.toNat ≤ 4 → s.power.clockLost = false → s.power.aonFault = false →
      ∃ t, exec (.warmReset b) s = .next t ∧ t.power.wakeCause.getLsbD 9 = true ∧
        t.power.transition = .exiting s.power.present ∧
        t.power.pwrReq = (if s.power.pwrAck = s.power.pwrReq then 0 else s.power.pwrReq)) ∧
    ∀ (b : Bool) (s : State), s.power.clockLost = false → s.power.bringUp ≠ .done → ∃ t, exec (.warmReset b) s = .next t ∧
      t.attest = { Attest.default with responseCount := s.attest.responseCount, resetCount := satInc 0xFFFF s.attest.resetCount } ∧
      t = { s with attest := t.attest, grants := t.grants, regs := t.regs, keys := t.keys } ∧
      (s.power.bringUp ≠ .h5 → t.keys = s.keys) ∧
      (s.power.bringUp = .h5 → t.keys.fuse.running = true ∧ t.keys.fuse.word = 0 ∧ t.keys.fuse.image = [])

/-- A request for state 1 to 5 that no condition of Table 12.2 refuses starts the entry: the domains Off in that state are
isolated, pd_ret follows S3, and pwr_req takes the state once pwr_ack matches; for S3 to S5 any open staging and
derivation end. With requests of the field network unanswered an entry to S3 to S5 first waits for their answers, and goes
on when the last has left. Refused, it only records the code, the refusal and entries_refused. Targets 6 and up are out of range.
Out of S0 the code is 1. (R412, R413, R98, Table 12.1, Table 12.2) -/
def Obligations.PowerEntryIsCheckedAndStarted : Prop :=
  ∀ (sec : Bool) (priv : BitVec 2) (k : Byte) (s : State), hostWrites sec priv 0x2100 1 [k] s = true →
    (1 ≤ k.toNat → k.toNat ≤ 5 → entryRefusal s k.toNat = none → ∃ t, exec (.powerStateRequest (.host sec priv) k) s = .next t ∧
      t.power.transition = .entering (k.setWidth 3) ∧ t.power.present = s.power.present ∧
      (k.toNat ≤ 2 ∨ answered s = true → t.power.entryWait = false ∧ t.power.pdIso = s.power.pdIso ||| isoOf k.toNat ∧
      t.power.pdIso.getLsbD 0 = s.power.pdIso.getLsbD 0 ∧ t.power.pdRet = decide (k = 3) ∧
        t.power.pwrReq = (if s.power.pwrAck = s.power.pwrReq then k.setWidth 3 else s.power.pwrReq)) ∧
      (k.toNat ≤ 2 → t = hostDone (setPower s t.power)) ∧
      (3 ≤ k.toNat → answered s = true → t.keys.staging = none ∧ t.keys.batch = none) ∧
      (3 ≤ k.toNat → answered s = false → t = hostDone (setPower s { s.power with
        transition := .entering (k.setWidth 3), wakeDue := false, entryWait := true }))) ∧
    (∀ (q : State) (j : BitVec 3), q.power.transition = .entering j → q.power.entryWait = true →
      resumeEntry q = (if answered q then leaveCtl q j else q)) ∧
    (∀ (q : State) (j : BitVec 3), ((leaveCtl q j).power.pdIso = q.power.pdIso ||| isoOf j.toNat) ∧
      (leaveCtl q j).power.entryWait = false ∧ (leaveCtl q j).keys.staging = none ∧ (leaveCtl q j).keys.batch = none) ∧
    (∀ c, 1 ≤ k.toNat → k.toNat ≤ 5 → entryRefusal s k.toNat = some c → exec (.powerStateRequest (.host sec priv) k) s =
      .next (hostRefused sec priv errState (bump (setPower s { s.power with lastCode := c }) 0x2101 1))) ∧
    (5 < k.toNat → exec (.powerStateRequest (.host sec priv) k) s = .next (hostRefused sec priv errRange s)) ∧
    (s.power.present ≠ 0 → entryRefusal s k.toNat = some 1) ∧
    (∀ p, p < 32 → portEnabled s p = true → s.power.present = 0 → entryRefusal s k.toNat = some 2) ∧
    (entryRefusal s k.toNat = none → s.power.transition = .idle ∧ grantsBusy s = false ∧ memoryBusy s = false ∧
      ∀ p, p < 32 → portEnabled s p = false)

/-- A write of target 0 in S1 or S2 with no transition running starts the exit: pwr_req becomes 0 when pwr_ack equals the
present one, the Wake Matcher stops listening and the frames it holds are counted as dropped; nothing else changes. In another state it is refused with
code 1, during a transition with code 8. (R412, R414, R424) -/
def Obligations.ExitRequestStartsTheExit : Prop :=
  ∀ (sec : Bool) (priv : BitVec 2) (s : State), hostWrites sec priv 0x2100 1 [0] s = true →
    (s.power.present = 1 ∨ s.power.present = 2 → s.power.transition = .idle →
      ∃ t, exec (.stateExitRequest (.host sec priv)) s = .next t ∧
        (s.power.pwrAck = s.power.pwrReq → t.power = { s.power with
          transition := .exiting s.power.present, pwrReq := 0, handshakeStart := s.now, handshakeRaised := false
          wakeDue := false, wakeHeld := [], wakeFrReady := false }) ∧
        (s.power.pwrAck ≠ s.power.pwrReq → t.power = { s.power with
          transition := .exiting s.power.present, wakeDue := false, wakeHeld := [], wakeFrReady := false }) ∧
        t = hostDone { s with power := t.power, ctrs := t.ctrs } ∧
        ctr t 0x2101 8 = satAdd64 (ctr s 0x2101 8) s.power.wakeHeld.length) ∧
    (s.power.present ≠ 1 → s.power.present ≠ 2 → exec (.stateExitRequest (.host sec priv)) s =
      .next (hostRefused sec priv errState (bump (setPower s { s.power with lastCode := 1 }) 0x2101 1))) ∧
    (s.power.present = 1 ∨ s.power.present = 2 → s.power.transition ≠ .idle → exec (.stateExitRequest (.host sec priv)) s =
      .next (hostRefused sec priv errState (bump (setPower s { s.power with lastCode := 8 }) 0x2101 1)))

/-- A pwr_ack value equal to pwr_req: at H2 releases every domain and starts the fuse read; at the end of an entry makes
the state the present one, in which the Wake Matcher listens up to S4, or starts the exit at once when a cause was
latched meanwhile; at the end of an exit from S1 reports S0 with the state last left; after S3 or S4 it releases every
domain and reads the fuses, after which the DRBG is instantiated and S0 waits for it, unless its known-answer tests fail.
While the entry still waits for answers it is only recorded. A value other than pwr_req does nothing. (R98, R413,
R414, R419, R484) -/
def Obligations.PowerAckEstablishesTheState : Prop :=
  (∀ (v : BitVec 3) (s : State), v ≠ s.power.pwrReq → exec (.powerAck v) s = .next s) ∧
    (∀ s : State, s.power.bringUp = .h2 → s.power.clockLost = false → ∃ t, exec (.powerAck s.power.pwrReq) s = .next t ∧
      t.power.bringUp = .h5 ∧ t.power.pdIso = 0 ∧ t.power.pdRet = false ∧ t.keys.fuse.running = true ∧ t.keys.fuse.word = 0) ∧
    (∀ (k : BitVec 3) (s : State), s.power.bringUp = .done → s.power.transition = .entering k → s.power.pwrReq = k →
      s.power.entryWait = false →
      (s.power.wakeDue = false → exec (.powerAck k) s = .next (setPower s { s.power with
        pwrAck := k, ackSeen := true
        monitorFrom := if 4 ≤ s.power.pwrAck.toNat ∧ k = 0 then some s.now else s.power.monitorFrom
        present := k, transition := .idle, wakeDue := false, wakeFrReady := decide (k.toNat ≤ 4) })) ∧
      (s.power.wakeDue = true → ∃ t, exec (.powerAck k) s = .next t ∧ t.power.present = k ∧
        t.power.transition = .exiting k ∧ t.power.pwrReq = 0 ∧ t.power.wakeFrReady = false)) ∧
    (∀ (k : BitVec 3) (s : State), s.power.bringUp = .done → s.power.transition = .entering k → s.power.entryWait = true →
      ∃ t, exec (.powerAck s.power.pwrReq) s = .next t ∧ t.power.pwrAck = s.power.pwrReq ∧ t.power.present = s.power.present ∧
        t.power.transition = .entering k ∧ t.power.entryWait = true) ∧
    (∀ s : State, s.power.bringUp = .done → s.power.transition = .exiting 1 → s.power.pwrReq = 0 → s.power.clockLost = false →
      ∃ t, exec (.powerAck 0) s = .next t ∧ t.power.present = 0 ∧ t.power.transition = .idle ∧ t.power.lastLeft = 1 ∧
        t.power.pdIso = 0 ∧ t.events.pending.getLsbD 192 = true ∧ t.regs = s.regs ∧ t.ctrs = s.ctrs ∧ t.keys = s.keys ∧
        t.contexts = s.contexts ∧ t.trunks = s.trunks ∧ t.mem = s.mem) ∧
    (∀ (k : BitVec 3) (s : State), s.power.bringUp = .done → s.power.transition = .exiting k → k = 3 ∨ k = 4 →
      s.power.pwrReq = 0 → s.power.clockLost = false →
      ∃ t, exec (.powerAck 0) s = .next t ∧ t.power.transition = .fuses k ∧ t.power.pdIso = 0 ∧ t.power.pdRet = false ∧
        t.keys.fuse.running = true ∧ t.power.drbgAfterFuses = true ∧ (k = 4 → t.contexts = [])) ∧
    ∀ (k : BitVec 3) (s : State), s.power.bringUp = .done → s.power.transition = .fuses k → s.power.tmPending = false →
      s.power.drbgAfterFuses = true →
      (Config.drbgTestsPass s.now = true → (fuseEnded s).power.transition = .entropy k ∧ (fuseEnded s).keys.drbg.phase = .instantiating) ∧
      (Config.drbgTestsPass s.now = false → (fuseEnded s).power.transition = .idle ∧ (fuseEnded s).power.lastLeft = k)

/-- A stable pwr_ack that is neither pwr_req nor the previous pwr_ack, and a pwr_ack that does not match pwr_req within
the timeout while the engine waits, raise the power-handshake event and count, pwr_req unchanged; the timeout does so
once in a wait. Otherwise the command changes nothing. The timeout defaults to 5 ms. (R99) -/
def Obligations.HandshakeFaultsAreRaisedOnce : Prop :=
  (∀ (v : BitVec 3) (s : State), v ≠ s.power.pwrReq → v ≠ s.power.pwrAck →
      exec (.powerHandshakeFault (.wrongValue v)) s =
        .next (raise (bump (setPower s { s.power with pwrAck := v }) 0x2101 2) 193 0)) ∧
    (∀ (v : BitVec 3) (s : State), v = s.power.pwrReq ∨ v = s.power.pwrAck →
      exec (.powerHandshakeFault (.wrongValue v)) s = .next s) ∧
    (∀ s : State, awaitsAck s = true → elapsed s s.power.handshakeStart (msCycles (regN s 0x2100 3)) = true →
      (s.power.handshakeRaised = false → exec (.powerHandshakeFault .timeout) s =
        .next (raise (bump (setPower s { s.power with handshakeRaised := true }) 0x2101 2) 193 0)) ∧
      (s.power.handshakeRaised = true → exec (.powerHandshakeFault .timeout) s = .next s)) ∧
    (∀ s : State, awaitsAck s = false ∨ elapsed s s.power.handshakeStart (msCycles (regN s 0x2100 3)) = false →
      exec (.powerHandshakeFault .timeout) s = .next s) ∧
    (∀ (s : State) (n d : Nat) (p : Power), (raise (bump (setPower s p) 0x2101 n) 193 d).power.pwrReq = p.pwrReq) ∧
    regDefaultAt 0x2100 3 = 5

/-- WAKE_DECISION of a cause that is enabled and counts in the present state sets its wake_cause bit and starts the exit:
transition to S0, and pwr_req 0 when pwr_ack equals the present pwr_req. During an entry to a state in which it counts it sets the bit and marks the exit due;
during an exit it only sets the bit. In a state in which the cause does not count, or when it is not enabled, nothing
changes. wake_out is 1 exactly while a bit is set. (R418, R419, R420, R41, Table 12.4) -/
def Obligations.FirstCauseIsTheWakeDecision : Prop :=
  (∀ (s : State), wakeOut s = true ↔ s.power.wakeCause ≠ 0) ∧
    ∀ (src : WakeSource) (b lo hi : Nat) (s : State),
      (∃ i, src = .wakeIn i ∧ b = i.val ∧ lo = 1 ∧ hi = 4) ∨ (src = .memory ∧ b = 5 ∧ lo = 1 ∧ hi = 2) ∨
        (src = .host ∧ b = 6 ∧ lo = 3 ∧ hi = 4) ∨ (src = .fieldNetwork ∧ b = 7 ∧ lo = 3 ∧ hi = 4) →
      s.power.bringUp = .done → s.power.aonFault = false →
      ((∀ i, src = .wakeIn i → wakeInCause s i.val = true) ∧ (src = .memory → wakeEnabled s 9 = true) ∧
          (src = .host → wakeEnabled s 10 = true) ∧ (src = .fieldNetwork → wakeEnabled s 11 = true) →
        (s.power.transition = .idle → lo ≤ s.power.present.toNat → s.power.present.toNat ≤ hi →
          ∃ t p, exec (.wakeDecision src) s = .next t ∧ wakeOut t = true ∧
            p = { s.power with wakeCause := setBit s.power.wakeCause b true, transition := .exiting s.power.present
                               wakeDue := false, wakeHeld := [], wakeFrReady := false } ∧
            t.power = (if s.power.pwrAck = s.power.pwrReq
              then { p with pwrReq := 0, handshakeStart := s.now, handshakeRaised := false } else p) ∧
            t = { s with power := t.power, ctrs := t.ctrs }) ∧
        (∀ k, s.power.transition = .entering k → lo ≤ k.toNat → k.toNat ≤ hi → exec (.wakeDecision src) s =
          .next (setPower s { s.power with wakeCause := setBit s.power.wakeCause b true, wakeDue := true })) ∧
        (∀ k, s.power.transition ∈ [.exiting k, .fuses k, .entropy k] → lo ≤ k.toNat → k.toNat ≤ hi → exec (.wakeDecision src) s =
          .next (setPower s { s.power with wakeCause := setBit s.power.wakeCause b true })) ∧
        (wakeState s.power < lo ∨ hi < wakeState s.power → exec (.wakeDecision src) s = .next s)) ∧
      ((∃ i, src = .wakeIn i ∧ wakeInCause s i.val = false) ∨ (src = .memory ∧ wakeEnabled s 9 = false) ∨
          (src = .host ∧ wakeEnabled s 10 = false) ∨ (src = .fieldNetwork ∧ wakeEnabled s 11 = false) →
        exec (.wakeDecision src) s = .next s)

/-- In S0, a recognised change of wake_in[i] records the level, and at the active level of an enabled input counts a
recognition, which above the chatter count masks the input and raises wake-input-chatter. An enabled unmasked input at
its active level past the stuck limit is masked and raises wake-input-stuck. The chatter counts restart every window
of 32,768 clk_aon cycles. A W1C of wake_in_mask clears the bits written, and an input unmasked at its active level in
S1 or S2 wakes at once. (R404, R421, 0x2100.1C, 0x2100.1D) -/
def Obligations.WakeInputsAreSupervised : Prop :=
  (∀ (i : Fin 4) (level : Bool) (s : State), inS0 s = true →
      (s.power.wakeInLevel.getLsbD i.val = level → exec (.wakeInEdge i level) s = .next s) ∧
      (s.power.wakeInLevel.getLsbD i.val ≠ level → ∃ t n, exec (.wakeInEdge i level) s = .next t ∧
        t.power.wakeInLevel = setBit s.power.wakeInLevel i.val level ∧ t = { s with power := t.power, events := t.events } ∧
        n = spGet natZero s.power.chatter i.val + 1 ∧
        (level = bit (reg s 0x2100 4) (4 + i.val) → wakeEnabled s i.val = true →
          spGet natZero t.power.chatter i.val = n ∧ spFind t.power.stuckFrom i.val = some s.now ∧
          (field (reg s 0x2100 0x1C) 23 16 < n → t.power.wakeInMask.getLsbD (4 + i.val) = true ∧
            (s.power.wakeInMask.getLsbD (4 + i.val) = false → ctlOn s = true → t.events.pending.getLsbD 195 = true)) ∧
          (n ≤ field (reg s 0x2100 0x1C) 23 16 → t.power.wakeInMask = s.power.wakeInMask ∧ t.events = s.events)) ∧
        (level ≠ bit (reg s 0x2100 4) (4 + i.val) → t.power.chatter = s.power.chatter ∧ spFind t.power.stuckFrom i.val = none))) ∧
    (∀ (i : Fin 4) (c : Nat) (s : State), spFind s.power.stuckFrom i.val = some c →
      wakeEnabled s i.val = true → wakeActive s i.val = true → s.power.wakeInMask.getLsbD i.val = false →
      exec (.wakeInputStuck i) s = .next (if elapsed s c (msCycles (field (reg s 0x2100 0x1C) 15 0) + 1) then
        raise (setPower s { s.power with wakeInMask := setBit s.power.wakeInMask i.val true }) 194 i.val else s)) ∧
    (∀ (i : Fin 4) (s : State), spFind s.power.stuckFrom i.val = none ∨ wakeEnabled s i.val = false ∨ wakeActive s i.val = false ∨
      s.power.wakeInMask.getLsbD i.val = true → exec (.wakeInputStuck i) s = .next s) ∧
    (∀ s : State, exec .chatterWindow s = .next (if elapsed s s.power.chatterStart 1200000000 then
      setPower s { s.power with chatter := [], chatterStart := s.power.chatterStart + 1200000000 } else s)) ∧
    ∀ (sec : Bool) (priv : BitVec 2) (v : Byte) (s : State), hostWrites sec priv 0x2100 0x1D [v] s = true →
      (inS0 s = true → ∃ t, exec (.wakeInUnmask (.host sec priv) v) s = .next t ∧
        t.power.wakeInMask = s.power.wakeInMask &&& ~~~v ∧ t = hostDone (setPower s t.power) ∧
        t.power = { s.power with wakeInMask := t.power.wakeInMask, stuckFrom := t.power.stuckFrom }) ∧
      (s.power.bringUp = .done → s.power.aonFault = false → s.power.transition = .idle →
        s.power.present = 1 ∨ s.power.present = 2 →
        (∃ i, i < 4 ∧ wakeInCause (setPower s { s.power with wakeInMask := s.power.wakeInMask &&& ~~~v }) i = true) →
        ∃ t, exec (.wakeInUnmask (.host sec priv) v) s = .next t ∧ t.power.transition = .exiting s.power.present ∧
          (s.power.pwrAck = s.power.pwrReq → t.power.pwrReq = 0) ∧ wakeOut t = true)

/-- The decision on a frame: a wrong format counts wake_bad_format; a counter not above the floor counts wake_stale; an
unusable key counts wake_no_key; no token counts wake_rate_drop; a wrong tag spends a token, counts wake_auth_fail and
raises its event; else a token is spent, the floor of the source rises to the counter, wake_last and wake_accepted are
written, and cause 4 is latched when enabled. WAKE_FRAME of well-framed words while the matcher listens holds the
frame, or drops the third; a frame of more than 16 words and a run of words without a first word count
wake_bad_format; while clk_aon is faulty no frame is decided; while the matcher does not listen nothing changes. (R91, R422, R423, R424, R426) -/
def Obligations.WakeFramesAreDecidedInOrder : Prop :=
  (∀ (s : State) (f : Bytes), wakeFormatOk s f = false → decideWake s f = bump s 0x2101 3) ∧
    (∀ (s : State) (f : Bytes) (src : Nat), wakeFormatOk s f = true → src = (byteAt f 15).toNat →
      (beNat (slice f 16 8) ≤ regN s 0x2100 (0x0A + src) → decideWake s f = bump s 0x2101 4) ∧
      (regN s 0x2100 (0x0A + src) < beNat (slice f 16 8) →
        (wakeKeyUsable s = false → decideWake s f = bump s 0x2101 5) ∧
        (wakeKeyUsable s = true → s.power.tokens = 0 → decideWake s f = bump s 0x2101 6) ∧
        (wakeKeyUsable s = true → 1 ≤ s.power.tokens → wakeTag s f ≠ slice f 32 8 →
          decideWake s f = raise (bump (setPower s { s.power with tokens := s.power.tokens - 1 }) 0x2101 7) 196 src) ∧
        (wakeKeyUsable s = true → 1 ≤ s.power.tokens → wakeTag s f = slice f 32 8 →
          ctr (decideWake s f) 0x2101 9 = satAdd64 (ctr s 0x2101 9) 1 ∧
          regN (decideWake s f) 0x2100 (0x0A + src) = beNat (slice f 16 8) ∧
          (decideWake s f).power.tokens = s.power.tokens - 1 ∧
          (decideWake s f).power.wakeLast = BitVec.ofNat 8 src :: zeros 7 ++ slice f 24 8 ∧
          (wakeEnabled s 8 = true → s.power.bringUp = .done → s.power.aonFault = false → s.power.transition = .idle →
            1 ≤ s.power.present.toNat → s.power.present.toNat ≤ 4 →
            (decideWake s f).power.wakeCause.getLsbD 4 = true ∧
            (decideWake s f).power.transition = .exiting s.power.present)))) ∧
    (∀ (ws : List MsgWord) (s : State), s.power.wakeFrReady = false → exec (.wakeFrame ws) s = .next s) ∧
    (∀ (ws : List MsgWord) (s : State), s.power.wakeFrReady = true → 1 ≤ ws.length →
      (∀ i w, ws[i]? = some w → w.first = false ∧ (i + 1 < ws.length → w.last = false)) →
      exec (.wakeFrame ws) s = .next (bump s 0x2101 3)) ∧
    ∀ (ws : List MsgWord) (s : State), s.power.wakeFrReady = true → 1 ≤ ws.length →
      (∀ i w, ws[i]? = some w → w.first = decide (i = 0) ∧ w.last = decide (i + 1 = ws.length)) →
      (16 < ws.length → exec (.wakeFrame ws) s = .next (bump s 0x2101 3)) ∧
      (ws.length ≤ 16 → 2 ≤ s.power.wakeHeld.length → exec (.wakeFrame ws) s = .next (bump s 0x2101 8)) ∧
      (ws.length ≤ 16 → s.power.wakeHeld.length < 2 → ∃ h, h = setPower s { s.power with
          wakeHeld := s.power.wakeHeld ++ [{ bytes := ws.flatMap (fun w => wordBytes w.data), since := s.now }] } ∧
        exec (.wakeFrame ws) s = .next (if Config.wakeDecides s.now && !s.power.aonFault then decideOldest h else h))

/-- At the end of a refill interval the bucket gains a token and never holds more than burst. A W1C of wake_cause clears
the bits written. With frame enable 0, a write of wake_key that names a LIVE Retention MAC slot without a main-bank
ancestor binds it and releases the one bound before; NONE releases it; with frame enable 1 the write is refused.
(R420, R423, R426) -/
def Obligations.WakeTokensKeysAndCauses : Prop :=
  (∀ s : State, exec .tokenRefill s = .next (if elapsed s s.power.refillStart (aonCycles (refillInterval s)) then
      setPower s { s.power with tokens := Nat.min (wakeBurst s) (s.power.tokens + 1)
                                refillStart := s.power.refillStart + aonCycles (refillInterval s) } else s)) ∧
    (∀ (sec : Bool) (priv : BitVec 2) (v : W32) (s : State), hostWrites sec priv 0x2100 5 (wordBytes v) s = true →
      exec (.wakeCauseClear (.host sec priv) v) s =
        .next (hostDone (setPower s { s.power with wakeCause := s.power.wakeCause &&& ~~~v }))) ∧
    ∀ (sec : Bool) (priv : BitVec 2) (k : W16) (s : State), hostWrites sec priv 0x2100 6 (toBE 2 k.toNat) s = true →
      (wakeEnabled s 8 = true → exec (.wakeKeyWrite (.host sec priv) k) s = .next (hostRefused sec priv errState s)) ∧
      (wakeEnabled s 8 = false → k = 0x4000 → ∃ t, exec (.wakeKeyWrite (.host sec priv) k) s = .next t ∧ wakeKey t = 0x4000 ∧
        t = hostDone (setReg (releaseKey s (wakeKey s)) 0x2100 6 0x4000)) ∧
      (wakeEnabled s 8 = false → refInRange k = true → refRetention k = true → effState s k = .live →
        (slotOf s k).usage = .mac → retentionChain s 4 k = true → bindSaturated s k = false →
        ∃ t, exec (.wakeKeyWrite (.host sec priv) k) s = .next t ∧ wakeKey t = k ∧
          (wakeKey s ≠ k → (slotOf t k).bindings = (slotOf s k).bindings + 1) ∧
          (wakeKey s ≠ k → refInRange (wakeKey s) = true → (slotOf t (wakeKey s)).bindings = (slotOf s (wakeKey s)).bindings - 1) ∧
          t = hostDone { s with regs := t.regs, keys := { s.keys with slots := t.keys.slots, before := t.keys.before } })

/-- On either input side: while ready is 0 no word is taken; the words of a frame take effect one after the other; a sop
word of 8 bytes with room for it opens a frame with the stamps of this cycle; a further word below the 64-byte header
window extends it; the word that completes the header window of a MAC control frame makes it pass unprotected,
counted; a word without sop outside a frame is a structural error, counted and raised, and words are skipped up to the
next sop; a word with err ends a frame that has not begun as discarded, counted as errored. (R53, R58, R60, R61, R64,
R126, R127, R131, Table 2.2, Table 3.7) -/
def Obligations.FrameWordsFeedTheOpenFrame : Prop :=
  ∀ (p : Port) (side : Side) (cmd : List FrameWord → Instr),
    (side = .fi ∧ cmd = .txFrame p) ∨ (side = .wi ∧ cmd = .rxFrame p) →
    (∀ s : State, inputReady s p.val side = false → ∀ ws, exec (cmd ws) s = .next s) ∧
    (∀ (ws vs : List FrameWord) (s : State), exec (cmd (ws ++ vs)) s = runAll [cmd ws, cmd vs] s) ∧
    (∀ (w : FrameWord) (s : State), inputReady s p.val side = true → w.sop = true → w.eop = false → w.err = false → w.nbytes = 8 →
      (dirOf s p.val side).inp = none → (dirOf s p.val side).stuck = false → 64 ≤ maxFrame s p.val →
      (side = .wi → maxFrame s p.val ≤ freeSpace s p.val side) →
      ∃ t f, exec (cmd [w]) s = .next t ∧ (dirOf t p.val side).frames = (dirOf s p.val side).frames ++ [f] ∧
        f = { newFrame s p.val with bytes := wordBytes w.data } ∧
        (dirOf t p.val side).inp = some { len := 8, words := 1, since := s.now, lastWord := s.now, held := 0, live := true } ∧
        t = { s with shims := t.shims } ∧ ∀ q, q ≠ p.val → shim t q = shim s q) ∧
    (∀ (w : FrameWord) (o : OpenIn) (fs : List QFrame) (f : QFrame) (s : State), inputReady s p.val side = true →
      w.sop = false → w.err = false → w.nbytes = 8 → (dirOf s p.val side).skipping = false →
      (dirOf s p.val side).inp = some o → o.live = true → o.len + 8 ≤ 16384 → (dirOf s p.val side).frames = fs ++ [f] →
      f.phase = .waiting → f.disp = .waiting → f.lenPending = false → f.late = none → 64 ≤ maxFrame s p.val →
      (w.eop = false → f.complete = false → f.bytes.length + 8 < 64 → ∃ t, exec (cmd [w]) s = .next t ∧
        (dirOf t p.val side).frames = fs ++ [{ f with bytes := f.bytes ++ wordBytes w.data }] ∧
        (dirOf t p.val side).inp = some { o with len := o.len + 8, words := o.words + 1, lastWord := s.now } ∧
        t = { s with shims := t.shims }) ∧
      (f.bytes.length = 56 → etherType (f.bytes ++ wordBytes w.data) = 0x8808 → ∃ t, exec (cmd [w]) s = .next t ∧
        (dirOf t p.val side).frames = fs ++ [{ f with
          bytes := f.bytes ++ wordBytes w.data, complete := w.eop, disp := .plain
          tallies := f.tallies ++ [.port (if side = .fi then 8 else 9)] }] ∧
        t = { s with shims := t.shims })) ∧
    (∀ (w : FrameWord) (s : State), inputReady s p.val side = true → w.sop = false → (dirOf s p.val side).inp = none →
      (dirOf s p.val side).skipping = false → ctlOn s = true →
      ∃ t, exec (cmd [w]) s = .next t ∧ (dirOf t p.val side).skipping = true ∧
        (dirOf t p.val side).frames = (dirOf s p.val side).frames ∧
        ctr t (0x2841 + p.val) 16 = satAdd64 (ctr s (0x2841 + p.val) 16) 1 ∧ t.events.pending.getLsbD p.val = true ∧
        (spGet w32Zero t.events.cause p.val).getLsbD 0 = true) ∧
    (∀ (w : FrameWord) (o : OpenIn) (fs : List QFrame) (f : QFrame) (s : State), inputReady s p.val side = true →
      w.sop = false → w.err = true → w.nbytes = 8 → (dirOf s p.val side).skipping = false →
      (dirOf s p.val side).inp = some o → o.live = true → o.len + 8 ≤ 16384 → (dirOf s p.val side).frames = fs ++ [f] →
      f.phase = .waiting →
      ∃ t g, exec (cmd [w]) s = .next t ∧ (dirOf t p.val side).frames = fs ++ [g] ∧ g.phase = .discarded ∧
        g.tallies = f.tallies.filter isEventTally ++ [.port 12])

/-- The head frame of a direction, once processed and in its release cycle, begins with the transfer of its sop word and
the stamps of that cycle; earlier it stays. Each later word transfers when it is there, and ends the stuck state. The
words of a frame carry 8 bytes each, the first byte uppermost, but for the last, with sop on the first and eop on the
last. In a later cycle the late-bound values of a begun frame that has none are fixed from those stamps. A
discarded first frame leaves with its counter; a closed one leaves as a word of 8 zero bytes with err; a complete
transmit frame leaves as its bytes on wo_, a complete judged receive frame as its plaintext on fo_; one not complete
stays. (R57, R58, R59, R62, R114, R115, R140, R145, Table 3.8) -/
def Obligations.FramesAreReleasedAndSettledInOrder : Prop :=
  (∀ (p : Port) (side : Side) (f : QFrame) (fs : List QFrame) (s : State), pathOn s = true → portEnabled s p.val = true →
      (dirOf s p.val side).frames = f :: fs → f.phase = .waiting → f.egress = none → processed f = true →
      (releaseFrom s p.val f ≤ s.now → exec (.frameRelease p side) s = .next (setDir s p.val side { dirOf s p.val side with
        frames := { f with phase := .begun s.now, egress := some (stampsNow s p.val), sent := f.sent + 1 } :: fs })) ∧
      (s.now < releaseFrom s p.val f → exec (.frameRelease p side) s = .next s)) ∧
    (∀ (p : Port) (side : Side) (f : QFrame) (fs : List QFrame) (n : Nat) (e : Stamps) (s : State), pathOn s = true →
      portEnabled s p.val = true → (dirOf s p.val side).frames = f :: fs → f.phase = .begun n → f.egress = some e →
      processed f = true →
      (∀ w, outWord s p.val side = some w → exec (.frameRelease p side) s = .next (setDir s p.val side { dirOf s p.val side with
        frames := { f with phase := .begun s.now, sent := f.sent + 1 } :: fs, stuck := false })) ∧
      (outWord s p.val side = none → exec (.frameRelease p side) s = .next s) ∧
      (side = .fi → f.complete = true → outWord s p.val side = frameWord (wireBytes s p.val f) true false f.sent)) ∧
    (∀ (bytes : Bytes) (k : Nat) (w : FrameWord), frameWord bytes true false k = some w ↔ 8 * k < bytes.length ∧
      w = { data := laneWord bytes k, sop := decide (k = 0), eop := decide (bytes.length ≤ 8 * k + 8)
            nbytes := BitVec.ofNat 4 (Nat.min 8 (bytes.length - 8 * k)), err := false }) ∧
    (∀ (p : Port) (s : State), pathOn s = true → exec (.lateBinding p) s = .next (setDir s p.val .fi { dirOf s p.val .fi with
      frames := (dirOf s p.val .fi).frames.map (bindLate s.now) })) ∧
    (∀ (now n : Nat) (e : Stamps) (f : QFrame), f.phase = .begun n → f.egress = some e → f.late = none →
      bindLate now f = (if e.cycle < now then { f with late := some (lateFieldsOf e f.bytes) } else f)) ∧
    ∀ (p : Port) (side : Side) (f : QFrame) (fs : List QFrame) (s : State), pathOn s = true → (dirOf s p.val side).frames = f :: fs →
      (∀ k, f.phase = .discarded → f.tallies = [.port k] → f.disp = .waiting →
        ∃ t, exec (.frameSettle p side) s = .next t ∧ (dirOf t p.val side).frames = fs ∧
          (dirOf t p.val side).lastOut = (dirOf s p.val side).lastOut ∧
          ctr t (0x2841 + p.val) k = satAdd64 (ctr s (0x2841 + p.val) k) 1 ∧ t = { s with shims := t.shims, ctrs := t.ctrs }) ∧
      (f.phase = .closed → ∃ t, exec (.frameSettle p side) s = .next t ∧
        (dirOf t p.val side).frames.map (fun g => g.bytes) = fs.map (fun g => g.bytes) ∧
        (dirOf t p.val side).lastOut = some ⟨zeros 8, true⟩ ∧ (dirOf t p.val side).stuck = false) ∧
      (∀ n, f.phase = .begun n → outputDone side f = true → ∃ t, exec (.frameSettle p side) s = .next t ∧
        (dirOf t p.val side).frames.map (fun g => g.bytes) = fs.map (fun g => g.bytes) ∧
        (dirOf t p.val side).lastOut = some ⟨if side = .fi then wireBytes s p.val f else fabricBytes s p.val f, false⟩) ∧
      (∀ n, f.phase = .begun n → outputDone side f = false → exec (.frameSettle p side) s = .next s)

/-- FRAME_GAP_TIMEOUT of an open frame idle for more than 4,096 cycles counts and raises a protocol error, ends the frame
and skips its rest. INPUT_UNDERRUN of a frame past its schedule ends it with the underrun counter and cause.
PORT_STUCK of an output stalled past its limit sets the stuck state, raises its cause and discards the frames that
wait behind. PERIOD_BOUNDARY discards the frames of earlier periods of a periodic context whose sop word has not
transferred, one that stands presented closed under R62, and raises deadline-drop. Before its limit each changes nothing. (R61, R66, R110, R112, R168, R169, Table 2.2) -/
def Obligations.LateFramesAreEnded : Prop :=
  (∀ (p : Port) (side : Side) (o : OpenIn) (s : State), (dirOf s p.val side).inp = some o →
      (pathOn s = true → ctlOn s = true → o.lastWord + 4096 < s.now →
        ∃ t, exec (.frameGapTimeout p side) s = .next t ∧ (dirOf t p.val side).inp = none ∧
          (dirOf t p.val side).skipping = true ∧ ctr t (0x2841 + p.val) 16 = satAdd64 (ctr s (0x2841 + p.val) 16) 1 ∧
          t.events.pending.getLsbD p.val = true ∧
          (dirOf t p.val side).frames = (if o.live then modLast (endFrame (abortTallies side)) (dirOf s p.val side).frames
            else (dirOf s p.val side).frames)) ∧
      (s.now ≤ o.lastWord + 4096 → exec (.frameGapTimeout p side) s = .next s) ∧
      (pathOn s = true → missed s p.val o = true → ∃ t, exec (.inputUnderrun p side) s = .next t ∧
        (dirOf t p.val side).frames = modLast (endFrame [.port 13, .cause 3]) (dirOf s p.val side).frames ∧
        (dirOf t p.val side).inp = some { o with live := false } ∧ t = { s with shims := t.shims }) ∧
      (missed s p.val o = false → exec (.inputUnderrun p side) s = .next s)) ∧
    (∀ (p : Port) (side : Side) (n : Nat) (f : QFrame) (fs : List QFrame) (s : State), pathOn s = true → ctlOn s = true →
      portEnabled s p.val = true → (dirOf s p.val side).frames = f :: fs → isOpen f = true → presentedSince s p.val f = some n →
      (n + stallLimit s p.val < s.now → (dirOf s p.val side).stuck = false → ∃ t, exec (.portStuck p side) s = .next t ∧
        (dirOf t p.val side).stuck = true ∧ t.events.pending.getLsbD p.val = true ∧
        (spGet w32Zero t.events.cause p.val).getLsbD 2 = true ∧
        (dirOf t p.val side).frames = (if isBegun f then f else { f with phase := .begun s.now }) :: fs.map (dropWaiting [.port 18])) ∧
      (s.now ≤ n + stallLimit s p.val → exec (.portStuck p side) s = .next s)) ∧
    ∀ (c : Fin 8192) (s : State) (bound p : Nat) (side : Side) (word : Nat), pathOn s = true → ctlOn s = true →
      (context s c.val).periodic = true → (context s c.val).period ≠ 0 →
      p = (context s c.val).port.toNat → side = (if (context s c.val).rx then .wi else .fi) →
      word = (if (context s c.val).rx then 27 else 22) →
      bound = lastBoundaryNs (context s c.val).period.toNat (context s c.val).phase.toNat (localNs s) →
      ((∃ f ∈ (dirOf s p side).frames, earlier c.val bound s.time.epochL f = true) →
        ∃ t, exec (.periodBoundary c) s = .next t ∧ t.events.pending.getLsbD 36 = true ∧
          (dirOf t p side).frames = (dirOf s p side).frames.map
            (fun f => if earlier c.val bound s.time.epochL f then endFrame [.context c.val word 1] f else f)) ∧
      ((∀ f ∈ (dirOf s p side).frames, earlier c.val bound s.time.epochL f = false) →
        exec (.periodBoundary c) s = .next s)

/-- Stage 8 of the first complete frame that waits for it: with validate_frames Strict and a wrong ICV it is dropped under
row 13 and counted, with nothing else changed; with a good ICV and a number below the window under replay protection
it is dropped under row 15; with a good ICV and a number at or above next_pn on a CURRENT association below the
watermark it is delivered under row 17 and next_pn becomes its number plus one. A frame that is not complete is not
judged. (R131, R132, R133, R161, Table 3.7) -/
def Obligations.ReceivedFramesAreJudged : Prop :=
  ∀ (p : Port) (plan : CipherPlan) (f : QFrame) (fs : List QFrame) (s : State), pathOn s = true →
    (dirOf s p.val .wi).frames = f :: fs → awaitsVerdict f = true → f.disp = .protect plan →
    (f.complete = true → validateFrames s p.val = 2 → icvGood plan (confOffset s p.val) f.bytes = false →
      ∃ t, exec (.rxVerdict p) s = .next t ∧ t = { s with shims := t.shims } ∧ (dirOf t p.val .wi).frames =
        endFrame [.context plan.ctx 18 1] { f with verdict := true, row17 := false } :: fs) ∧
    (f.complete = true → validateFrames s p.val ≠ 0 → icvGood plan (confOffset s p.val) f.bytes = true →
      (finalLate s p.val plan = true → replayProtect s p.val = true →
        ∃ t, exec (.rxVerdict p) s = .next t ∧ t = { s with shims := t.shims } ∧ (dirOf t p.val .wi).frames =
          endFrame [.context plan.ctx 19 1] { f with verdict := true, row17 := false } :: fs) ∧
      (finalLate s p.val plan = false → plan.slotKept = true → (assocOf (context s plan.owner) plan.slot).state = .current →
        (assocOf (context s plan.owner) plan.slot).nextPn.toNat ≤ plan.pn.toNat → plan.pn.toNat < 2 ^ 64 - 1 →
        plan.pn.toNat < (context s plan.owner).watermark.toNat →
        ∃ t, exec (.rxVerdict p) s = .next t ∧ t = { s with shims := t.shims, contexts := t.contexts } ∧
          context t plan.owner = setAssoc (context s plan.owner) plan.slot
            { assocOf (context s plan.owner) plan.slot with nextPn := plan.pn + 1 } ∧
          (∀ c, c ≠ plan.owner → context t c = context s c) ∧
          (dirOf t p.val .wi).frames = { f with
            verdict := true, row17 := true, tallies := f.tallies ++ [.context plan.ctx 16 1, rxOctets plan.ctx plan.conf plan.sc f.bytes] } :: fs)) ∧
    (f.complete = false → ∃ t, exec (.rxVerdict p) s = .next t ∧ (dirOf t p.val .wi).frames = f :: fs ∧ t = { s with shims := t.shims })

/-- Whatever the fields (each at or beyond byte 12 of the frame and inside it), patching the placeholder frame's bytes and
tag by R140 gives exactly the protected frame of the final plaintext: the tag is the GCM tag over the final frame.
(R124, R125, R128, R138, R140) -/
def Obligations.LateBindingYieldsTheFinalFrame : Prop :=
  ∀ (p : CipherPlan) (es scb : Bool) (off : Nat) (bs : Bytes) (fs : List LateField), 14 ≤ bs.length →
    (∀ l ∈ fs, 12 ≤ l.pos ∧ l.pos + l.value.length ≤ bs.length) →
    lateBoundFrame p es scb off bs fs = protectedFrame p es scb off (bindFields fs bs)

/-- While the rate of a port is 0, a control word that no check refuses is stored and changes nothing else, and one that a
check refuses changes nothing. At another rate every write but one that only clears the rate is refused. PORT_DISABLE
of a port at a rate clears the rate, closes the frames that have begun, discards the others into the disable-drop
counter, and leaves every other port's frames. (R107, R109, R127, Table 3.1) -/
def Obligations.PortControlIsWrittenWhileStopped : Prop :=
  (∀ (sec : Bool) (priv : BitVec 2) (p : Port) (v : W64) (s : State),
      hostWrites sec priv (0x2801 + p.val) 1 (wordBytes v) s = true →
      (portRate s p.val = 0 → portControlBad s p.val v = none → exec (.portControlWrite (.host sec priv) p v) s =
        .next (hostDone (setReg s (0x2801 + p.val) 1 v))) ∧
      (∀ c, portRate s p.val = 0 → portControlBad s p.val v = some c → exec (.portControlWrite (.host sec priv) p v) s =
        .next (hostRefused sec priv c s)) ∧
      (portRate s p.val ≠ 0 → v ≠ setField (portControl s p.val) 2 0 0 → exec (.portControlWrite (.host sec priv) p v) s =
        .next (hostRefused sec priv errState s)) ∧
      (field v 4 3 = 3 ∨ field v 11 10 = 3 ∨ field v 13 12 = 3 ∨ field v 30 16 < 64 ∨ 16384 < field v 30 16 →
        portControlBad s p.val v = some errRange)) ∧
    ∀ (sec : Bool) (priv : BitVec 2) (p : Port) (s : State), portRate s p.val ≠ 0 →
      hostWrites sec priv (0x2801 + p.val) 1 (wordBytes (setField (portControl s p.val) 2 0 0)) s = true →
      ∃ t, exec (.portDisable (.host sec priv) p) s = .next t ∧
        portControl t p.val = setField (portControl s p.val) 2 0 0 ∧ portRate t p.val = 0 ∧
        (∀ side, (dirOf t p.val side).inp = none ∧ (dirOf t p.val side).frames = (dirOf s p.val side).frames.map
          (fun f => if isBegun f then endFrame [] f else endFrame [.port 15] f)) ∧
        (∀ q, q ≠ p.val → shim t q = shim s q) ∧ t = hostDone { s with regs := t.regs, shims := t.shims }

/-- Of the record that the host's window selects: a control word with enable that R149 allows puts a disabled record in
service, and one that it does not allow is refused. An install on an EMPTY slot that meets R153 makes it NEXT with its
number, key length and key, adds a binding to the key, and sets the transmit-used mark on a transmit context; on a
slot in another state it is refused. A clear that Table 4.7 allows returns the slot to its defaults and releases the
key; a CURRENT transmit slot of an enabled record refuses it. (R149, R150, R153, R154, R155, R215, Table 4.2, Table
4.7) -/
def Obligations.ContextsAndAssociationsAreSetUp : Prop :=
  (∀ (sec : Bool) (priv : BitVec 2) (v : W64) (s : State) (c : Nat) (x : Context), hostWrites sec priv 0x3001 1 (wordBytes v) s = true →
      c = regN s 0x3000 1 → x = context s c → x.enable = false → bit v 0 = true → x.retired = false →
      (enableOk s c (controlWrite x v) = true → field v 8 7 < 2 → ∃ t, exec (.contextEnable (.host sec priv) v) s = .next t ∧
        t = hostDone (setContext s c (controlWrite x v)) ∧ (context t c).enable = true) ∧
      (enableOk s c (controlWrite x v) = false →
        exec (.contextEnable (.host sec priv) v) s = .next (hostRefused sec priv errState s))) ∧
    (∀ (sec : Bool) (priv : BitVec 2) (i : SlotId) (v : W64) (s : State) (c : Nat) (x : Context) (key : W16),
      hostWrites sec priv 0x3001 (slotSub i) (wordBytes (setField v 4 2 1)) s = true →
      c = regN s 0x3000 1 → x = context s c → key = v.extractLsb' 16 16 → x.retired = false →
      ((assocOf x i).state = .empty → refInRange key = true → installOk s x i (v.extractLsb' 0 2) key = true →
        ∃ t, exec (.associationInstall (.host sec priv) i v) s = .next t ∧
          context t c = setAssoc x i { assocOf x i with
            an := v.extractLsb' 0 2, klen := bit v 5, key := key, state := .next } ∧
          (slotOf t key).bindings = (slotOf s key).bindings + 1 ∧
          (slotOf t key).txu = ((slotOf s key).txu || !x.rx) ∧
          t = hostDone { s with contexts := t.contexts, keys := { s.keys with slots := t.keys.slots, before := t.keys.before } }) ∧
      ((assocOf x i).state ≠ .empty →
        exec (.associationInstall (.host sec priv) i v) s = .next (hostRefused sec priv errState s))) ∧
    ∀ (sec : Bool) (priv : BitVec 2) (i : SlotId) (v : W64) (s : State) (c : Nat) (x : Context),
      hostWrites sec priv 0x3001 (slotSub i) (wordBytes (setField v 4 2 0)) s = true →
      c = regN s 0x3000 1 → x = context s c → x.retired = false →
      ((assocOf x i).state ≠ .empty → clearAllowed x (assocOf x i) = true → ∃ t,
        exec (.associationClear (.host sec priv) i v) s = .next t ∧ context t c = setAssoc x i Assoc.default ∧
        (refInRange (assocOf x i).key = true →
          (slotOf t (assocOf x i).key).bindings = (slotOf s (assocOf x i).key).bindings - 1)) ∧
      ((assocOf x i).state = .current → x.rx = false → x.enable = true →
        exec (.associationClear (.host sec priv) i v) s = .next (hostRefused sec priv errState s))

/-- When the Numbering Stage numbers a frame, context and owner are enabled, the slot's key is LIVE, the IV is (SSCI ‖ PN)
⊕ salt, and afterwards the slot's next_pn is above the number, or the slot is STOPPED at the last number, so no later
frame on it takes the number again. The number recovered from the low 32 bits agrees with them, and unless the frame
is late lies in the 2^32 numbers from the lowest acceptable PN. (R118, R124, R132, R158, R159, R163, R164) -/
def Obligations.PacketNumbersAreUsedOnce : Prop :=
  (∀ (s t : State) (c o : Nat) (plan : CipherPlan) (ev : List Tally), chooseTx s c = (t, .numbered plan ev) → o = ownerOf s c →
      (context s c).enable = true ∧ (context s o).enable = true ∧ plan.owner = o ∧ plan.ctx = c ∧
      plan.iv = ivOf (context s o).ssci plan.pn (assocOf (context s o) plan.slot).salt ∧
      frameKeyUsable s (assocOf (context s o) plan.slot).key = true ∧
      ((assocOf (context t o) plan.slot).nextPn = plan.pn + 1 ∧ plan.pn.toNat < (plan.pn + 1).toNat ∧
          (assocOf (context t o) plan.slot).state = .current ∨
        plan.pn = BitVec.allOnes 64 ∧ (assocOf (context t o) plan.slot).state = .stopped)) ∧
    ∀ lapn lo : Nat, lapn < 2 ^ 64 → lo < 2 ^ 32 → (recoverPn lapn lo).1 % 2 ^ 32 = lo ∧ (recoverPn lapn lo).1 < 2 ^ 64 ∧
      ((recoverPn lapn lo).2 = false → lapn ≤ (recoverPn lapn lo).1 ∧ (recoverPn lapn lo).1 < lapn + 2 ^ 32)

/-- For a host master at hp_sec = 1 and hp_priv = 3: a target that no condition of R219 refuses becomes STAGED with code
1; a refused one changes the code only; a value or check word enters the open staging, whose code becomes 2 once all
eight value words are there; a commit whose checks pass makes the slot LIVE with the staged value (masked, reading
back exactly), the next generation and, for a main DATA key, its hash subkeys, other slots unchanged; a commit that
fails, an abort command and 10 ms end the staging with codes 8 to 10, 11 and 12, with their counter and event; a commit
whose checks pass while the DRBG refuses requests is refused (the model's choice, log 68). A read of word 0x2C shows open,
code and slot. Any other host master is refused, reading and writing. (R213, R217, R218, R219, R220, R221, R222, Table 6.3, Table 6.4) -/
def Obligations.StagingTakesAKeyToLive : Prop :=
  (∀ (priv : BitVec 2) (sec : Bool) (v : W32) (w : Fin 9) (s : State), hpReady s = true → sec = false ∨ priv ≠ 3 → v.toNat < 2 ^ 18 →
      exec (.stagingOpen (.host sec priv) v) s = .next (hostRefused sec priv errMaster s) ∧
      exec (.stagingWordWrite (.host sec priv) w v) s = .next (hostRefused sec priv errMaster s) ∧
      exec (.commit (.host sec priv)) s = .next (hostRefused sec priv errMaster s) ∧
      exec (.abort (.host sec priv)) s = .next (hostRefused sec priv errMaster s)) ∧
    (∀ (v : W32) (s : State), hpReady s = true → 2 ^ 18 ≤ v.toNat →
      exec (.stagingOpen (.host true 3) v) s = exec (.stagingOpen (.host true 3) (v &&& 0x3FFFF)) (bump s 0x2002 3)) ∧
    (∀ (v : W32) (k : W16) (s : State), hpReady s = true → v.toNat < 3 * 2 ^ 16 → k = v.extractLsb' 0 16 →
      s.keys.staging = none →
      (stagingRefusal s k = none → ∃ t, exec (.stagingOpen (.host true 3) v) s = .next t ∧
        t.keys.staging = some { target := k, usage := usageOf (field v 17 16), value := List.replicate 8 none, check := none, since := s.now } ∧
        slotOf t k = { slotOf s k with state := .staged, before := effState s k } ∧ t.keys.stagingCode = 1 ∧
        (∀ j, j ≠ k → slotOf t j = slotOf s j) ∧ t = hostDone { s with keys := t.keys }) ∧
      (∀ c, stagingRefusal s k = some c → exec (.stagingOpen (.host true 3) v) s =
        .next (hostRefused true 3 errState (setKeys s { s.keys with stagingCode := c })))) ∧
    (∀ (w : Fin 9) (v : W32) (st : Staging) (s : State), hpReady s = true → s.keys.staging = some st →
      ∃ u, u = (if w.val = 8 then { st with check := some v } else { st with value := st.value.set w.val (some v) }) ∧
        exec (.stagingWordWrite (.host true 3) w v) s = .next (hostDone (setKeys s { s.keys with
          staging := some u, stagingCode := if u.value.all Option.isSome then 2 else 1 }))) ∧
    (∀ (st : Staging) (s : State), hpReady s = true → s.keys.staging = some st →
      (commitFailure st = none → drbgServes s = true → ∃ t, exec (.commit (.host true 3)) s = .next t ∧ slotValue t st.target = stagedValue st ∧
        effState t st.target = .live ∧ (slotOf t st.target).usage = st.usage ∧ (slotOf t st.target).txu = false ∧
        (slotOf t st.target).generation = (slotOf s st.target).generation + 1 ∧
        (refRetention st.target = false → st.usage = .data → slotH256 t st.target = subkey256 (stagedValue st) ∧
          slotH128 t st.target = subkey128 (stagedValue st)) ∧
        (∀ j, j ≠ st.target → slotOf t j = slotOf s j) ∧ t.keys.staging = none ∧ t.keys.stagingCode = 0 ∧
        t.keys.drbg.requests = s.keys.drbg.requests + 1 ∧ t = hostDone { s with keys := t.keys, ctrs := t.ctrs }) ∧
      (commitFailure st = none → drbgServes s = false → exec (.commit (.host true 3)) s = .next (hostRefused true 3 errState s)) ∧
      (∀ c, commitFailure st = some c → ∃ t, exec (.commit (.host true 3)) s = .next t ∧ t.keys.staging = none ∧
        t.keys.stagingCode = c ∧ ctr t 0x380A 2 = satAdd64 (ctr s 0x380A 2) 1 ∧ t.events.pending.getLsbD 65 = true ∧
        ((slotOf s st.target).state = .staged → (slotOf t st.target).state = (slotOf s st.target).before))) ∧
    (∀ (st : Staging) (s : State), hpReady s = true → s.keys.staging = some st →
      ∃ t, exec (.abort (.host true 3)) s = .next t ∧ t.keys.staging = none ∧ t.keys.stagingCode = 11 ∧
        ((slotOf s st.target).state = .staged → slotOf t st.target =
          { slotOf s st.target with state := (slotOf s st.target).before, before := .empty }) ∧ t = hostDone { s with keys := t.keys }) ∧
    (∀ s : State, hpReady s = true → exec (.registerWrite 0x20B none true 3) s = .next (hpAnswer 0 (stagingStatus s) s)) ∧
    (∀ (sec : Bool) (priv : BitVec 2) (s : State), hpReady s = true → sec = false ∨ priv ≠ 3 →
      exec (.registerWrite 0x20B none sec priv) s = .next (hostRefused sec priv errMaster s)) ∧
    (∀ s : State, hpReady s = true → s.keys.staging = none →
      exec (.commit (.host true 3)) s = .next (hostRefused true 3 errState s) ∧
      exec (.abort (.host true 3)) s = .next (hostRefused true 3 errState s) ∧ exec .stagingTimeout s = .next s) ∧
    ∀ (st : Staging) (s : State), s.keys.staging = some st →
      (elapsed s st.since (msCycles 10) = true → ctlOn s = true → ∃ t, exec .stagingTimeout s = .next t ∧ t.keys.staging = none ∧
        t.keys.stagingCode = 12 ∧ ctr t 0x380A 3 = satAdd64 (ctr s 0x380A 3) 1 ∧ t.events.pending.getLsbD 64 = true) ∧
      (elapsed s st.since (msCycles 10) = false → exec .stagingTimeout s = .next s)

/-- INVALIDATE of a LIVE slot makes it STALE and is refused otherwise. ZEROIZE_SLOT of a slot neither EMPTY nor RETIRED
makes it EMPTY, value, mask and subkeys 0, generation one higher, everything else of it kept. A bank command does this to every
such slot of its bank or banks, leaves EMPTY and RETIRED slots and the other bank's slots as they are, ends any
staging and derivation with code 13 and, for ops 3 and 5, clears the Device Root Secret; busy stays until
BANK_OVERWRITE_DONE. STALE_WALK writes STALE into a recorded LIVE slot whose parent is gone and changes no effective
state. (R214, R216, R223, R224, Table 6.2) -/
def Obligations.SlotsAreInvalidatedAndZeroized : Prop :=
  (∀ (sec : Bool) (priv : BitVec 2) (k : W16) (s : State), hostWrites sec priv 0x3802 1 (slotOpBytes 1 k) s = true →
      s.keys.slotBusy = false → refInRange k = true →
      (effState s k = .live → exec (.invalidate (.host sec priv) k) s = .next (hostDone (setSlotCode
        (setSlot s k { slotOf s k with state := .stale }) false 0))) ∧
      (effState s k ≠ .live → exec (.invalidate (.host sec priv) k) s =
        .next (hostRefused sec priv errState (setSlotCode s false 1)))) ∧
    (∀ (sec : Bool) (priv : BitVec 2) (k : W16) (s : State), hostWrites sec priv 0x3802 1 (slotOpBytes 2 k) s = true →
      s.keys.slotBusy = false → refInRange k = true →
      ((slotOf s k).state ≠ .empty → (slotOf s k).state ≠ .retired →
        ∃ t, exec (.zeroizeSlot (.host sec priv) k) s = .next t ∧
          slotOf t k = { slotOf s k with state := .empty, before := .empty, generation := (slotOf s k).generation + 1
                                         masked := 0, mask := 0, maskedH256 := 0, maskedH128 := 0 } ∧
          slotValue t k = 0 ∧ t.keys.slotCode = 0) ∧
      ((slotOf s k).state = .empty → exec (.zeroizeSlot (.host sec priv) k) s = .next (hostDone (setSlotCode s false 0))) ∧
      ((slotOf s k).state = .retired → exec (.zeroizeSlot (.host sec priv) k) s =
        .next (hostRefused sec priv errState (setSlotCode s false 1)))) ∧
    (∀ (sec : Bool) (priv : BitVec 2) (s : State) (op : Nat) (c : Instr) (main ret : Bool),
      (op = 3 ∧ c = .zeroizeMainBank (.host sec priv) ∧ main = true ∧ ret = false) ∨
        (op = 4 ∧ c = .zeroizeRetentionBank (.host sec priv) ∧ main = false ∧ ret = true) ∨
        (op = 5 ∧ c = .zeroizeBothBanks (.host sec priv) ∧ main = true ∧ ret = true) →
      hostWrites sec priv 0x3802 1 (slotOpBytes op 0) s = true → s.keys.slotBusy = false →
      ∃ t, exec c s = .next t ∧ t.keys.slotBusy = true ∧ t.keys.slotCode = 0 ∧ t.keys.staging = none ∧ t.keys.batch = none ∧
        (s.keys.staging.isSome = true → t.keys.stagingCode = 13) ∧ (s.keys.batch.isSome = true → t.keys.deriveCode = 13) ∧
        (main = true → t.keys.drs = none ∧ t.keys.kAt = none ∧ t.keys.kDr = none) ∧ (main = false → t.keys.drs = s.keys.drs) ∧
        (∀ k, (if refRetention k then ret else main) = true →
          slotOf t k = (if (slotOf s k).state = .empty ∨ (slotOf s k).state = .retired then slotOf s k
            else { slotOf s k with state := .empty, before := .empty, generation := (slotOf s k).generation + 1
                                   masked := 0, mask := 0, maskedH256 := 0, maskedH128 := 0 })) ∧
        ∀ k, (if refRetention k then ret else main) = false → (slotOf s k).state ≠ .staged → slotOf t k = slotOf s k) ∧
    (∀ s : State, exec .bankOverwriteDone s = .next (setSlotCode s false s.keys.slotCode)) ∧
    ∀ (s : State) (k : W16) (x : KeySlot), s.keys.slots = [(k.toNat, x)] → x.state = .live → effState s k = .stale →
      ∃ t, exec .staleWalk s = .next t ∧ slotOf t k = { x with state := .stale } ∧ (∀ j, effState t j = effState s j) ∧
        ctr t 0x380A 5 = satAdd64 (ctr s 0x380A 5) 1 ∧ t = { s with keys := t.keys, ctrs := t.ctrs }

/-- DERIVATION_START that no check of R227 refuses stages every target, records the batch with done 0, and asks for a
grant when it has two or more; a refused start changes the code only. DERIVATION_TARGET_COMMIT, with the grant of a
batch and the parent LIVE, makes the next target LIVE with the derived value, its parent and depth recorded, and after
the last one ends the batch with code 0 and gives the grant back; with the parent not LIVE the batch ends with code 9.
Without a batch or its grant it changes nothing. (R213, R225, R227, R229, R430, Table 6.7) -/
def Obligations.DerivationsFillTheirTargets : Prop :=
  (∀ (sec : Bool) (priv : BitVec 2) (s : State), hostWrites sec priv 0x3804 8 [1] s = true →
      (∀ c, deriveRefusal s = some c → exec (.derivationStart (.host sec priv)) s =
        .next (hostRefused sec priv errState (setKeys s { s.keys with deriveCode := c }))) ∧
      (deriveRefusal s = none → ∃ t b, exec (.derivationStart (.host sec priv)) s = .next t ∧ t.keys.batch = some b ∧
        b = { source := deriveSource s, parent := deriveParent s, first := deriveFirst s, count := deriveCount s, next := 0
              purpose := (reg s 0x3804 4).setWidth 32, label := s.keys.label, context := s.keys.context } ∧
        t.keys.deriveDone = 0 ∧ t.keys.deriveCode = 0 ∧ (∀ j, j < deriveCount s → (slotOf t (batchTarget b j)).state = .staged) ∧
        (∀ k, (∀ j, j < deriveCount s → k ≠ batchTarget b j) → slotOf t k = slotOf s k) ∧
        (2 ≤ deriveCount s → grantHeld t .derivation = true ∨ grantQueued t .derivation = true) ∧
        t = hostDone { s with keys := t.keys, grants := t.grants })) ∧
    (∀ (b : Batch) (s : State) (k : W16), s.keys.batch = some b → b.next < b.count → k = batchTarget b b.next →
      (2 ≤ b.count → grantHeld s .derivation = true) → drbgServes s = true →
      (b.source = true ∨ effState s b.parent = .live → ∃ t, exec .derivationTargetCommit s = .next t ∧
        slotValue t k = targetValue s b (s.keys.drs.getD 0) ∧ (slotOf t k).state = .live ∧
        (slotOf t k).hasParent = !b.source ∧ (slotOf t k).fromDrs = b.source ∧
        (b.source = false → (slotOf t k).parent = b.parent ∧ (slotOf t k).parentGen = (slotOf s b.parent).generation ∧
          (slotOf t k).depth = (slotOf s b.parent).depth + 1) ∧
        t.keys.deriveDone = s.keys.deriveDone + 1 ∧ ctr t 0x380A 4 = satAdd64 (ctr s 0x380A 4) 1 ∧
        (b.next + 1 < b.count → t.keys.batch = some { b with next := b.next + 1 } ∧ t.grants = s.grants) ∧
        (b.next + 1 = b.count → t.keys.batch = none ∧ t.keys.deriveCode = 0 ∧ grantHeld t .derivation = false)) ∧
      (b.source = false → effState s b.parent ≠ .live → ∃ t, exec .derivationTargetCommit s = .next t ∧ t.keys.batch = none ∧
        t.keys.deriveCode = 9 ∧ t.keys.deriveDone = s.keys.deriveDone ∧ grantHeld t .derivation = false)) ∧
    ∀ s : State, (s.keys.batch = none ∨ ∃ b, s.keys.batch = some b ∧ 2 ≤ b.count ∧ grantHeld s .derivation = false) →
      exec .derivationTargetCommit s = .next s

/-- REMASKING_SWEEP with its grant leaves the unmasked value, the hash subkeys and every other field of every slot as they
were, counts a sweep and gives its grant back; without a due sweep, its grant or the DRBG, which refuses requests past 2^20
since its last reseed, it changes nothing.
REMASK_PERIOD_EXPIRY makes a sweep due and asks for its grant, and the fourth period without a completed sweep raises
remask-overdue, once. (R230, R232, R233, Table 12.6) -/
def Obligations.RemaskingChangesNoKey : Prop :=
  (∀ s : State, s.keys.remaskDue = true → grantHeld s .remask = true → drbgReady s = true →
      s.keys.drbg.requests + sweepRequests s ≤ 2 ^ 20 →
      ∃ t, exec .remaskingSweep s = .next t ∧
        (∀ k, slotValue t k = slotValue s k ∧ slotH256 t k = slotH256 s k ∧ slotH128 t k = slotH128 s k ∧
          effState t k = effState s k ∧ { slotOf t k with masked := 0, mask := 0, maskedH256 := 0, maskedH128 := 0 } =
            { slotOf s k with masked := 0, mask := 0, maskedH256 := 0, maskedH128 := 0 }) ∧
        ctr t 0x3806 2 = satAdd64 (ctr s 0x3806 2) 1 ∧ grantHeld t .remask = false ∧ t.keys.remaskDue = false ∧
        t.keys.remaskMissed = 0 ∧ t.keys.remaskOverdue = false ∧
        t = { s with keys := t.keys, ctrs := t.ctrs, grants := t.grants }) ∧
    (∀ s : State, s.keys.remaskDue = false ∨ grantHeld s .remask = false ∨ drbgReady s = false ∨
      2 ^ 20 < s.keys.drbg.requests + sweepRequests s → exec .remaskingSweep s = .next s) ∧
    (∀ s : State, drbgReady s = true → elapsed s s.keys.remaskStart (msCycles (regN s 0x3806 1)) = true → ctlOn s = true →
      ∃ t, exec .remaskPeriodExpiry s = .next t ∧ t.keys.remaskDue = true ∧ t.keys.remaskMissed = s.keys.remaskMissed + 1 ∧
        t.keys.remaskStart = s.now ∧ (grantHeld t .remask = true ∨ grantQueued t .remask = true) ∧
        (4 ≤ s.keys.remaskMissed + 1 → s.keys.remaskOverdue = false →
          t.keys.remaskOverdue = true ∧ t.events.pending.getLsbD 66 = true) ∧
        (s.keys.remaskMissed + 1 < 4 ∨ s.keys.remaskOverdue = true → t.events = s.events)) ∧
    ∀ s : State, drbgReady s = false ∨ elapsed s s.keys.remaskStart (msCycles (regN s 0x3806 1)) = false →
      exec .remaskPeriodExpiry s = .next s

/-- DRBG_INSTANTIATE while uninstantiated starts to collect, or raises drbg-fault when the known-answer tests fail, and is
refused otherwise; DRBG_RESEED and the reseed interval start a reseed while ready, and a reseed written during one
joins it. ENTROPY_SAMPLE joins the collection; the fourth identical sample in a row discards it and raises
entropy-fault; with 384 bits the DRBG becomes ready, which ends an exit that waits for it, with 256 a reseed completes. No sample in 10 ms raises
entropy-absent once. A read of 0x3808.04 is one generate request of 8 bytes once ready, and refused before. (R96,
R237, R238, R460) -/
def Obligations.TheDrbgCollectsAndServes : Prop :=
  (∀ (sec : Bool) (priv : BitVec 2) (pass : Bool) (s : State), hostWrites sec priv 0x3808 2 [1] s = true →
      (s.keys.drbg.phase = .uninstantiated → exec (.drbgInstantiate (.host sec priv) pass) s = .next (hostDone
        (if pass then setDrbg s { s.keys.drbg with phase := .instantiating, samples := [], entropyBits := 0, repeated := none
                                                   collectStart := s.now, sampleSeen := false, absentRaised := false }
          else raise s 67 0))) ∧
      (s.keys.drbg.phase ≠ .uninstantiated →
        exec (.drbgInstantiate (.host sec priv) pass) s = .next (hostRefused sec priv errState s))) ∧
    (∀ (sec : Bool) (priv : BitVec 2) (s : State), hostWrites sec priv 0x3808 2 [2] s = true →
      (s.keys.drbg.phase = .ready → exec (.drbgReseed (.host sec priv)) s = .next (hostDone (startCollect s .reseeding))) ∧
      (s.keys.drbg.phase = .reseeding → exec (.drbgReseed (.host sec priv)) s = .next (hostDone s)) ∧
      (drbgReady s = false → exec (.drbgReseed (.host sec priv)) s = .next (hostRefused sec priv errState s))) ∧
    (∀ s : State, exec .reseedInterval s = .next (if s.keys.drbg.phase = .ready ∧
      elapsed s s.keys.drbg.reseedStart (secCycles (regN s 0x3808 5)) = true then startCollect s .reseeding else s)) ∧
    (∀ (v : W32) (s : State) (need : Nat), ctlOn s = true →
      (s.keys.drbg.phase = .instantiating ∧ need = 384) ∨ (s.keys.drbg.phase = .reseeding ∧ need = 256) →
      (∀ n, 3 ≤ n → s.keys.drbg.repeated = some (v, n) → ∃ t, exec (.entropySample v) s = .next t ∧
        t.keys.drbg.samples = [] ∧ t.keys.drbg.entropyBits = 0 ∧ t.keys.drbg.phase = s.keys.drbg.phase ∧
        t.events.pending.getLsbD 71 = true) ∧
      ((∀ n, s.keys.drbg.repeated = some (v, n) → n < 3) →
        (s.keys.drbg.entropyBits + regN s 0x3808 1 < need → ∃ t, exec (.entropySample v) s = .next t ∧
          t.keys.drbg.samples = s.keys.drbg.samples ++ wordBytes v ∧ t.keys.drbg.phase = s.keys.drbg.phase ∧
          t.keys.drbg.entropyBits = s.keys.drbg.entropyBits + regN s 0x3808 1 ∧ t = setDrbg s t.keys.drbg) ∧
        (need ≤ s.keys.drbg.entropyBits + regN s 0x3808 1 → ∃ t, exec (.entropySample v) s = .next t ∧
          drbgReady t = true ∧ t.keys.drbg.phase = .ready ∧ t.keys.drbg.samples = [] ∧
          (need = 256 → t.keys.drbg.gen = drbgReseedFrom s.keys.drbg.gen (s.keys.drbg.samples ++ wordBytes v) ∧
            t.keys.drbg.requests = 0 ∧ ctr t 0x380A 7 = satAdd64 (ctr s 0x380A 7) 1) ∧
          (need = 384 → t.keys.remaskStart = s.now ∧ t.keys.permDrawn = true ∧
            ∀ k, s.power.transition = .entropy k → t.power.transition = .idle ∧ t.power.present = 0 ∧ t.power.lastLeft = k)))) ∧
    (∀ (v : W32) (s : State), s.keys.drbg.phase = .uninstantiated ∨ s.keys.drbg.phase = .ready → exec (.entropySample v) s = .next s) ∧
    (∀ s : State, s.keys.drbg.phase = .instantiating ∨ s.keys.drbg.phase = .reseeding → s.keys.drbg.sampleSeen = false →
      s.keys.drbg.absentRaised = false → exec .entropyAbsent s = .next (if elapsed s s.keys.drbg.collectStart (msCycles 10) then
        raise (setDrbg s { s.keys.drbg with absentRaised := true }) 72 0 else s)) ∧
    ∀ (sec : Bool) (priv : BitVec 2) (s : State), hostReads sec priv 0x3808 4 s = true →
      (drbgServes s = true → ∃ t, exec (.drbgOutputRead (.host sec priv)) s = .next t ∧
        t = hpAnswer 0 ((hostWords (draw s 8).1).getLastD 0) (takeSnapshot 0x3808 4 (draw s 8).1 (draw s 8).2) ∧
        t.keys.drbg.requests = s.keys.drbg.requests + 1 ∧ t.keys.drbg.gen = (drbgGenerate s.keys.drbg.gen 8).2) ∧
      (drbgServes s = false → exec (.drbgOutputRead (.host sec priv)) s = .next (hostRefused sec priv errState s))

/-- A start that no condition of R256 refuses begins its request over the values that CFG covers, with K_AT derived when it
is not held, asking for the signing grant unless it is native; a
refused one is counted. When the work of a native response is done the 88-byte response carries its CMAC under K_AT,
response_count is one higher, the request ends with code 0 and held extends are applied; of a report, its signature;
of a public key, Q, key_id and key_ready. A changed covered value restarts CFG, and at the third restart the request ends with
code 7. An extend sets mr_i = SHA-256(mr_i ‖ data), or waits while a request runs, the ninth refused. (R247, R250,
R251, R255, R256, R257, Table 7.4, Table 7.5) -/
def Obligations.AttestationAnswersItsRequests : Prop :=
  (∀ (sec : Bool) (priv : BitVec 2) (kind : AttestKind) (n : Byte) (c : Instr) (s : State),
      (kind = .native ∧ n = 1 ∧ c = .nativeResponse (.write (.host sec priv))) ∨
        (kind = .report ∧ n = 2 ∧ c = .compatibilityReport (.write (.host sec priv))) ∨
        (kind = .publicKey ∧ n = 3 ∧ c = .publicKey (.write (.host sec priv))) →
      hostWrites sec priv 0x3A01 2 [n] s = true →
      (requestRefusal s kind = none → ∃ t, exec c s = .next t ∧ t.attest.running = some ⟨kind, 0, cfgInput s⟩ ∧
        (kind ≠ .native → grantHeld t .signing = true ∨ grantQueued t .signing = true) ∧
        (kind = .native → t.grants = s.grants ∧ t.attest.nativeThisSecond = s.attest.nativeThisSecond + 1) ∧
        t.keys = { s.keys with kAt := some (s.keys.kAt.getD (attestKey s (s.keys.drs.getD 0))) } ∧
        t = hostDone { s with attest := t.attest, grants := t.grants, keys := t.keys }) ∧
      (∀ e, requestRefusal s kind = some e → ∃ t, exec c s = .next t ∧ t.server.hpResp = 1 ∧ t.attest.running = s.attest.running ∧
        ctr t 0x3A03 4 = satAdd64 (ctr s 0x3A03 4) 1 ∧ t.attest.code = e)) ∧
    (∀ (s : State) (d : KeyVal) (q : AttestReq) (body : Bytes), s.keys.drs = some d → s.attest.running = some q →
      (q.kind = .native → body = nativeBody s (sha256 q.cfg) (nextCount s) → s.attest.held = [] →
        ∃ t, exec (.nativeResponse .done) s = .next t ∧
          t.attest.response = body ++ cmac256 (s.keys.kAt.getD (attestKey s d)) body ∧
          t.attest.responseCount = nextCount s ∧ t.attest.cfgDigest = sha256 q.cfg ∧ t.attest.running = none ∧ t.attest.code = 0 ∧
          t.attest.mr = s.attest.mr ∧ t = { s with attest := t.attest, keys := t.keys, grants := t.grants }) ∧
      (q.kind = .report → grantHeld s .signing = true → body = reportBody s (sha256 q.cfg) (nextCount s) →
        ∃ t, exec (.compatibilityReport .done) s = .next t ∧
          t.attest.report = body ++ ecdsaSign (signingScalar (s.attest.signKey.getD (signSource s d))) body ∧
          t.attest.responseCount = nextCount s ∧ t.attest.running = none ∧ t.attest.code = 0 ∧ grantHeld t .signing = false) ∧
      (q.kind = .publicKey → grantHeld s .signing = true → ∃ t, exec (.publicKey .done) s = .next t ∧
        t.attest.publicKey = publicKey (signingScalar (signSource s d)) ∧
        t.attest.keyId = keyIdOf (publicKey (signingScalar (signSource s d))) ∧
        t.attest.keyReady = true ∧ t.attest.running = none ∧ t.attest.code = 0 ∧ grantHeld t .signing = false) ∧
      (∀ c, (q.kind = .native ∧ c = .nativeResponse .covered) ∨ (q.kind = .report ∧ c = .compatibilityReport .covered) ∨
          (q.kind = .publicKey ∧ c = .publicKey .covered) →
        (q.cfg = cfgInput s → exec c s = .next s) ∧
        (q.cfg ≠ cfgInput s → q.restarts < 2 → exec c s = .next (setAttest s { s.attest with
          running := some { q with restarts := q.restarts + 1, cfg := cfgInput s } })) ∧
        (q.cfg ≠ cfgInput s → 2 ≤ q.restarts → ∃ t, exec c s = .next t ∧ t.attest.running = none ∧ t.attest.code = 7 ∧
          t.attest.responseCount = s.attest.responseCount))) ∧
    (∀ s : State, s.attest.running = none → exec (.nativeResponse .done) s = .next s ∧ exec (.nativeResponse .covered) s = .next s ∧
      exec (.compatibilityReport .done) s = .next s ∧ exec (.compatibilityReport .covered) s = .next s ∧
      exec (.publicKey .done) s = .next s ∧ exec (.publicKey .covered) s = .next s) ∧
    ∀ (sec : Bool) (priv : BitVec 2) (data : Bytes) (s : State) (i : Nat), hostWrites sec priv 0x3A02 9 data s = true →
      i = (byteAt data 0).toNat → i < 8 →
      (s.attest.running = none → ∃ t, exec (.extend (.host sec priv) data) s = .next t ∧
        t.attest.mr = s.attest.mr.set i (sha256 (s.attest.mr.getD i (zeros 32) ++ data.drop 1)) ∧
        t.attest.extendCount = satInc 0xFFFFFFFF s.attest.extendCount ∧
        t = hostDone { s with attest := t.attest }) ∧
      (s.attest.running.isSome = true → s.attest.held.length < 8 → exec (.extend (.host sec priv) data) s =
        .next (hostDone (setAttest s { s.attest with held := s.attest.held ++ [data] }))) ∧
      (s.attest.running.isSome = true → 8 ≤ s.attest.held.length →
        exec (.extend (.host sec priv) data) s = .next (hostRefused sec priv errBroken s))

/-- For a host command with the record's key and result: with a rebuild on the table it ends with code 6, with a bad key
(or, for insert and replace, result) with code 5, without the key with code 3 (delete, read, replace), and the tables
stay. Insert of a listed key ends with code 2; of an unlisted one with code 0 or 1, after which the key is found with
that result at the reported location and every other key found before is still found, or with code 4 or 7 and the
tables unchanged; with a free bucket among a Stream key's candidates it takes the first such one with code 0. Delete
of a key listed once leaves it unlisted and a bucket's version one higher; read puts the result in the record and
clears the hit mark only; replace writes the result with the hit mark kept, and last_seen in the Station Table. (R183,
R186, R187, R202, R203, R207, R208, Table 5.7) -/
def Obligations.TableCommandsActOnTheTables : Prop :=
  (∀ (sec : Bool) (priv : BitVec 2) (tb : TableSel) (op : Nat) (c : Instr) (s : State),
      (op = 1 ∧ c = .tableInsert (.host sec priv) tb) ∨ (op = 2 ∧ c = .tableDelete (.host sec priv) tb) ∨
        (op = 3 ∧ c = .tableRead (.host sec priv) tb) ∨ (op = 4 ∧ c = .tableReplace (.host sec priv) tb) →
      hostWrites sec priv 0x3400 1 (tableOpBytes op tb) s = true →
      ∃ (key full : Bytes) (r : W32) (end_ : BitVec 4 → State), full = s.cls.hostRegs.key.flatMap wordBytes ∧ key = full.take (keyBytesOf tb) ∧
        r = s.cls.hostRegs.result &&& 0x007FDFFF ∧
        end_ = (fun code => hostDone (setCls s { s.cls with code := code
                                                            moves := if op = 1 ∧ tb = .stream then 0 else s.cls.moves })) ∧
        (tb = .pfx ∧ s.cls.rebuild.isSome = true → exec c s = .next (end_ 6)) ∧
        (¬(tb = .pfx ∧ s.cls.rebuild.isSome = true) →
          (keyClean tb full = false → exec c s = .next (end_ 5)) ∧
          (keyClean tb full = true →
            (op = 1 ∨ op = 4 → entryOk s tb key r = false → exec c s = .next (end_ 5)) ∧
            (op = 1 → entryOk s tb key r = true →
              (∀ u, findEntry s tb key = some u → exec c s = .next (hostDone (setCls s { s.cls with
                code := 2, moves := if tb = .stream then 0 else s.cls.moves
                hostRegs := { s.cls.hostRegs with location := locationWord tb u } }))) ∧
              (key ∉ tableKeys s tb → ∃ t, exec c s = .next t ∧
                t = hostDone { s with events := t.events, cls := { s.cls with
                  stream := t.cls.stream, streamVer := t.cls.streamVer, stash := t.cls.stash, stashVer := t.cls.stashVer
                  bumped := t.cls.bumped, stashHigh := t.cls.stashHigh, station := t.cls.station, pfxEntries := t.cls.pfxEntries
                  filters := t.cls.filters, shadowStatus := t.cls.shadowStatus, code := t.cls.code, moves := t.cls.moves
                  hostRegs := t.cls.hostRegs } } ∧
                ((t.cls.code = 4 ∨ t.cls.code = 7 ∧ tb ≠ .stream) ∧ tableKeys t tb = tableKeys s tb ∨
                  (t.cls.code = 0 ∨ t.cls.code = 1 ∧ tb = .stream) ∧ ∃ u, findEntry t tb key = some u ∧
                    resultAt t tb u = r ∧ t.cls.hostRegs = { s.cls.hostRegs with location := locationWord tb u } ∧
                    (∀ k, findEntry s tb k ≠ none → findEntry t tb k ≠ none)) ∧
                (∀ u, tb = .stream → ((List.range 4).map (fun w => streamUnit w key)).find? (streamFree s) = some u →
                  t.cls.code = 0 ∧ t.cls.moves = 0 ∧ streamAt t u = some ⟨key, r⟩ ∧
                    (∀ v, v ≠ u → streamAt t v = streamAt s v)) ∧
                (∀ u, tb = .station → freeStation s key = some u →
                  t.cls.code = 0 ∧ t.cls.station = spPut s.cls.station u ⟨key, r, s.cls.second⟩))) ∧
            (op ≠ 1 → (op = 4 → entryOk s tb key r = true) → findEntry s tb key = none → exec c s = .next (end_ 3)) ∧
            (∀ u, op ≠ 1 → (op = 4 → entryOk s tb key r = true) → findEntry s tb key = some u →
              ∃ t, exec c s = .next t ∧ t.cls.code = 0 ∧ t.cls.moves = s.cls.moves ∧ t.cls.hostRegs.location = locationWord tb u ∧
                t.cls.hostRegs.key = s.cls.hostRegs.key ∧
                (op = 2 → ((tableKeys s tb).count key = 1 → key ∉ tableKeys t tb) ∧ t.cls.hostRegs.result = s.cls.hostRegs.result ∧
                  (tb = .stream → u < 65536 → spGet byteZero t.cls.streamVer u = spGet byteZero s.cls.streamVer u + 1)) ∧
                (op = 3 → t.cls.hostRegs.result = resultAt s tb u ∧ resultAt t tb u = setBit (resultAt s tb u) 24 false ∧
                  t = hostDone { s with cls := { s.cls with stream := t.cls.stream, stash := t.cls.stash, station := t.cls.station,
                                                            pfxEntries := t.cls.pfxEntries, code := 0,
                                                            hostRegs := t.cls.hostRegs } }) ∧
                (op = 4 → resultAt t tb u = setBit r 24 (bit (resultAt s tb u) 24) ∧
                  t.cls.hostRegs.result = s.cls.hostRegs.result ∧
                  (tb = .station → ∃ e, stationAt t u = some e ∧ e.lastSeen = s.cls.second) ∧
                  t = hostDone { s with cls := { s.cls with stream := t.cls.stream, stash := t.cls.stash, station := t.cls.station,
                                                            pfxEntries := t.cls.pfxEntries, code := 0, shadowStatus := t.cls.shadowStatus,
                                                            hostRegs := t.cls.hostRegs } })))))

/-- A descriptor write is refused while the descriptor is enabled with entries or its rebuild runs, and for a length, range
or clash that Table 5.5 forbids; else it is written and its filter cleared. A rebuild start is refused while one runs
and for an empty, too long or overlapping range; else it is recorded and asks for its grant. With its grant, and when
no entry of another table lies in the new range's buckets, the switch succeeds exactly when no bucket is retired or
gets more than four entries: then the descriptor names the new range, every entry of the table is found with its
result, others stay, code 0, rebuild-done; else code 4, and descriptor and entries stay. Either way the grant ends.
Without a rebuild or its grant nothing happens. (R192, R194, R208, Table 5.5, Table 12.6) -/
def Obligations.PrefixTablesAreDescribedAndRebuilt : Prop :=
  (∀ (sec : Bool) (priv : BitVec 2) (n : Fin 16) (v : W32) (s : State) (d : W64), d = v.setWidth 64 →
      hostWrites sec priv 0x3403 (n.val + 1) (wordBytes v) s = true →
      ∃ (busy bad : Prop), (busy ↔ (∃ b, s.cls.rebuild = some b ∧ b.desc.val = n.val) ∨ (bit (descriptor s n.val) 9 = true ∧
          ∃ e ∈ s.cls.pfxEntries, keyOfDesc (descriptor s n.val) e.2.key = true)) ∧
        (bad ↔ (if bit d 8 = true then 128 else 32) < field d 7 0 ∨ 16 < field d 13 10 + field d 18 14 ∨
          (bit d 9 = true ∧ (field d 18 14 = 0 ∨ ∃ j, j < 16 ∧ j ≠ n.val ∧ bit (descriptor s j) 9 = true ∧
            ((bit (descriptor s j) 8 = bit d 8 ∧ field (descriptor s j) 7 0 = field d 7 0) ∨
              (field d 13 10 < field (descriptor s j) 13 10 + field (descriptor s j) 18 14 ∧
                field (descriptor s j) 13 10 < field d 13 10 + field d 18 14))))) ∧
        (busy → exec (.descriptorWrite (.host sec priv) n v) s = .next (hostRefused sec priv errState s)) ∧
        (¬busy → bad → exec (.descriptorWrite (.host sec priv) n v) s = .next (hostRefused sec priv errRange s)) ∧
        (¬busy → ¬bad → exec (.descriptorWrite (.host sec priv) n v) s =
          .next (hostDone (setCls (setReg s 0x3403 (n.val + 1) d) { s.cls with filters := spDel s.cls.filters n.val })))) ∧
    (∀ (sec : Bool) (priv : BitVec 2) (v : W32) (s : State) (n first count : Nat), hostWrites sec priv 0x3404 1 (wordBytes v) s = true →
      n = v.toNat % 16 → first = v.toNat / 16 % 16 → count = v.toNat / 256 % 32 →
      ∃ bad : Prop, (bad ↔ count = 0 ∨ 16 < first + count ∨ ∃ j, j < 16 ∧ j ≠ n ∧ bit (descriptor s j) 9 = true ∧
          first < field (descriptor s j) 13 10 + field (descriptor s j) 18 14 ∧ field (descriptor s j) 13 10 < first + count) ∧
        (s.cls.rebuild.isSome = true → exec (.rebuild (.host sec priv) v) s = .next (hostRefused sec priv errState s)) ∧
        (s.cls.rebuild = none → bad → exec (.rebuild (.host sec priv) v) s = .next (hostRefused sec priv errRange s)) ∧
        (s.cls.rebuild = none → ¬bad → ∃ t, exec (.rebuild (.host sec priv) v) s = .next t ∧
          t.cls = { s.cls with rebuild := some ⟨Fin.ofNat 16 n, first, count⟩ } ∧
          (grantHeld t .rebuild = true ∨ grantQueued t .rebuild = true) ∧
          t = hostDone { s with cls := t.cls, grants := t.grants })) ∧
    (∀ (s : State) (b : Rebuild) (old d : W64) (own rest : List (Nat × Entry)), s.cls.rebuild = some b → grantHeld s .rebuild = true →
      old = descriptor s b.desc.val → d = setField (setField old 13 10 b.firstBank) 18 14 b.bankCount →
      own = s.cls.pfxEntries.filter (fun e => bit old 9 && keyOfDesc old e.2.key) →
      rest = s.cls.pfxEntries.filter (fun e => !(bit old 9 && keyOfDesc old e.2.key)) → (own.map (fun e => e.2.key)).Nodup →
      b.firstBank < 16 → b.bankCount < 32 →
      (∀ e ∈ own, ∀ x ∈ rest, x.1 / 4 ≠ prefixUnit b.firstBank b.bankCount e.2.key) →
      ∃ t, exec .rebuildSwitch s = .next t ∧ t.cls.rebuild = none ∧ grantHeld t .rebuild = false ∧ grantQueued t .rebuild = false ∧
        ((∀ e ∈ own, retiredUnit s 5 (prefixUnit b.firstBank b.bankCount e.2.key) = false ∧
            (own.filter (fun x => prefixUnit b.firstBank b.bankCount x.2.key == prefixUnit b.firstBank b.bankCount e.2.key)).length ≤ 4) →
          t.cls.rebuildCode = 0 ∧ descriptor t b.desc.val = d ∧ (∀ j, j < 16 → j ≠ b.desc.val → descriptor t j = descriptor s j) ∧
          (∀ e ∈ own, ∃ u, findPrefix t d e.2.key = some u ∧ spFind t.cls.pfxEntries u = some e.2) ∧
          (∀ e ∈ rest, spFind t.cls.pfxEntries e.1 = spFind rest e.1) ∧ t.cls.pfxEntries.length = s.cls.pfxEntries.length ∧
          (ctlOn s = true → t.events.pending.getLsbD 43 = true)) ∧
        ((∃ e ∈ own, retiredUnit s 5 (prefixUnit b.firstBank b.bankCount e.2.key) = true ∨
            4 < (own.filter (fun x => prefixUnit b.firstBank b.bankCount x.2.key == prefixUnit b.firstBank b.bankCount e.2.key)).length) →
          t = { s with cls := { s.cls with rebuild := none, rebuildCode := 4 }, grants := t.grants })) ∧
    ∀ s : State, s.cls.rebuild = none ∨ grantHeld s .rebuild = false → exec .rebuildSwitch s = .next s

/-- LEARNING_REQUEST takes the head of the queue: an unknown source gets the lowest free way as a learned entry, unless
the set or the learned limit (learn-full) or the port's credit (learn-limit) stops it, with learn-refused; a known one
on its port gets last_seen; on another port a learned entry moves, and a pinned or static one stays and counts,
raising once per second. While learning is stopped no request is served (the model's choice, log 80). CLASSIFIER_SECOND
removes exactly the non-static entries unseen for aging_time, but for one that a lookup or a request of this cycle read.
SHADOW_PASS_START starts the three passes when due; SHADOW_PASS_END writes the signature and pass complete, and on a
difference sets mismatch, raises 41 and stops learning if so set; no entry changes. (R197, R198, R200, R204, R205,
R206, Table 5.8) -/
def Obligations.LearningAgingAndShadowPasses : Prop :=
  (∀ s : State, s.cls.learnQ = [] ∨ s.cls.learnStopped = true → exec .learningRequest s = .next s) ∧
    (∀ (q : LearnReq) (rest : List LearnReq) (s s1 : State) (key : Bytes) (p : Nat), s.cls.learnQ = q :: rest →
      s.cls.learnStopped = false → s1 = setCls s { s.cls with learnQ := rest } → key = toBE 2 q.vid.toNat ++ q.mac → p = q.port.val →
      (findStation s key = none →
        (freeStation s key = none ∨ regN s 0x3402 3 ≤ learnedCount s →
          exec .learningRequest s = .next (raise (bump s1 0x3406 6) 39 p)) ∧
        (∀ u, freeStation s key = some u → learnedCount s < regN s 0x3402 3 →
          (field (reg s 0x3401 (p + 1)) 31 16 ≤ spGet natZero s.cls.learned p →
            exec .learningRequest s = .next (raise (bump s1 0x3406 7) 39 p)) ∧
          (spGet natZero s.cls.learned p < field (reg s 0x3401 (p + 1)) 31 16 →
            ∃ t, exec .learningRequest s = .next t ∧
              stationAt t u = some ⟨key, BitVec.ofNat 32 (p * 2 ^ 16 + 2 ^ 23), s.cls.second⟩ ∧
              (∀ v, v ≠ u → stationAt t v = stationAt s v) ∧ spGet natZero t.cls.learned p = spGet natZero s.cls.learned p + 1 ∧
              t = setCls s { s.cls with learnQ := rest, station := t.cls.station, learned := t.cls.learned }))) ∧
      (∀ u e s2, findStation s key = some u → stationAt s u = some e →
        s2 = setCls s1 { s1.cls with hits := some (s.now, u :: marksOf s.now s.cls.hits) } →
        (field e.result 20 16 = p → exec .learningRequest s =
          .next (setCls s2 { s2.cls with station := spPut s.cls.station u { e with lastSeen := s.cls.second } })) ∧
        (field e.result 20 16 ≠ p →
          (bit e.result 21 = true ∨ bit e.result 22 = true → ∃ t, exec .learningRequest s = .next t ∧
            t.cls.station = s.cls.station ∧ ctr t 0x3406 (0x0A + p) = satAdd64 (ctr s 0x3406 (0x0A + p)) 1 ∧
            t.cls.pinRaised.getLsbD p = true ∧ (s.cls.pinRaised.getLsbD p = true → t.events = s.events) ∧
            (s.cls.pinRaised.getLsbD p = false → ctlOn s = true →
              t.events.pending.getLsbD p = true ∧ (spGet w32Zero t.events.cause p).getLsbD 4 = true)) ∧
          (bit e.result 21 = false → bit e.result 22 = false → bit e.result 23 = true → exec .learningRequest s =
            .next (raise (bump (setCls s2 { s2.cls with
              station := spPut s.cls.station u { e with result := setField e.result 20 16 p, lastSeen := s.cls.second } })
              0x3406 9) 40 p)) ∧
          (bit e.result 21 = false → bit e.result 22 = false → bit e.result 23 = false →
            exec .learningRequest s = .next s2)))) ∧
    (∀ s : State, s.power.bringUp = .done → domainOn s 4 = true → elapsed s s.cls.secondStart 1200000000 = true → ∃ t, exec .classifierSecond s = .next t ∧
      t.cls = { s.cls with second := s.cls.second + 1, secondStart := s.now, learned := [], pinRaised := 0, station := t.cls.station } ∧
      (∀ x, x ∈ t.cls.station ↔ x ∈ s.cls.station ∧
        (x.1 ∈ marksOf s.now s.cls.hits ∨ bit x.2.result 21 = true ∨ (s.cls.second + 1 - x.2.lastSeen).toNat < regN s 0x3402 1)) ∧
      t = { s with cls := t.cls, attest := { s.attest with nativeThisSecond := 0, refusedThisSecond := false } }) ∧
    (∀ s : State, s.power.bringUp ≠ .done ∨ domainOn s 4 = false ∨ elapsed s s.cls.secondStart 1200000000 = false → exec .classifierSecond s = .next s) ∧
    (∀ s : State, exec .shadowPassStart s = .next (if pathOn s = true ∧ bit (reg s 0x3405 7) 0 = true ∧
        elapsed s s.cls.passStart (secCycles (field (reg s 0x3405 7) 31 16)) = true then
      setCls s { s.cls with passRunning := 7, passStart := s.now } else s)) ∧
    ∀ (tb : TableSel) (i : Nat) (s : State), i = tableIndex tb →
      (s.cls.passRunning.getLsbD i = false → exec (.shadowPassEnd tb) s = .next s) ∧
      (s.cls.passRunning.getLsbD i = true → ∃ t, exec (.shadowPassEnd tb) s = .next t ∧
        t.cls.measured = s.cls.measured.set i (signature s tb) ∧ t.cls.passRunning.getLsbD i = false ∧
        t.cls.shadowStatus.getLsbD (3 + i) = true ∧
        t = { s with events := t.events, cls := { s.cls with measured := t.cls.measured, passRunning := t.cls.passRunning
                                                             shadowStatus := t.cls.shadowStatus
                                                             learnStopped := t.cls.learnStopped } } ∧
        (signature s tb = s.cls.expected.getD i [] → t.events = s.events ∧ t.cls.learnStopped = s.cls.learnStopped ∧
          t.cls.shadowStatus.getLsbD i = s.cls.shadowStatus.getLsbD i) ∧
        (signature s tb ≠ s.cls.expected.getD i [] → t.cls.shadowStatus.getLsbD i = true ∧
          t.cls.learnStopped = (s.cls.learnStopped || bit (reg s 0x3405 7) 1) ∧
          (ctlOn s = true → t.events.pending.getLsbD 41 = true)))

/-- On an idle channel: a line in tag or counter area, or in another channel's region, is answered with status 4 and
nothing sent; one outside every region goes to mc_ with data and mask unchanged and is answered with mc_'s data or
status 0; a first failing answer is repeated with a new identifier and, when it then succeeds, counted as transient,
else answered 1 or 7; an empty mask is answered 0 at once and uncounted; a region not initialised answers 4, a write to
a WRITE_LOCKED one 5. A timeout raises its event, withholds the identifier and counts as status 1; an answer not
outstanding is discarded and counted, frees a withheld identifier, or raises the protocol event. Requests on a channel
that is not ready, and answers with the path off, change nothing. (R30, R82, R266, R267, R270, R271, R292, Table 8.5) -/
def Obligations.MemoryRequestsAreDecodedAndPassed : Prop :=
  (∀ (s : State) (k : Chan) (a : Nat),
      ((∃ c ∈ regionsOf s, inMetadata c a = true) → ∃ r, decodeLine s k a = .refused (some r)) ∧
      ((∀ c ∈ regionsOf s, inMetadata c a = false) →
        ((∀ c ∈ regionsOf s, ¬(c.base ≤ a ∧ a < c.base + c.lines)) → decodeLine s k a = .through) ∧
        (∀ c, (regionsOf s).filter (fun x => inSpan a x.base x.lines) = [c] →
          decodeLine s k a = if chanOf c = k then .region c.region else .refused (some c.region)))) ∧
    (∀ (s : State) (k : Chan) (a : BitVec 34) (id : BitVec 12) (d : BitVec 512) (m : W64), mqReady s k = false →
      exec (.memoryRead k a id) s = .next s ∧ exec (.memoryWrite k a id d m) s = .next s) ∧
    (∀ (s : State) (k : Chan) (a : BitVec 34) (id : BitVec 12) (d : BitVec 512) (m : W64) (ch : MemChan) (n : Nat), pathOn s = true →
      memChan s k = ch → ch.ops = [] → ch.mc = [] → ch.withheld = [] → ch.noted = [] → ch.rsp.length < 256 → n = ch.nextSeq →
      (∀ r, decodeLine s k a.toNat = .refused (some r) → (regionDyn s r).old = [] →
        ∀ (c : Instr) (w : Bool), (c = .memoryRead k a id ∧ w = false) ∨ (c = .memoryWrite k a id d m ∧ w = true) →
        exec c s = .next (setMemChan (bump s (0x3C11 + r.val) 8) k { ch with rsp := ch.rsp ++ [⟨id, w, 0, 4⟩], nextSeq := n + 1 })) ∧
      (∀ r, decodeLine s k a.toNat = .region r → (regionDyn s r).old = [] →
        ((regionDyn s r).state = .uninit ∨ (regionDyn s r).state = .initialising →
          exec (.memoryRead k a id) s = .next (setMemChan (bump (bump s (0x3C11 + r.val) 1) (0x3C11 + r.val) 8) k
            { ch with rsp := ch.rsp ++ [⟨id, false, 0, 4⟩], nextSeq := n + 1 }) ∧
          exec (.memoryWrite k a id d m) s = .next (setMemChan (bump (bump s (0x3C11 + r.val) 2) (0x3C11 + r.val) 8) k
            { ch with rsp := ch.rsp ++ [⟨id, true, 0, 4⟩], nextSeq := n + 1 })) ∧
        ((regionDyn s r).state = .writeLocked →
          exec (.memoryWrite k a id d m) s = .next (setMemChan (bump (bump s (0x3C11 + r.val) 2) (0x3C11 + r.val) 8) k
            { ch with rsp := ch.rsp ++ [⟨id, true, 0, 5⟩], nextSeq := n + 1 })) ∧
        ((regionDyn s r).state = .active → exec (.memoryWrite k a id d 0) s =
          .next (setMemChan s k { ch with rsp := ch.rsp ++ [⟨id, true, 0, 0⟩], nextSeq := n + 1 }))) ∧
      (decodeLine s k a.toNat = .through →
        exec (.memoryRead k a id) s = .next (setMemChan s k { ch with
          ops := [{ newOp .read a.toNat id none with seq := n }], mc := [⟨0, n, a.toNat, false, 0, 0, s.now, ch.mcReady⟩], nextSeq := n + 1 }) ∧
        (∀ x, ch.mcReady = true → runAll [.memoryRead k a id, .mcResponse k 0 x 0] s =
          .next (setMemChan s k { ch with rsp := ch.rsp ++ [⟨id, false, x, 0⟩], nextSeq := n + 1 })) ∧
        (∀ x y st, ch.mcReady = true → st ≠ 0 → runAll [.memoryRead k a id, .mcResponse k 0 x st, .mcResponse k 1 y 0] s =
          .next (bump (setMemChan s k { ch with rsp := ch.rsp ++ [⟨id, false, y, 0⟩], nextSeq := n + 1 }) 0x3C00 (3 + k.val))) ∧
        (∀ x y st st2, ch.mcReady = true → st ≠ 0 → st2 ≠ 0 → runAll [.memoryRead k a id, .mcResponse k 0 x st, .mcResponse k 1 y st2] s =
          .next (setMemChan s k { ch with rsp := ch.rsp ++ [⟨id, false, 0, if st2 = 1 then 1 else 7⟩], nextSeq := n + 1 })) ∧
        (m ≠ 0 → exec (.memoryWrite k a id d m) s = .next (setMemChan s k { ch with
            ops := [{ newOp (.write d m) a.toNat id none with seq := n, cipher := some d, children := [(a.toNat, d)] }]
            mc := [⟨0, n, a.toNat, true, d, m, s.now, ch.mcReady⟩], nextSeq := n + 1 }) ∧
          ∀ x, ch.mcReady = true → runAll [.memoryWrite k a id d m, .mcResponse k 0 x 0] s =
            .next (setMemChan s k { ch with rsp := ch.rsp ++ [⟨id, true, 0, 0⟩], nextSeq := n + 1 })) ∧
        exec (.memoryWrite k a id d 0) s = .next (setMemChan s k { ch with rsp := ch.rsp ++ [⟨id, true, 0, 0⟩], nextSeq := n + 1 }))) ∧
    (∀ (s : State) (k : Chan) (id : BitVec 10) (x : BitVec 512) (st : BitVec 2),
      (pathOn s = false → exec (.mcResponse k id x st) s = .next s ∧ exec (.mcTimeout k id) s = .next s) ∧
      (pathOn s = true → (∀ q ∈ (memChan s k).mc, q.id ≠ id.toNat ∨ q.sent = false) →
        exec (.mcTimeout k id) s = .next s ∧
        ∃ u, u = setMemChan s k { memChan s k with withheld := (memChan s k).withheld.filter (fun n => n != id.toNat)
                                                   lateDiscards := (memChan s k).lateDiscards + 1 } ∧
          exec (.mcResponse k id x st) s =
            .next (if id.toNat ∈ (memChan s k).withheld then u else raiseCause u (104 + k.val) 1 k.val))) ∧
    ∀ (s : State) (k : Chan) (ch : MemChan) (op : MemOp) (q : McReq) (a : BitVec 34) (id : BitVec 12) (n c : Nat), pathOn s = true →
      memChan s k = ch → op = { newOp .read a.toNat id none with seq := n } → q = ⟨0, n, a.toNat, false, 0, 0, c, true⟩ →
      ch.ops = [op] → ch.mc = [q] → ch.withheld = [] → ch.noted = [] → ch.rsp.length < 256 →
      (elapsed s c (usCycles (regN s 0x3C00 (k.val + 1))) = false → exec (.mcTimeout k 0) s = .next s) ∧
      (elapsed s c (usCycles (regN s 0x3C00 (k.val + 1))) = true → ∃ t, exec (.mcTimeout k 0) s = .next t ∧
        memChan t k = { ch with ops := [{ op with once := [a.toNat] }], mc := [{ q with id := 1, since := s.now, sent := ch.mcReady }], withheld := [0] } ∧
        (ctlOn s = true → t.events.pending.getLsbD (104 + k.val) = true ∧ (spGet w32Zero t.events.cause (104 + k.val)).getLsbD 0 = true) ∧
        t = { s with mem := { s.mem with chans := t.mem.chans }, events := t.events })

/-- For a line of an ACTIVE full-protection region with usable key, its level-1 node and tag line in the cache, on an idle
channel: a read returns C xor its keystream when C's tag under its counter entry equals the stored tag, and otherwise
reads again; a second mismatch is answered with 2, counted and raised. A full write advances the minor, sends P xor
the new keystream, and puts its tag and the new entry in the cache, dirty. With minor 127 and the major spent it locks
the region and is answered 5. A poisoned line answers 3. RENORMALISATION, with a full write waiting at minor 127, starts
one under its grant, the write unanswered; with nothing waiting it changes nothing. RENORMALISATION_COMMIT of a
renormalisation whose writes are answered puts (M + 1, 0 ... 0) in the node, raises ceiling to it, counts it and gives the
grant back; with none it changes nothing. CACHE_EVICTION drops a clean free line, keeps a pinned one, writes a dirty tag
line back, and writes a dirty node back with its parent's minor advanced and its new tag placed. (R269, R278, R279, R281,
R282, R283, R284, R285, R287, Table 8.6) -/
def Obligations.ProtectedLinesAreVerifiedAndCounted : Prop :=
  (∀ (s : State) (k : Chan) (r : Region) (c : RegionCfg) (a : BitVec 34) (id : BitVec 12) (i n : Nat) (ch : MemChan) (ln lt : CacheLine)
      (key : KeyVal) (M : W64) (e : BitVec 7), pathOn s = true → memChan s k = ch → ch.ops = [] → ch.mc = [] → ch.withheld = [] →
      ch.noted = [] → ch.rsp.length < 256 → n = ch.nextSeq → c = regionCfg s r → c.mode = 3 → decodeLine s k a.toNat = .region r →
      a.toNat = c.base + i → (regionDyn s r).state = .active → (regionDyn s r).old = [] → groupCount s 4 ≠ 0 →
      (poisonedLine s r i = true → exec (.memoryRead k a id) s = .next (setMemChan (bump (bump s (0x3C11 + r.val) 1) (0x3C11 + r.val) 6) k
        { ch with rsp := ch.rsp ++ [⟨id, false, 0, 3⟩], nextSeq := n + 1 })) ∧
      (poisonedLine s r i = false → lineDead s c i = false → keyUsable s (lineKey s c i) = true → key = slotValue s (lineKey s c i) →
        cached s (nodeAddr c 1 (i / 64)) = some ln → cached s (dataTagAddr c i) = some lt → M = nodeMajor ln.data →
        e = nodeMinor ln.data (i % 64) →
        (∃ t, exec (.memoryRead k a id) s = .next t ∧ (memChan t k).rsp = ch.rsp ∧
          (memChan t k).ops = [{ newOp .read a.toNat id (some r) with seq := n }] ∧
          (memChan t k).mc = [⟨0, n, a.toNat, false, 0, 0, s.now, ch.mcReady⟩] ∧ t = { bump s (0x3C11 + r.val) 1 with
            mem := { s.mem with plru := t.mem.plru, chans := t.mem.chans } }) ∧
        (∀ d, dataTagAddr c i ≠ nodeAddr c 1 (i / 64) →
          (e ≠ 127 → ∃ t ct nl tl, exec (.memoryWrite k a id d (BitVec.allOnes 64)) s = .next t ∧
            ct = d ^^^ lineStream key M (e + 1) a.toNat ∧
            (memChan t k).mc = [⟨0, n, a.toNat, true, ct, BitVec.allOnes 64, s.now, ch.mcReady⟩] ∧ (memChan t k).rsp = ch.rsp ∧
            cached t (nodeAddr c 1 (i / 64)) = some nl ∧ nl.dirty = true ∧ nl.data = setMinor ln.data (i % 64) (e + 1) ∧
            cached t (dataTagAddr c i) = some tl ∧ tl.dirty = true ∧
            tl.data = setTag lt.data (i % 8) (dataTag key M (e + 1) a.toNat ct) ∧
            t = { s with ctrs := t.ctrs, mem := { s.mem with cache := t.mem.cache, plru := t.mem.plru, chans := t.mem.chans } } ∧
            (ch.mcReady = true → ∃ u, exec (.mcResponse k 0 0 0) t = .next u ∧ (memChan u k).rsp = ch.rsp ++ [⟨id, true, 0, 0⟩] ∧
              (memChan u k).ops = [])) ∧
          (e = 127 → M = BitVec.allOnes 64 → ∃ t, exec (.memoryWrite k a id d (BitVec.allOnes 64)) s = .next t ∧
            (regionDyn t r).state = .writeLocked ∧ (memChan t k).rsp = ch.rsp ++ [⟨id, true, 0, 5⟩] ∧
            (ctlOn s = true → t.events.pending.getLsbD (96 + r.val) = true))))) ∧
    (∀ (s : State) (k : Chan) (r : Region) (c : RegionCfg) (a : BitVec 34) (id : BitVec 12) (i : Nat) (ch : MemChan) (op : MemOp) (q : McReq)
      (ln lt : CacheLine) (key : KeyVal) (M : W64) (e : BitVec 7) (ct : BitVec 512), pathOn s = true → memChan s k = ch →
      op = { newOp .read a.toNat id (some r) with seq := q.seq, once := op.once } → ch.ops = [op] → ch.mc = [q] → q.id = 0 →
      q.addr = a.toNat → q.write = false → q.sent = true → ch.withheld = [] → ch.noted = [] → ch.rsp.length < 256 →
      c = regionCfg s r → c.mode = 3 → chanOf c = k → a.toNat = c.base + i → (regionDyn s r).old = [] → poisonedLine s r i = false →
      lineDead s c i = false → keyUsable s (lineKey s c i) = true → key = slotValue s (lineKey s c i) →
      cached s (nodeAddr c 1 (i / 64)) = some ln → cached s (dataTagAddr c i) = some lt → M = nodeMajor ln.data →
      e = nodeMinor ln.data (i % 64) →
      ∃ t, exec (.mcResponse k 0 ct 0) s = .next t ∧
        (if dataTag key M e a.toNat ct = tagAt lt.data (i % 8) then
          memChan t k = { ch with ops := [], mc := [], rsp := ch.rsp ++ [⟨id, false, ct ^^^ lineStream key M e a.toNat, 0⟩] } ∧
            t.events = s.events ∧ ctr t (0x3C11 + r.val) 5 =
              (if a.toNat ∈ op.once then satAdd64 (ctr s (0x3C11 + r.val) 5) 1 else ctr s (0x3C11 + r.val) 5)
        else
          (a.toNat ∈ op.once → memChan t k = { ch with ops := [], mc := [], rsp := ch.rsp ++ [⟨id, false, 0, 2⟩] } ∧
            ctr t (0x3C11 + r.val) 3 = satAdd64 (ctr s (0x3C11 + r.val) 3) 1 ∧
            (ctlOn s = true → t.events.pending.getLsbD (96 + r.val) = true ∧
              (spGet w32Zero t.events.cause (96 + r.val)).getLsbD 0 = true)) ∧
          (op.once = [] → (∀ x ∈ s.mem.cache, x.2.addr ≠ a.toNat) → (memChan t k).rsp = ch.rsp ∧
            (memChan t k).ops = [{ op with once := [a.toNat, dataTagAddr c i] }] ∧
            ∃ x ∈ (memChan t k).mc, x.addr = a.toNat ∧ x.write = false))) ∧
    (∀ (s : State) (k : Chan), pathOn s = false ∨ (memChan s k).ops = [] →
      exec (.renormalisation k) s = .next s ∧ exec (.renormalisationCommit k) s = .next s) ∧
    (∀ (s : State) (k : Chan) (r : Region) (c : RegionCfg) (a : BitVec 34) (id : BitVec 12) (d : BitVec 512) (i n : Nat) (ch : MemChan)
      (op : MemOp) (ln : CacheLine), pathOn s = true → memChan s k = ch →
      op = { newOp (.write d (BitVec.allOnes 64)) a.toNat id (some r) with seq := n } → ch.ops = [op] → ch.mc = [] → ch.withheld = [] →
      n < ch.nextSeq → ch.rsp.length < 256 → c = regionCfg s r → c.mode = 3 → chanOf c = k → a.toNat = c.base + i →
      (regionDyn s r).state = .active → (regionDyn s r).old = [] → (regionDyn s r).run = none → poisonedLine s r i = false →
      lineDead s c i = false → keyUsable s (lineKey s c i) = true → cached s (nodeAddr c 1 (i / 64)) = some ln →
      nodeMinor ln.data (i % 64) = 127 → nodeMajor ln.data ≠ BitVec.allOnes 64 →
      ∃ t, exec (.renormalisation k) s = .next t ∧ grantHeld t (.renorm k) = true ∧ (memChan t k).rsp = ch.rsp ∧
        op ∈ (memChan t k).ops ∧
        (∃ o ∈ (memChan t k).ops, o.work = .renorm 1 (i / 64) ∧ o.region = some r ∧ o.addr = a.toNat ∧ o.seq = ch.nextSeq) ∧
        t = { s with grants := t.grants, ctrs := t.ctrs, mem := { s.mem with plru := t.mem.plru, chans := t.mem.chans } }) ∧
    (∀ (s : State) (k : Chan) (r : Region) (c : RegionCfg) (op : MemOp) (level j : Nat) (old : BitVec 512) (l : CacheLine), pathOn s = true →
      c = regionCfg s r → (memChan s k).ops = [op] → op.work = .renorm level j → op.region = some r → op.cipher = some old →
      op.old = none → (∀ w ∈ op.children, w.1 ∈ op.done) → (regionDyn s r).old = [] →
      (level ≤ levelsOf c.lines → cached s (nodeAddr c level j) = some l) →
      ∃ t, exec (.renormalisationCommit k) s = .next t ∧ (memChan t k).ops = [] ∧ grantHeld t (.renorm k) = false ∧
        (level ≤ levelsOf c.lines → ∃ x, cached t (nodeAddr c level j) = some x ∧ x.dirty = true ∧
          x.data = freshNode (nodeMajor old + 1)) ∧
        (levelsOf c.lines < level → (regionDyn t r).root = freshNode (nodeMajor old + 1)) ∧
        (regionDyn t r).ceiling.toNat = Nat.max (regionDyn s r).ceiling.toNat (nodeMajor old + 1).toNat ∧
        ctr t (0x3C11 + r.val) 7 = satAdd64 (ctr s (0x3C11 + r.val) 7) 1 ∧
        t = { s with grants := t.grants, ctrs := t.ctrs, mem := { s.mem with
          cache := t.mem.cache, plru := t.mem.plru, chans := t.mem.chans, regions := t.mem.regions } }) ∧
    ∀ (s : State) (st : Fin 2048) (w : Fin 16) (n : Nat), n = st.val * 16 + w.val →
      (pathOn s = false ∨ spFind s.mem.cache n = none → exec (.cacheEviction st w) s = .next s) ∧
      (∀ l, pathOn s = true → spFind s.mem.cache n = some l → l.dirty = false → exec (.cacheEviction st w) s =
        .next (if pinned s l then s else { s with mem := { s.mem with cache := spDel s.mem.cache n } })) ∧
      (∀ l k c ch, pathOn s = true → spFind s.mem.cache n = some l → cachePlace s l.addr = some n → l.dirty = true →
        (regionDyn s l.region).old = [] → c = regionCfg s l.region → k = chanOf c → memChan s k = ch → ch.ops = [] → ch.mc = [] →
        ch.withheld = [] →
        ((∀ lv j, l.kind ≠ .node lv j) → ∃ t, exec (.cacheEviction st w) s = .next t ∧
          (memChan t k).mc = [⟨0, ch.nextSeq, l.addr, true, l.data, BitVec.allOnes 64, s.now, ch.mcReady⟩] ∧
          cached t l.addr = some { l with dirty := false } ∧ t = { s with mem := { s.mem with
            cache := t.mem.cache, plru := t.mem.plru, chans := t.mem.chans } }) ∧
        (∀ lv j p pl tl e key ta, l.kind = .node lv j → ta = nodeTagAddr c lv j →
          (levelsOf c.lines ≤ lv ∧ p = (regionDyn s l.region).root ∨
            lv < levelsOf c.lines ∧ cached s (nodeAddr c (lv + 1) (j / 64)) = some pl ∧ p = pl.data) →
          nodeDead s c lv j = false → keyUsable s (nodeKey s c lv j) = true → key = slotValue s (nodeKey s c lv j) →
          cached s ta = some tl → ta ≠ l.addr → nodeAddr c (lv + 1) (j / 64) ≠ l.addr → nodeAddr c (lv + 1) (j / 64) ≠ ta →
          nodeMinor p (j % 64) ≠ 127 → e = nodeMinor p (j % 64) + 1 →
          ∃ t, exec (.cacheEviction st w) s = .next t ∧
            (memChan t k).mc = [⟨0, ch.nextSeq, l.addr, true, l.data, BitVec.allOnes 64, s.now, ch.mcReady⟩] ∧
            cached t l.addr = some { l with dirty := false } ∧
            (∃ x, cached t ta = some x ∧ x.dirty = true ∧ x.data = setTag tl.data (j % 8) (nodeTag key (nodeMajor p) e l.addr l.data)) ∧
            (levelsOf c.lines ≤ lv → (regionDyn t l.region).root = setMinor p (j % 64) e) ∧
            (lv < levelsOf c.lines → ∃ x, cached t (nodeAddr c (lv + 1) (j / 64)) = some x ∧ x.dirty = true ∧
              x.data = setMinor p (j % 64) e) ∧
            t = { s with mem := { s.mem with
              cache := t.mem.cache, plru := t.mem.plru, chans := t.mem.chans, regions := t.mem.regions } }))

/-- Enabling: refused while enabled or failing R263 (which leaves no line common to two regions, but a metadata area may
share lines with a region of mode 1 or 2, and a usable key), else mode 3 enters UNINIT and modes 1 and 2 ACTIVE, with
the key bound and marked. Disabling ends a running command with code 6, releases the key and clears the root; the cache
lines go once no accepted request is outstanding, and accepted requests go on under the earlier record; poison stays.
Initialise, rekey and reseed are refused with codes 1, 2, 4, 5 or 7, or record the run and ask for the grant.
Initialisation complete: in mode 3 root and ceiling 0, no poison, ACTIVE; reseed complete: ceiling at least c and the
subtree's poison gone; rekey complete: key takes next_key, the old key is released. Each ends with code 0, its grant
given back and region-op-done; with items left, or no such run, it changes nothing. (R263, R264, R265, R290, R293,
R294, R428, Table 8.4) -/
def Obligations.RegionsAreEnabledAndRunTheirCommands : Prop :=
  (∀ (sec : Bool) (priv : BitVec 2) (r : Region) (v : W64) (s : State) (w : W64), w = setBit v 8 true →
      hostWrites sec priv (regionIdx r) 1 (wordBytes w) s = true →
      (bit (reg s (regionIdx r) 1) 8 = true ∨ enableRegionOk s r w = false →
        exec (.regionEnable (.host sec priv) r v) s = .next (hostRefused sec priv errState s)) ∧
      (bit (reg s (regionIdx r) 1) 8 = false → enableRegionOk s r w = true →
        ∃ t, exec (.regionEnable (.host sec priv) r v) s = .next t ∧ reg t (regionIdx r) 1 = w ∧
          regionDyn t r = { regionDyn s r with state := if field v 1 0 = 3 then .uninit else .active } ∧
          (field v 1 0 ≠ 1 → slotOf t (regionCfg s r).key = { slotOf s (regionCfg s r).key with
            bindings := (slotOf s (regionCfg s r).key).bindings + 1, txu := true }) ∧
          (∀ k, k ≠ (regionCfg s r).key ∨ field v 1 0 = 1 → slotOf t k = slotOf s k) ∧
          t = hostDone { s with regs := t.regs, keys := t.keys, mem := { s.mem with regions := t.mem.regions } })) ∧
    (∀ (s : State) (r : Region) (v : W64) (c : RegionCfg), enableRegionOk s r v = true →
      c = { regionCfg s r with mode := field v 1 0, chan := field v 4 4 } →
      c.mode ≠ 0 ∧ c.lines ≠ 0 ∧ (c.mode ≠ 1 → keyUsable s c.key = true ∧ (slotOf s c.key).txu = false ∧ (slotOf s c.key).bindings < 32767) ∧
      (c.mode = 2 → (slotValue s c.key).extractLsb' 128 128 ≠ (slotValue s c.key).extractLsb' 0 128) ∧
      ∀ o ∈ regionsOf s, o.region ≠ r → ∀ x ∈ dataRange c :: metaRanges c, ∀ y ∈ dataRange o :: metaRanges o,
        c.mode = 3 ∨ y = dataRange o → ∀ a, ¬(x.1 ≤ a ∧ a < x.1 + x.2 ∧ y.1 ≤ a ∧ a < y.1 + y.2)) ∧
    (∀ (sec : Bool) (priv : BitVec 2) (r : Region) (s : State) (w : W64), w = setBit (reg s (regionIdx r) 1) 8 false →
      hostWrites sec priv (regionIdx r) 1 (wordBytes w) s = true →
      (bit (reg s (regionIdx r) 1) 8 = true → ∃ t, exec (.regionDisable (.host sec priv) r) s = .next t ∧
        reg t (regionIdx r) 1 = w ∧ (regionDyn t r).state = .disabled ∧
        ((regionDyn s r).run.isSome = true → grantHeld t (.regionOp r) = false ∧ (regionDyn t r).code = 6) ∧
        ((regionDyn s r).old = [] → (∀ k, ∀ o ∈ (memChan s k).ops, o.region ≠ some r) →
          regionDyn t r = { regionDyn s r with
            state := .disabled, run := none, root := 0, nextBound := false, nextRef := keyNone, rekeyAt := 0, deadBelow := 0
            code := if (regionDyn s r).run.isSome then 6 else (regionDyn s r).code } ∧
          ((regionCfg s r).mode = 3 → ∀ x ∈ t.mem.cache, x.2.region ≠ r) ∧ t.mem.poison = s.mem.poison ∧
          (∀ x ∈ s.mem.cache, x.2.region ≠ r → x ∈ t.mem.cache)) ∧
        (∀ o ∈ (memChan s (chanOf (regionCfg s r))).ops, o.region = some r → o.old = none → isRequest o = true →
          ∃ g, { o with old := some g } ∈ (memChan t (chanOf (regionCfg s r))).ops ∧
            spFind (regionDyn t r).old g = some (oldRegion s r)) ∧
        ((regionCfg s r).mode ≠ 1 → (regionDyn s r).nextBound = false → refInRange (regionCfg s r).key = true →
          (slotOf t (regionCfg s r).key).bindings = (slotOf s (regionCfg s r).key).bindings - 1)) ∧
      (bit (reg s (regionIdx r) 1) 8 = false →
        exec (.regionDisable (.host sec priv) r) s = .next (hostDone (setReg s (regionIdx r) 1 w)))) ∧
    (∀ (sec : Bool) (priv : BitVec 2) (r : Region) (c : Instr) (op v lv nd : Nat) (s : State) (d : RegionDyn) (g : RegionCfg)
      (code : BitVec 4 → Out), d = regionDyn s r → g = regionCfg s r →
      (op = 1 ∧ v = 1 ∧ c = .initialise (.host sec priv) r) ∨ (op = 2 ∧ v = 2 ∧ c = .rekey (.host sec priv) r) ∨
        (op = 3 ∧ lv < 8 ∧ nd < 2 ^ 24 ∧ v = 3 + lv * 8 + nd * 256 ∧
          c = .reseed (.host sec priv) r (BitVec.ofNat 3 lv) (BitVec.ofNat 24 nd)) →
      hostWrites sec priv (regionIdx r) 8 (toBE 4 v) s = true →
      code = (fun n => .next (hostRefused sec priv errState (setRegionDyn s r { d with code := n }))) →
      ∃ open_ : Prop, (open_ ↔ d.state = .active ∨ d.state = .writeLocked) ∧
        (op = 2 → ¬open_ ∨ g.mode < 2 ∨ reseeding s r = true → exec c s = code 1) ∧
        (d.run.isSome = true → (op = 2 → open_ ∧ 2 ≤ g.mode ∧ reseeding s r = false) → exec c s = code 5) ∧
        (d.run = none →
          (op = 1 → ¬((g.mode = 3 ∧ d.state = .uninit) ∨ (g.mode = 2 ∧ d.state = .active)) → exec c s = code 1) ∧
          (op = 2 → open_ → 2 ≤ g.mode → regionKeyOk s g.mode g.nextKey = false → exec c s = code 2) ∧
          (op = 3 → ¬open_ → exec c s = code 1) ∧
          (op = 3 → open_ → nodeExists g lv nd = false → exec c s = code 4) ∧
          (op = 3 → open_ → nodeExists g lv nd = true → d.ceiling = BitVec.allOnes 64 → ∃ t, exec c s = .next t ∧
            t.server.hpResp = 1 ∧ (regionDyn t r).code = 7 ∧ (regionDyn t r).state = .writeLocked ∧ (regionDyn t r).run = none) ∧
          ((op = 1 ∧ ((g.mode = 3 ∧ d.state = .uninit) ∨ (g.mode = 2 ∧ d.state = .active))) ∨
              (op = 2 ∧ open_ ∧ 2 ≤ g.mode ∧ regionKeyOk s g.mode g.nextKey = true) ∨
              (op = 3 ∧ open_ ∧ nodeExists g lv nd = true ∧ d.ceiling ≠ BitVec.allOnes 64) → ∃ t run, exec c s = .next t ∧
            (regionDyn t r).run = some run ∧ run.item = 0 ∧ (regionDyn t r).state = d.state ∧
            run.kind = (if op = 1 then .initialise else if op = 2 then .rekey else .reseed lv nd) ∧
            (op ≠ 2 → t.keys = s.keys) ∧
            (op = 2 → (regionDyn t r).nextBound = true ∧ (regionDyn t r).nextRef = g.nextKey ∧ (regionDyn t r).rekeyAt = 0 ∧ (slotOf t g.nextKey).txu = true ∧
              (d.nextBound = false → (slotOf t g.nextKey).bindings = (slotOf s g.nextKey).bindings + 1)) ∧
            (grantHeld t (.regionOp r) = true ∨ grantQueued t (.regionOp r) = true) ∧
            t = hostDone { s with keys := t.keys, grants := t.grants, mem := { s.mem with regions := t.mem.regions } }))) ∧
    (∀ (s : State) (r : Region) (run : RegionRun) (g : RegionCfg) (c : Instr), g = regionCfg s r → pathOn s = true →
      (regionDyn s r).run = some run → runItems g run ≤ run.item →
      (run.kind = .initialise ∧ c = .initialisationComplete r) ∨ (run.kind = .rekey ∧ c = .rekeyComplete r) ∨
        ((∃ lv nd, run.kind = .reseed lv nd) ∧ c = .reseedComplete r) →
      ∃ t, exec c s = .next t ∧ (regionDyn t r).run = none ∧ (regionDyn t r).code = 0 ∧ grantHeld t (.regionOp r) = false ∧
        (ctlOn s = true → t.events.pending.getLsbD (96 + r.val) = true ∧ (spGet w32Zero t.events.cause (96 + r.val)).getLsbD 3 = true) ∧
        (run.kind = .initialise → g.mode = 3 → (regionDyn t r).state = .active ∧ (regionDyn t r).root = 0 ∧
          (regionDyn t r).ceiling = 0 ∧ (regionDyn t r).poisoned = false ∧ ∀ x ∈ t.mem.poison, x.2.region ≠ r) ∧
        (run.kind = .initialise → g.mode ≠ 3 → (regionDyn t r).state = (regionDyn s r).state ∧ t.mem.poison = s.mem.poison) ∧
        (run.kind = .rekey → reg t (regionIdx r) 6 = (regionDyn s r).nextRef.setWidth 64 ∧ reg t (regionIdx r) 7 = 0x4000 ∧
          (regionDyn t r).nextBound = false ∧
          (refInRange g.key = true → (slotOf t g.key).bindings = (slotOf s g.key).bindings - 1)) ∧
        (∀ lv nd, run.kind = .reseed lv nd → (regionDyn t r).ceiling.toNat = Nat.max (regionDyn s r).ceiling.toNat run.major.toNat ∧
          ∀ x, x ∈ t.mem.poison ↔ x ∈ s.mem.poison ∧ ¬(x.2.region = r ∧ x.2.level ≤ lv ∧ x.2.node / 64 ^ (lv - x.2.level) = nd)) ∧
        t = { s with events := t.events, regs := t.regs, keys := t.keys, grants := t.grants
                     mem := { s.mem with regions := t.mem.regions, poison := t.mem.poison } }) ∧
    ∀ (s : State) (r : Region), (pathOn s = false ∨ (regionDyn s r).run = none ∨
        ∃ run, (regionDyn s r).run = some run ∧ run.item < runItems (regionCfg s r) run) →
      exec (.initialisationComplete r) s = .next s ∧ exec (.reseedComplete r) s = .next s ∧ exec (.rekeyComplete r) s = .next s

/-- Words of one payload of 32 to 2,048 bytes with room join their channel's queue with the time of their sop word; one
with an error is dropped with a protocol error. At a unit boundary of a trunk up and running with its key the chosen
head is numbered N, charged, kept as an entry and put on the line as its packet; PAYLOAD_NUMBERING does the same for
the winning channel only. A due acknowledgement is an ACK flit that carries every change. The replay timer starts a
round at the oldest entry; a round repeats it with r one higher, at r = 15 the trunk goes down with cause 2. The
credit-starved, gap and period conditions act only when due; a trunk that is not up sends nothing. (R74, R75, R316,
R317, R319, R321, R323, R324, R325, R341, R370, R373) -/
def Obligations.TrunkPayloadsAreNumberedAndReplayed : Prop :=
  (∀ (s : State) (t : Trunk) (v : BitVec 2) (dst : W16) (ws : List TfWord) (w : TfWord) (bytes : Bytes), pathOn s = true →
      trunkUp s t = true → (trunk s t).tfOpen = none → (∀ i x, (ws ++ [w])[i]? = some x → x.vc = v ∧ x.dst = dst ∧ (x.sop = true ↔ i = 0)) →
      (∀ x ∈ ws, x.eop = false ∧ x.nbytes = 32 ∧ x.err = false) → w.eop = true → 1 ≤ w.nbytes.toNat → w.nbytes.toNat ≤ 32 →
      bytes = (ws ++ [w]).flatMap (fun x => (wordBytes x.data).take x.nbytes.toNat) → 32 ≤ bytes.length → bytes.length ≤ 2048 →
      queueUnits (trunk s t) v.toNat (32 * (ws.length + 1)) ≤ queueCapacity s t v.toNat →
      ∃ r, exec (.tfTxPayload t (ws ++ [w])) s = .next r ∧ (trunk r t).tfOpen = none ∧ (∀ u, u ≠ t → trunk r u = trunk s u) ∧
        (∀ u, u ≠ v.toNat → txQueue (trunk r t) u = txQueue (trunk s t) u) ∧
        r = { s with trunks := r.trunks, ctrs := r.ctrs, events := r.events } ∧
        (w.err = false → txQueue (trunk r t) v.toNat = txQueue (trunk s t) v.toNat ++ [⟨dst, bytes, localNs s, s.now⟩] ∧
          r.ctrs = s.ctrs ∧ r.events = s.events) ∧
        (w.err = true → txQueue (trunk r t) v.toNat = txQueue (trunk s t) v.toNat ∧
          ctr r (0x4011 + t.val) 19 = satAdd64 (ctr s (0x4011 + t.val) 19) 1 ∧
          (ctlOn s = true → r.events.pending.getLsbD (138 + 16 * t.val) = true))) ∧
    (∀ (s : State) (t : Trunk) (o : TfOpen), (trunk s t).tfOpen = some o →
      (o.lastWord + 4096 < s.now → pathOn s = true → ∃ r, exec (.tfTxGapTimeout t) s = .next r ∧
        trunk r t = { trunk s t with tfOpen := none, tfSkip := true } ∧
        ctr r (0x4011 + t.val) 19 = satAdd64 (ctr s (0x4011 + t.val) 19) 1) ∧
      (s.now ≤ o.lastWord + 4096 → exec (.tfTxGapTimeout t) s = .next s)) ∧
    (∀ (s : State) (t : Trunk) (k : UnitKey) (x : TrunkSt), pathOn s = true → x = trunk s t → x.state = .up → x.changing = [] →
      x.commands = [] → txKey s t = some k → maySwitchTx s t = false →
      (ackIsDue s t = true → x.sender ≠ .keyHalt → x.lineOut.length + 1 < 20 * widthOf x.active →
        ∃ r, exec (.unitBoundary t) s = .next r ∧ (trunk r t).lineOut = x.lineOut ++ [(false, ackFlit s t k)] ∧
          (trunk r t).afc = x.afc + 1 ∧ (trunk r t).ackDue = false ∧ (trunk r t).changes = [] ∧ (trunk r t).lastAck = s.now ∧
          ctr r (0x4011 + t.val) 17 = satAdd64 (ctr s (0x4011 + t.val) 17) 1 ∧
          (trunk r t).entries = x.entries ∧ (trunk r t).n = x.n) ∧
      (∀ v p rest hdr us, ackIsDue s t = false → x.sender = .run → x.n ≤ x.replayPtr → freshWinner s t = some v → v < 4 → txQueue x v = p :: rest →
        x.n + 1 < 2 ^ 64 → hdr = headerBytes (vcBits v) x.txKp 0 (p.payload.length - 1) (BitVec.ofNat 16 x.n) (BitVec.ofNat 16 x.e)
          (nodeId s t) p.dst (vcBits (chooseCvc x).1) (cRetOf x (chooseCvc x).1) →
        us = packetUnits (packetBytes k (unitIv k.salt (ivDir s t true) false 0 x.n) hdr (vcBits v == 3) p.payload) →
        x.lineOut.length + us.length < 20 * widthOf x.active →
        (∀ c, c = .unitBoundary t ∨ c = .payloadNumbering t (vcBits v) → ∃ r, exec c s = .next r ∧ (trunk r t).n = x.n + 1 ∧
          crOf (trunk r t) v = crOf x v - chargeOf p.payload.length ∧ txQueue (trunk r t) v = rest ∧
          (trunk r t).entries = x.entries ++ [{ esn := x.n, vc := vcBits v, dst := p.dst, r := 0, sent := true, settled := true,
                                                charge := chargeOf p.payload.length, payload := p.payload, lost := false }] ∧
          (trunk r t).lineOut = x.lineOut ++ us ∧ (trunk r t).timerStart.isSome = true ∧
          ctr r (0x4011 + t.val) 1 = satAdd64 (ctr s (0x4011 + t.val) 1) 1 ∧
          ctr r (0x4011 + t.val) 2 = satAdd64 (ctr s (0x4011 + t.val) 2) p.payload.length ∧
          (∀ u, u ≠ t → trunk r u = trunk s u) ∧ r = { s with trunks := r.trunks, ctrs := r.ctrs }) ∧
        ∀ u : BitVec 2, u ≠ vcBits v → exec (.payloadNumbering t u) s = .next s) ∧
      (∀ e, ackIsDue s t = false → x.sender = .replay → nextReplay x = some e → e.lost = false → e.sent = true →
        (e.r < 15 → (x.lineOut.length + ceilDiv (e.payload.length + 32) 32) < 20 * widthOf x.active →
          ∃ r, exec (.unitBoundary t) s = .next r ∧ (trunk r t).replayPtr = e.esn + 1 ∧ (trunk r t).n = x.n ∧
            (trunk r t).entries = x.entries.map (fun f => if f.esn = e.esn then { e with r := e.r + 1, settled := true } else f) ∧
            ctr r (0x4011 + t.val) 3 = satAdd64 (ctr s (0x4011 + t.val) 3) 1) ∧
        (e.r = 15 → ∃ r, exec (.unitBoundary t) s = .next r ∧ (trunk r t).state ≠ .up ∧ (trunk r t).lastDown = 2 ∧
          (trunk r t).entries = x.entries ∧ (ctlOn s = true → r.events.pending.getLsbD (241 + t.val) = true)))) ∧
    (∀ (s : State) (t : Trunk), pathOn s = false ∨ (trunk s t).state ≠ .up → exec (.unitBoundary t) s = .next s ∧
      exec (.ackFlitDue t) s = .next s ∧ exec (.replayTimerExpiry t) s = .next s ∧
      ∀ v, exec (.payloadNumbering t v) s = .next s ∧ exec (.trunkCreditStarved t v) s = .next s) ∧
    (∀ (s : State) (t : Trunk), pathOn s = true → (trunk s t).state = .up →
      exec (.ackFlitDue t) s = .next (if ackIsDue s t then setTrunk s t { trunk s t with ackDue := true } else s) ∧
      (∀ c, (trunk s t).timerStart = some c →
        (elapsed s c (usCycles (regN s (0x4001 + t.val) 5)) = false → exec (.replayTimerExpiry t) s = .next s) ∧
        (elapsed s c (usCycles (regN s (0x4001 + t.val) 5)) = true → (trunk s t).sender ≠ .keyHalt →
          ∃ r, exec (.replayTimerExpiry t) s = .next r ∧ (trunk r t).sender = .replay ∧ (trunk r t).replayPtr = (trunk s t).u ∧
            (trunk r t).timerStart = some s.now ∧ (trunk r t).entries = (trunk s t).entries ∧
            ctr r (0x4011 + t.val) 4 = satAdd64 (ctr s (0x4011 + t.val) 4) 1)) ∧
      ∀ (v : BitVec 2) (c : Nat), spGet sinceNone (trunk s t).headSince v.toNat = some c →
        exec (.trunkCreditStarved t v) s = .next (if elapsed s c (usCycles (mgmtN s t 6)) = true ∧
            elapsed s (trunk s t).creditStart (usCycles (mgmtN s t 6)) = false ∧ spGet boolFalse (trunk s t).starved v.toNat = false then
          raise (setTrunk s t { trunk s t with starved := spSet boolFalse (trunk s t).starved v.toNat true }) (136 + 16 * t.val) t.val else s)) ∧
    ∀ (s : State) (t : Trunk) (b : Nat), b = lastBoundaryNs (vc1Period s t) (vc1Phase s t) (localNs s) →
      (pathOn s = false ∨ vc1Period s t = 0 → exec (.trunkPeriodBoundary t) s = .next s) ∧
      (pathOn s = true → vc1Period s t ≠ 0 → (trunk s t).tfOpen = none → (∃ p ∈ txQueue (trunk s t) 1, p.acceptedAt < b) →
        ∃ r, exec (.trunkPeriodBoundary t) s = .next r ∧
          txQueue (trunk r t) 1 = (txQueue (trunk s t) 1).filter (fun p => decide (b ≤ p.acceptedAt)) ∧
          (∀ v, v ≠ 1 → txQueue (trunk r t) v = txQueue (trunk s t) v) ∧
          ctr r (0x4015 + t.val) 11 = satAdd64 (ctr s (0x4015 + t.val) 11)
            ((txQueue (trunk s t) 1).length - (txQueue (trunk r t) 1).length) ∧
          (ctlOn s = true → r.events.pending.getLsbD (137 + 16 * t.val) = true))

/-- A packet built with the expected number, this node and room is accepted with its payload exactly, counted, and E
rises; one behind is a duplicate and one ahead a gap, each asking for an acknowledgement and delivering nothing. A
group of another width changes nothing; an uncorrectable codeword counts, discards to the next packet, and at the
error limit takes the trunk down with cause 1; marker words in half the lanes do so with cause 7 once a group has come,
and change nothing before. tf_rx_ carries the head of the first ready channel word by word and returns its credit with
the last; a stall over 100 us, a silent partner, an error window, a lost lane below min_width (cause 4), a ripe standby
lane and a lane switch each act when due and only then. (R76, R303,
R312, R328, R331, R332, R363, R365, R368, R369, R370, R371) -/
def Obligations.TrunkReceiversAcceptInOrder : Prop :=
  (∀ (s : State) (t : Trunk) (k : UnitKey) (h : PacketHead) (payload hdr f : Bytes), trunkUp s t = true → rxKey s t h.kp = some k →
      32 ≤ payload.length → payload.length ≤ 2048 → h.len = payload.length - 1 → h.vc < 4 → h.r < 16 → h.cvc < 4 →
      hdr = headerBytes (vcBits h.vc) h.kp h.r h.len h.seq h.ack h.src h.dst (vcBits h.cvc) h.ccum →
      (h.seq = BitVec.ofNat 16 (trunk s t).e →
        f = (packetBytes k (unitIv k.salt (ivDir s t false) false h.r (trunk s t).e) hdr (vcBits h.vc == 3) payload) → h.dst = nodeId s t →
        chargeOf payload.length ≤ roomOf s t h.vc →
        rxQueue (trunk (receivePacket s t f) t) h.vc = rxQueue (trunk s t) h.vc ++ [⟨vcBits h.vc, h.src, payload⟩] ∧
          (∀ v, v ≠ h.vc → rxQueue (trunk (receivePacket s t f) t) v = rxQueue (trunk s t) v) ∧
          (trunk (receivePacket s t f) t).e = (trunk s t).e + 1 ∧
          ctr (receivePacket s t f) (0x4011 + t.val) 5 = satAdd64 (ctr s (0x4011 + t.val) 5) 1 ∧
          ctr (receivePacket s t f) (0x4011 + t.val) 6 = satAdd64 (ctr s (0x4011 + t.val) 6) payload.length) ∧
      (∀ iv n, n = (h.seq - BitVec.ofNat 16 (trunk s t).e).toNat → n ≠ 0 → f = packetBytes k iv hdr (vcBits h.vc == 3) payload →
        receivePacket s t f = setTrunk (bump s (0x4011 + t.val) (if 32768 ≤ n then 11 else 12)) t { trunk s t with ackDue := true })) ∧
    (∀ (s : State) (t : Trunk) (lanes : List (List W64)), pathOn s = true → trunkUp s t = true → (trunk s t).changing = [] →
      (lanes.length ≠ widthOf (trunk s t).rxActive → exec (.groupReceived t lanes) s = .next s) ∧
      (lanes.length = widthOf (trunk s t).rxActive → lanes.length ≤ 2 * markedLanes (trunk s t).rxActive lanes →
        ((trunk s t).rxStarted = false → exec (.groupReceived t lanes) s = .next s) ∧
        ((trunk s t).rxStarted = true →
          ∃ r, exec (.groupReceived t lanes) s = .next r ∧ (trunk r t).state ≠ .up ∧ (trunk r t).lastDown = 7))) ∧
    (∀ (s : State) (t : Trunk) (ws : List W64) (c : List (BitVec 10)) (x : TrunkSt), pathOn s = true → x = trunk s t → x.state = .up →
      x.changing = [] → x.deferred = none → widthOf x.rxActive = 1 → markedLanes x.rxActive [ws] = 0 → c = wordSymbols ws →
      (∀ l, l < 8 → (laneOf x l).failed = false ∧ (laneOf x l).degraded = false) →
      ∃ r, exec (.groupReceived t [ws]) s = .next r ∧ (∀ u, u ≠ t → trunk r u = trunk s u) ∧ ((trunk r t).state = .up → (trunk r t).rxStarted = true) ∧
        match rsDecode c with
        | .uncorrectable => ctr r (0x4011 + t.val) 8 = satAdd64 (ctr s (0x4011 + t.val) 8) 1 ∧
          (x.lineErrors + 1 < mgmtN s t 5 → (trunk r t).framing = .resync ∧ (trunk r t).state = .up ∧
            (trunk r t).lineErrors = x.lineErrors + 1 ∧ (trunk r t).rxGroup = x.rxGroup + 1 ∧ (trunk r t).rxQ = x.rxQ) ∧
          (mgmtN s t 5 ≤ x.lineErrors + 1 → (trunk r t).state ≠ .up ∧ (trunk r t).lastDown = 1)
        | .corrected _ _ => ctr r (0x4011 + t.val) 7 = satAdd64 (ctr s (0x4011 + t.val) 7) 1
        | .clean m => (∀ u ∈ unitsOfSyms m, u.1 = false ∧ byteAt u.2 0 = 0) → x.framing = .between →
          (trunk r t).rxGroup = x.rxGroup + 1 ∧ (trunk r t).rxQ = x.rxQ ∧ (trunk r t).e = x.e ∧ (trunk r t).framing = .between ∧
            r.ctrs = s.ctrs ∧ r.events = s.events) ∧
    (∀ (s : State) (t : Trunk) (ready : BitVec 4) (n : Nat) (x : TrunkSt), pathOn s = true → x = trunk s t →
      (∀ p, x.presenting = some p →
        (rxWords p ≤ x.rxSent + n → ∃ r, exec (.tfRxPresent t ready n) s = .next r ∧ (trunk r t).presenting = none ∧
          (trunk r t).lastRx = some p ∧ cRetOf (trunk r t) p.vc.toNat = cRetOf x p.vc.toNat + BitVec.ofNat 12 (chargeOf p.payload.length) ∧
          r = { s with trunks := r.trunks }) ∧
        (x.rxSent + n < rxWords p → exec (.tfRxPresent t ready n) s = .next (if n = 0 ∧ x.rxStall.isSome = true then s else
          setTrunk s t { x with rxSent := x.rxSent + n, rxStall := some s.now, rxStuckRaised := false }))) ∧
      (x.presenting = none → (∀ v, v < 4 → ready.getLsbD v = true → rxQueue x v = []) → exec (.tfRxPresent t ready n) s = .next s) ∧
      (∀ v p rest, x.presenting = none → [1, 2, 0, 3].find? (fun u => ready.getLsbD u && !(rxQueue x u).isEmpty) = some v →
        rxQueue x v = p :: rest → p.vc.toNat = v → ∃ r, exec (.tfRxPresent t ready n) s = .next r ∧ rxQueue (trunk r t) v = rest ∧
          (rxWords p ≤ n → (trunk r t).lastRx = some p ∧ (trunk r t).presenting = none ∧
            cRetOf (trunk r t) v = cRetOf x v + BitVec.ofNat 12 (chargeOf p.payload.length)) ∧
          (n < rxWords p → (trunk r t).presenting = some p ∧ (trunk r t).rxSent = n ∧ cRetOf (trunk r t) v = cRetOf x v ∧
            (n ≠ 0 ∨ x.rxStall = none → (trunk r t).rxStall = some s.now)) ∧ r = { s with trunks := r.trunks })) ∧
    (∀ (s : State) (t : Trunk), exec (.trunkReceiveStuck t) s = .next (match (trunk s t).rxStall with
      | some c => if pathOn s = true ∧ c + 120000 < s.now ∧ (trunk s t).rxStuckRaised = false then
          raise (setTrunk s t { trunk s t with rxStuckRaised := true }) (141 + 16 * t.val) t.val else s
      | none => s)) ∧
    (∀ (s : State) (t : Trunk), pathOn s = true → trunkUp s t = true →
      (elapsed s (trunk s t).creditStart (usCycles (mgmtN s t 6)) = true → ∃ r, exec (.creditTimeout t) s = .next r ∧
        (trunk r t).lastDown = 3 ∧ (trunk r t).state = (if trunkEnabled s t then .grant else .disabled) ∧
        (trunk r t).entries = (trunk s t).entries ∧ (trunk r t).txQ = (trunk s t).txQ ∧
        ctr r (0x4015 + t.val) 1 = satAdd64 (ctr s (0x4015 + t.val) 1) 1 ∧
        (ctlOn s = true → r.events.pending.getLsbD (129 + 16 * t.val) = true)) ∧
      (elapsed s (trunk s t).creditStart (usCycles (mgmtN s t 6)) = false → exec (.creditTimeout t) s = .next s) ∧
      (elapsed s (trunk s t).windowStart (usCycles (mgmtN s t 4)) = true → ∃ r, exec (.errorWindow t) s = .next r ∧
        (trunk r t).windowStart = s.now ∧ (trunk r t).lineErrors = 0 ∧
        (∀ l, l < 8 → laneOf (trunk r t) l = { laneOf (trunk s t) l with corrected := 0, degraded := false }) ∧
        r = { s with trunks := r.trunks }) ∧
      (elapsed s (trunk s t).windowStart (usCycles (mgmtN s t 4)) = false → exec (.errorWindow t) s = .next s)) ∧
    (∀ (s : State) (t : Trunk) (l : Fin 8) (d : LaneDir) (c : Instr), c = .laneUnlock t l ∨ c = .laneFifoFault t l d →
      (pathOn s = false ∨ (trunk s t).state = .disabled ∨ (laneMask s t).getLsbD l.val = false → exec c s = .next s) ∧
      (pathOn s = true → (trunk s t).state ≠ .disabled → (laneMask s t).getLsbD l.val = true → ∃ r, exec c s = .next r ∧
        (c = .laneFifoFault t l d → ctlOn s = true → r.events.pending.getLsbD (135 + 16 * t.val) = true) ∧
        ((trunk s t).state ≠ .up → laneOf (trunk r t) l.val = { laneOf (trunk s t) l.val with
          locked := (laneOf (trunk s t) l.val).locked && decide (c ≠ .laneUnlock t l), aligned := false, found := 0, missed := 0,
          goodSince := none }) ∧
        ((trunk s t).state = .up → (trunk s t).active.getLsbD l.val = true → widthOf (trunk s t).active ≤ minWidth s t →
          (trunk s t).changing = [] → (trunk s t).partnerGood = 0 → (∀ j, j < 8 → (laneOf (trunk s t) j).failed = false) → (trunk s t).lineOut = [] →
          (trunk r t).state ≠ .up ∧ (trunk r t).lastDown = 4))) ∧
    (∀ (s : State) (t : Trunk) (x : TrunkSt), x = trunk s t →
      (∀ l g, pathOn s = true → x.state = .up → x.sender ≠ .keyHalt → (txKey s t).isSome = true → ownChange x = none →
        x.retrainLeft = 0 → widthOf (nextSet x) < widthMax s t →
        (spareLanes s t).head? = some l → (laneOf x l).goodSince = some g → elapsed s g (msCycles 1) = true →
        exec (.standbyLaneAdd t) s = .next (setTrunk s t { x with
          nextCmd := x.nextCmd + 1
          changing := x.changing ++ [{ own := true, mask := setBit (nextSet x) l true, cmdId := x.nextCmd, txAt := x.txGroup + 32,
                                       rxAt := x.rxGroup + 32, txDone := false, rxDone := false, sent := false }]
          commands := x.commands ++ [{ kind := 0x18, mask := setBit (nextSet x) l true, reason := 0, cmdId := x.nextCmd,
                                       gTx := x.txGroup + 32, gRx := x.rxGroup + 32 }] })) ∧
      (pathOn s = false ∨ x.state ≠ .up ∨ (ownChange x).isSome = true ∨ widthMax s t ≤ widthOf (nextSet x) →
        exec (.standbyLaneAdd t) s = .next s)) ∧
    ∀ (s : State) (t : Trunk) (dir : LaneDir) (x : TrunkSt) (c : LaneChange), x = trunk s t → pathOn s = true → x.state = .up →
      x.changing = [c] → x.deferred = none → (∀ j, j < 8 → (laneOf x j).failed = false ∧ (laneOf x j).degraded = false) →
      (dir = .tx → c.txDone = false → c.txAt = x.txGroup → x.lineOut = [] → ∃ r, exec (.laneSwitch t dir) s = .next r ∧
        (trunk r t).rxActive = x.rxActive ∧
        (c.own = true → c.sent = false → (trunk r t).changing = [] ∧ (trunk r t).active = x.active ∧ r.events = s.events) ∧
        (c.own = false ∨ c.sent = true → (trunk r t).active = c.mask ∧
          (c.rxDone = false → (trunk r t).changing = [{ c with txDone := true }] ∧ r.events = s.events) ∧
          (c.rxDone = true → (trunk r t).changing = [] ∧ (ctlOn s = true → r.events.pending.getLsbD (134 + 16 * t.val) = true)))) ∧
      (dir = .rx → c.rxDone = false → c.rxAt = x.rxGroup → ∃ r, exec (.laneSwitch t dir) s = .next r ∧
        (trunk r t).active = x.active ∧
        (c.own = true → c.sent = false → (trunk r t).changing = [] ∧ (trunk r t).rxActive = x.rxActive ∧ r.events = s.events) ∧
        (c.own = false ∨ c.sent = true → (trunk r t).rxActive = c.mask ∧
          (c.txDone = false → (trunk r t).changing = [{ c with rxDone := true }] ∧ r.events = s.events) ∧
          (c.txDone = true → (trunk r t).changing = [] ∧ (ctlOn s = true → r.events.pending.getLsbD (134 + 16 * t.val) = true)))) ∧
      (dir = .tx → c.txAt ≠ x.txGroup → exec (.laneSwitch t dir) s = .next s) ∧
      (dir = .rx → c.rxAt ≠ x.rxGroup → exec (.laneSwitch t dir) s = .next s)

/-- Key writes bind a usable unmarked slot and release the old one, or are refused; the next key is released on command.
Enable in DISABLED asks for the training grant, disable leaves or sends RETRAIN with cause 8, and RETRAIN 6 only when
up. An accepted TS1 in ALIGN proposes the lanes good at both ends and enters EXCHANGE, or fails on this node's own
number; a TS2 that agrees enters CONFIRM with the lower node's lanes, any other goes back to ALIGN; drained queues
start the own TS3; a TS3 under the session key is good, another fails with 4; with both and four blocks sent the
session starts: UP, entries renumbered from 0, N their count, counters 0. train_timeout fails with 1 or 2, a backoff
ends in GRANT. Markers align a lane at the fourth; LSTAT tells the partner's lanes. A flit with a wrong CRC or kind
changes nothing. (R339, R349, R351, R352, R354, R355, R356, R357, R358, R359, R361, R372) -/
def Obligations.TrunksTrainIntoASession : Prop :=
  (∀ (sec : Bool) (priv : BitVec 2) (t : Trunk) (w : TrunkKeySel) (key : W16) (s : State),
      hostWrites sec priv (0x4001 + t.val) (keySub w) (wordBytes key) s = true →
      ∃ (busy : Prop) (old : W16), (busy ↔ (w = .key ∧ (trunk s t).state = .up) ∨
          (w = .nextKey ∧ ((trunk s t).txOnNext = true ∨ (trunk s t).rxOnNext = true))) ∧
        old = (reg s (0x4001 + t.val) (keySub w)).setWidth 16 ∧
        (busy → exec (.trunkKeyWrite (.host sec priv) t w key) s = .next (hostRefused sec priv errState s)) ∧
        (¬busy → key ≠ 0x4000 → refInRange key = false ∨ refRetention key = true →
          exec (.trunkKeyWrite (.host sec priv) t w key) s = .next (hostRefused sec priv errRange s)) ∧
        (¬busy → refInRange key = true → refRetention key = false →
          keyUsable s key = false ∨ (slotOf s key).txu = true ∨ 32767 ≤ (slotOf s key).bindings →
          exec (.trunkKeyWrite (.host sec priv) t w key) s = .next (hostRefused sec priv errState s)) ∧
        (¬busy → refRetention key = false → keyUsable s key = true → (slotOf s key).txu = false → (slotOf s key).bindings < 32767 →
          old ≠ key → ∃ r, exec (.trunkKeyWrite (.host sec priv) t w key) s = .next r ∧
          reg r (0x4001 + t.val) (keySub w) = key.setWidth 64 ∧
          slotOf r key = { slotOf s key with bindings := (slotOf s key).bindings + 1, txu := true } ∧
          (refInRange old = true → (slotOf r old).bindings = (slotOf s old).bindings - 1) ∧
          r = hostDone { s with regs := r.regs, keys := r.keys, trunks := r.trunks })) ∧
    (∀ (sec : Bool) (priv : BitVec 2) (t : Trunk) (s : State), hostWrites sec priv (0x4001 + t.val) 0x0B [1] s = true →
      ((trunk s t).txOnNext = true ∨ (trunk s t).rxOnNext = true →
        exec (.releaseNextKey (.host sec priv) t) s = .next (hostRefused sec priv errState s)) ∧
      ((trunk s t).txOnNext = false → (trunk s t).rxOnNext = false → exec (.releaseNextKey (.host sec priv) t) s =
        .next (hostDone (setReg (releaseKey s (trunkNextKey s t)) (0x4001 + t.val) 3 0x4000)))) ∧
    (∀ (sec : Bool) (priv : BitVec 2) (t : Trunk) (s : State) (on : Bool) (c : Instr) (v : W64),
      c = (if on then .trunkEnable (.host sec priv) t else .trunkDisable (.host sec priv) t) →
      hostWrites sec priv (0x4005 + t.val) 1 (controlBytes s t on) s = true → v = BitVec.ofNat 64 (2 * (laneMask s t).toNat + on.toNat) →
      ((trunk s t).state = .disabled → on = true → ∃ r, exec c s = .next r ∧ (trunk r t).state = .grant ∧
        reg r (0x4005 + t.val) 1 = v ∧ (grantHeld r (.training t) = true ∨ grantQueued r (.training t) = true)) ∧
      ((trunk s t).state = .disabled → on = false → exec c s = .next (hostDone (setReg s (0x4005 + t.val) 1 v))) ∧
      ((trunk s t).state ≠ .disabled → trunkEnabled s t = on → exec c s = .next (hostDone s)) ∧
      ((trunk s t).state ≠ .disabled → trunkEnabled s t = false → on = true →
        exec c s = .next (hostDone (setReg s (0x4005 + t.val) 1 v))) ∧
      ((trunk s t).state ≠ .disabled → trunkEnabled s t = true → on = false → ∃ r, exec c s = .next r ∧ reg r (0x4005 + t.val) 1 = v ∧
        ((trunk s t).state ≠ .up → (trunk r t).state = .disabled ∧ grantHeld r (.training t) = false ∧ (trunk r t).lanes = []) ∧
        ((trunk s t).state = .up → (txKey s t).isSome = true → (trunk s t).retrainLeft = 0 → trunk r t = { trunk s t with
          retrainLeft := 4, retrainCause := 8, commands := (trunk s t).commands ++ [cmdRetrain 8 0] }) ∧
        ((trunk s t).state = .up → txKey s t = none → (trunk r t).state = .disabled ∧ (trunk r t).lastDown = 8))) ∧
    (∀ (sec : Bool) (priv : BitVec 2) (t : Trunk) (s : State), hostWrites sec priv (0x4005 + t.val) 0x0C [1] s = true →
      ((trunk s t).state ≠ .up → exec (.retrain (.host sec priv) t) s = .next (hostRefused sec priv errState s)) ∧
      ((trunk s t).state = .up → (txKey s t).isSome = true → (trunk s t).retrainLeft = 0 → exec (.retrain (.host sec priv) t) s =
        .next (hostDone (setTrunk s t { trunk s t with
          retrainLeft := 4, retrainCause := 6, commands := (trunk s t).commands ++ [cmdRetrain 6 0] })))) ∧
    (∀ (t : Trunk) (f : Bytes) (s : State),
      (pathOn s = false ∨ flitAccepted 0x10 f = false → exec (.ts1Received t f) s = .next s) ∧
      (pathOn s = false ∨ flitAccepted 0x11 f = false ∨ (trunk s t).state ≠ .exchange → exec (.ts2Received t f) s = .next s) ∧
      (pathOn s = false ∨ flitAccepted 0x12 f = false ∨ (trunk s t).state ≠ .confirm → exec (.ts3Received t f) s = .next s) ∧
      (pathOn s = false ∨ flitAccepted 0x13 f = false ∨ (trunk s t).state = .disabled → exec (.lstatReceived t f) s = .next s)) ∧
    (∀ (t : Trunk) (f : Bytes) (s : State) (x : TrunkSt), pathOn s = true → x = trunk s t → flitAccepted 0x10 f = true →
      (x.state = .disabled → exec (.ts1Received t f) s = .next s) ∧
      (x.state = .grant ∨ x.state = .up → exec (.ts1Received t f) s =
        .next (setTrunk s t { x with partnerUnbound := !bit (byteAt f 1) 0 })) ∧
      (x.state = .backoff → ∃ r, exec (.ts1Received t f) s = .next r ∧ (trunk r t).state = .grant ∧
        (grantHeld r (.training t) = true ∨ grantQueued r (.training t) = true)) ∧
      (x.state = .align ∨ x.state = .exchange ∨ x.state = .confirm → beNat (slice f 2 2) = (nodeId s t).toNat →
        ∃ r, exec (.ts1Received t f) s = .next r ∧ (trunk r t).state = .backoff ∧ (trunk r t).lastFail = 3 ∧
          (trunk r t).failures = x.failures + 1 ∧ grantHeld r (.training t) = false) ∧
      (x.state = .exchange ∨ x.state = .confirm → beNat (slice f 2 2) ≠ (nodeId s t).toNat →
        ∃ r, exec (.ts1Received t f) s = .next r ∧ (trunk r t).state = .align ∧ (trunk r t).ts1Partner = none ∧
          (trunk r t).trainStart = s.now) ∧
      (∀ mask : Byte, x.state = .align → beNat (slice f 2 2) ≠ (nodeId s t).toNat →
        mask = lanesMask ((maskLanes (laneMask s t &&& rxGood x &&& byteAt f 4)).take (Nat.min (widthMax s t) (byteAt f 5).toNat)) →
        (refInRange (trunkKey s t) = true → bit (byteAt f 1) 0 = true → drbgServes s = true → x.epoch ≠ 0 →
          minWidth s t ≤ widthOf mask → (byteAt f 6).toNat ≤ widthOf mask → ∃ r, exec (.ts1Received t f) s = .next r ∧
          (trunk r t).state = .exchange ∧ (trunk r t).laneSet = mask ∧ (trunk r t).ts1Partner = some f ∧
          (trunk r t).nonceOwn = BitVec.ofNat 128 (beNat (draw s 16).1) ∧ (trunk r t).ts2Own.length = 32 ∧
          r = { s with trunks := r.trunks, keys := (draw s 16).2.keys }) ∧
        (refInRange (trunkKey s t) = false ∨ bit (byteAt f 1) 0 = false ∨ drbgServes s = false ∨ widthOf mask < minWidth s t ∨
            widthOf mask < (byteAt f 6).toNat →
          exec (.ts1Received t f) s =
            .next (setTrunk s t { x with partnerUnbound := !bit (byteAt f 1) 0, ts1Partner := some f })))) ∧
    (∀ (t : Trunk) (f f1 : Bytes) (s : State) (x : TrunkSt) (low : Bool), pathOn s = true → x = trunk s t → flitAccepted 0x11 f = true →
      x.state = .exchange → x.ts1Partner = some f1 → low = decide ((nodeId s t).toNat < beNat (slice f1 2 2)) →
      (bit (byteAt f 1) 0 = x.useNext → low = true ∨ ((∀ l ∈ maskLanes (byteAt f 4), (laneOf x l).aligned = true) ∧
          minWidth s t ≤ widthOf (byteAt f 4)) → ∃ r, exec (.ts2Received t f) s = .next r ∧ (trunk r t).state = .confirm ∧
        (trunk r t).laneSet = (if low then x.laneSet else byteAt f 4) ∧ (trunk r t).ts2Partner = some f ∧
        (trunk r t).noncePartner = BitVec.ofNat 128 (beNat (slice f 6 16)) ∧ (trunk r t).ts3Good = false ∧
        (keyUsable s (trunkKey s t) = true → (trunk r t).salt = (aes256 (slotValue s (trunkKey s t)) x.nonceOwn ^^^
          aes256 (slotValue s (trunkKey s t)) (trunk r t).noncePartner).extractLsb' 32 96) ∧ r = { s with trunks := r.trunks }) ∧
      (bit (byteAt f 1) 0 ≠ x.useNext ∨ (low = false ∧ ((∃ l ∈ maskLanes (byteAt f 4), (laneOf x l).aligned = false) ∨
          widthOf (byteAt f 4) < minWidth s t)) → ∃ r, exec (.ts2Received t f) s = .next r ∧ (trunk r t).state = .align)) ∧
    (∀ (t : Trunk) (s : State) (x : TrunkSt), pathOn s = true → x = trunk s t → x.state = .confirm →
      (x.ts3Since = none → rxDrained x = true → x.ts3Own ≠ [] → x.pauseSince = none →
        exec (.confirmDrained t) s = .next (setTrunk s t { x with ts3Since := some s.now })) ∧
      (∀ c, x.ts3Since = none → rxDrained x = true → x.pauseSince = some c → exec (.confirmDrained t) s = .next (setTrunk s t { x with
        ts3Since := if x.ts3Own.isEmpty then none else some s.now, trainPaused := x.trainPaused + (s.now - c), pauseSince := none })) ∧
      (x.ts3Since.isSome = true ∨ rxDrained x = false → exec (.confirmDrained t) s = .next s) ∧
      (∀ f k, flitAccepted 0x12 f = true → sessionKey s t = some k → ∃ r, exec (.ts3Received t f) s = .next r ∧
        if slice f 16 8 = ts3Tag s t k false (f.take 16) then r = setTrunk s t { x with ts3Good := true }
        else (trunk r t).state = .backoff ∧ (trunk r t).lastFail = 4) ∧
      (∀ c f1 f2 kept, x.ts3Since = some c → x.ts1Partner = some f1 → x.ts2Partner = some f2 → x.ts3Good = true →
        elapsed s c 1013 = true → kept = x.entries.filter (fun e => !e.lost && (decide ((ts1Of f1).ePrev ≤ e.esn) ||
          !(resumes x (ts1Of f1) && decide (x.u ≤ (ts1Of f1).ePrev) && decide ((ts1Of f1).ePrev ≤ x.n)))) →
        ∃ r, exec (.sessionStart t) s = .next r ∧ (trunk r t).state = .up ∧ (trunk r t).active = x.laneSet ∧
          (trunk r t).rxActive = x.laneSet ∧ (trunk r t).n = kept.length ∧ (trunk r t).u = 0 ∧ (trunk r t).e = 0 ∧
          (trunk r t).entries = kept.mapIdx (fun i e => { e with esn := i, r := 0, sent := false, settled := false }) ∧
          (trunk r t).afc = 0 ∧ (trunk r t).sender = .run ∧ (trunk r t).failures = 0 ∧ (trunk r t).peerNode = BitVec.ofNat 16 (ts1Of f1).node ∧
          grantHeld r (.training t) = false ∧ ctr r (0x4015 + t.val) 4 = satAdd64 (ctr s (0x4015 + t.val) 4) 1 ∧
          (ctlOn s = true → r.events.pending.getLsbD (128 + 16 * t.val) = true)) ∧
      (x.ts3Since = none ∨ x.ts3Good = false → exec (.sessionStart t) s = .next s)) ∧
    (∀ (t : Trunk) (s : State) (x : TrunkSt), pathOn s = true → x = trunk s t →
      (x.state = .align ∨ x.state = .exchange ∨ x.state = .confirm → x.pauseSince = none →
        elapsed s x.trainStart (usCycles (mgmtN s t 7) + x.trainPaused) = true → ∃ r, exec (.trainTimeout t) s = .next r ∧
          (trunk r t).state = .backoff ∧ (trunk r t).failures = x.failures + 1 ∧ (trunk r t).backoffStart = s.now ∧
          (refInRange (trunkKey s t) = false ∨ x.partnerUnbound = true → (trunk r t).lastFail = 2) ∧
          (refInRange (trunkKey s t) = true → x.partnerUnbound = false → (trunk r t).lastFail = 1) ∧
          ctr r (0x4015 + t.val) 3 = satAdd64 (ctr s (0x4015 + t.val) 3) 1 ∧ grantHeld r (.training t) = false) ∧
      (x.pauseSince.isSome = true ∨ elapsed s x.trainStart (usCycles (mgmtN s t 7) + x.trainPaused) = false →
        exec (.trainTimeout t) s = .next s) ∧
      (x.state = .backoff → elapsed s x.backoffStart (usCycles (Nat.min (16 * 2 ^ Nat.min (x.failures - 1) 16) (mgmtN s t 8))) = true →
        ∃ r, exec (.backoffExpiry t) s = .next r ∧ (trunk r t).state = .grant ∧
          (grantHeld r (.training t) = true ∨ grantQueued r (.training t) = true)) ∧
      (x.state ≠ .backoff → exec (.backoffExpiry t) s = .next s) ∧
      (∀ f, flitAccepted 0x13 f = true → x.state ≠ .disabled → ∃ r, exec (.lstatReceived t f) s = .next r ∧
        (trunk r t).partnerGood = byteAt f 4 ∧ (trunk r t).partnerDegraded = byteAt f 5 ∧ r = { s with trunks := r.trunks }) ∧
      (∀ (l : Fin 8), x.state = .align → x.ts1Partner = none → (laneMask s t).getLsbD l.val = true → (laneOf x l.val).aligned = false →
        ∃ r, exec (.laneAlignment t l .own) s = .next r ∧ (laneOf (trunk r t) l.val).locked = true ∧
          (laneOf (trunk r t) l.val).found = Nat.min 4 ((laneOf x l.val).found + 1) ∧
          ((laneOf (trunk r t) l.val).aligned = true ↔ 3 ≤ (laneOf x l.val).found) ∧ r = { s with trunks := r.trunks }))

/-- With automatic selection off: an offset write is refused for a domain that is off or has another source; a sample
below step_threshold sets f to f - ki theta within freq_limit and rho to -kp theta, and the state to ACQUIRING or,
after lock_count good ones, LOCKED with its event; a larger one steps the clock by -theta with f kept, the epoch one
higher, DISCONTINUOUS, counted and raised. Set and step do the same to the given value or by the given amount; clear
sets f and rho to 0 and nothing else. An edge of pps_in less than 50 ns after the last is counted only; a falling one is
no sample; an outlier is counted only; a rising one else is a sample of each domain that has it as source. LOCKED without a sample for sample_timeout
becomes HOLDOVER. The other domain and, when not selected, local time are untouched. (R382, R394, R395, R397, R405,
Table 11.3, Table 11.4) -/
def Obligations.ServoSamplesSteerTheDomain : Prop :=
  (∀ (sec : Bool) (priv : BitVec 2) (i : Fin 2) (v : W64) (s : State) (d : Domain) (F R : Int) (good : Prop), d = domainOf s.time i →
      hostWrites sec priv (0x4401 + i.val) 0x0A (wordBytes v) s = true → bit (reg s 0x4400 1) 0 = false →
      F = clampInt (d.f - (domReg s i 3 : Int) * v.toInt) ((domReg s i 4 : Int) * 2 ^ 40) →
      R = -((domReg s i 2 : Int) * v.toInt * 65536) →
      (good ↔ d.state ≠ .free ∧ d.state ≠ .holdover ∧ v.toInt.natAbs ≤ domReg s i 7 * 65536) →
      (domEnabled s i = false ∨ domSource s i ≠ 0 →
        exec (.offsetWrite (.host sec priv) i v) s = .next (hostRefused sec priv errState s)) ∧
      (domEnabled s i = true → domSource s i = 0 → v.toInt.natAbs < domReg s i 6 * 65536 →
        ∃ r x, exec (.offsetWrite (.host sec priv) i v) s = .next r ∧ x = domainOf r.time i ∧
          domainOf r.time (otherDomain i) = domainOf s.time (otherDomain i) ∧
          x = { d with lastOffset := v, lastSample := s.now, sampled := true, f := F, rho := R, state := x.state, run := x.run,
                       lockedSince := x.lockedSince } ∧
          r = hostDone { s with events := r.events, time := { s.time with d0 := r.time.d0, d1 := r.time.d1 } } ∧
          (¬good → x.state = .acquiring ∧ x.run = 0 ∧ x.lockedSince = d.lockedSince ∧
            (d.state = .locked → ctlOn s = true → r.events.pending.getLsbD (162 + 3 * i.val) = true)) ∧
          (good → x.run = satInc 255 d.run ∧
            (d.state = .locked ∨ satInc 255 d.run < domReg s i 8 → x.state = d.state ∧ x.lockedSince = d.lockedSince ∧
              r.events = s.events) ∧
            (d.state ≠ .locked → domReg s i 8 ≤ satInc 255 d.run → x.state = .locked ∧ x.lockedSince = s.now ∧
              (ctlOn s = true → r.events.pending.getLsbD (161 + 3 * i.val) = true)))) ∧
      (domEnabled s i = true → domSource s i = 0 → domReg s i 6 * 65536 ≤ v.toInt.natAbs →
        ∃ r, exec (.offsetWrite (.host sec priv) i v) s = .next r ∧
          domainOf r.time i = { d with lastOffset := v, lastSample := s.now, sampled := true, rho := 0, state := .discontinuous, run := 0,
                                       clk := clkAdd d.clk (-v.toInt * 2 ^ 32), epoch := d.epoch + 1 } ∧
          domainOf r.time (otherDomain i) = domainOf s.time (otherDomain i) ∧
          ctr r 0x4405 3 = satAdd64 (ctr s 0x4405 3) 1 ∧ (ctlOn s = true → r.events.pending.getLsbD (160 + 3 * i.val) = true) ∧
          (s.time.sel ≠ i → r.time.sel = s.time.sel ∧ r.time.lam = s.time.lam ∧ r.time.epochL = s.time.epochL) ∧
          (s.time.sel = i → (domainOf s.time (otherDomain i)).state ≠ .locked →
            r.time.sel = i ∧ r.time.lam = 0 ∧ r.time.epochL = s.time.epochL + 1 ∧ ctr r 0x4405 1 = satAdd64 (ctr s 0x4405 1) 1))) ∧
    (∀ (sec : Bool) (priv : BitVec 2) (i : Fin 2) (n clk : Nat) (c : Instr) (s : State) (d : Domain), d = domainOf s.time i →
      (n = 1 ∧ c = .domainSet (.host sec priv) i ∧ clk = setTarget d.setValue % clkWrap) ∨
        (n = 2 ∧ c = .domainStep (.host sec priv) i ∧ clk = clkAdd d.clk ((reg s (0x4401 + i.val) 0x10).toInt * 2 ^ 32)) →
      hostWrites sec priv (0x4401 + i.val) 0x0E [BitVec.ofNat 8 n] s = true → bit (reg s 0x4400 1) 0 = false →
      ∃ r, exec c s = .next r ∧ domainOf r.time i = { d with
        clk := clk, epoch := d.epoch + 1, rho := 0, state := .discontinuous, run := 0, setIn := if n = 1 then some s.now else d.setIn } ∧
        domainOf r.time (otherDomain i) = domainOf s.time (otherDomain i) ∧
        (s.time.sel ≠ i → r.time.sel = s.time.sel ∧ r.time.lam = s.time.lam ∧ r.time.epochL = s.time.epochL)) ∧
    (∀ (sec : Bool) (priv : BitVec 2) (i : Fin 2) (s : State), hostWrites sec priv (0x4401 + i.val) 0x0E [3] s = true →
      exec (.clearServo (.host sec priv) i) s = .next (hostDone (putDomain s i { domainOf s.time i with f := 0, rho := 0 }))) ∧
    (∀ (i : Fin 2) (s : State), bit (reg s 0x4400 1) 0 = false → exec (.sampleTimeout i) s =
      .next (if timeOn s = true ∧ (domainOf s.time i).state = .locked ∧
          elapsed s (domainOf s.time i).lastSample (msCycles (domReg s i 9)) = true then
        raise (putDomain s i { domainOf s.time i with state := .holdover, run := 0 }) (162 + 3 * i.val) i.val else s)) ∧
    ∀ (j : Fin 2) (up : Bool) (s s1 : State) (x : PpsIn), x = ppsOf s j.val →
      s1 = setPps s j.val (PpsIn.mk (some s.now) (localStampAt s (-(25 * 2 ^ 47)))) →
      (timeOn s = false → exec (.ppsInEdge ⟨j, up⟩) s = .next s) ∧
      (∀ c, timeOn s = true → x.lastEdge = some c → s.now < c + 60 →
        exec (.ppsInEdge ⟨j, up⟩) s = .next (bump (setPps s j.val { x with lastEdge := some s.now }) (0x4448 + j.val) 3)) ∧
      (timeOn s = true → (∀ c, x.lastEdge = some c → c + 60 ≤ s.now) →
        exec (.ppsInEdge ⟨j, false⟩) s = .next (setPps s j.val { x with lastEdge := some s.now }) ∧
        ((∀ i, domEnabled s i = false ∨ domSource s i ≠ j.val + 1) → exec (.ppsInEdge ⟨j, true⟩) s = .next s1) ∧
        (∀ i d theta, domEnabled s i = true → domSource s i = j.val + 1 → d = domainOf s.time i →
          domEnabled s (otherDomain i) = false ∨ domSource s (otherDomain i) ≠ j.val + 1 →
          theta = edgeTheta (viewOf s i) (regN s (0x4448 + j.val) 1) →
          (isOutlier s d = true → exec (.ppsInEdge ⟨j, true⟩) s = .next (bump s1 0x4405 7)) ∧
          (isOutlier s d = false → bit (reg s 0x4400 1) 0 = false → theta.natAbs < domReg s i 6 * 65536 →
            ∃ r, exec (.ppsInEdge ⟨j, true⟩) s = .next r ∧ (domainOf r.time i).lastEdge = some s.now ∧
              (domainOf r.time i).lastOffset = BitVec.ofInt 64 theta ∧
              (domainOf r.time i).f = clampInt (d.f - (domReg s i 3 : Int) * theta) ((domReg s i 4 : Int) * 2 ^ 40) ∧
              (domainOf r.time i).rho = -((domReg s i 2 : Int) * theta * 65536) ∧ (domainOf r.time i).clk = d.clk ∧
              domainOf r.time (otherDomain i) = domainOf s.time (otherDomain i) ∧
              r = { s1 with events := r.events, time := { s1.time with d0 := r.time.d0, d1 := r.time.d1 } })))

/-- Selecting the selected domain changes nothing; a LOCKED one within step_threshold of local time is selected with L
unchanged and counted; one further away makes L step to it; one not LOCKED is refused, unless forced. Revert does the
same when allowed. Arming refuses an action that does not exist, ends LATE when a single time has passed, else waits
for its time or the first later period boundary; disarming makes it idle. A due entry runs its action and is done or
waits one period more. Pulses end when their width has passed; pps_out rises at its instant and aims at the next
within one second. A selected capture edge is stored with L - 12.5 ns, or lost when full; any within 50 ns is lost. A FIFO read
answers and removes the oldest entry, or zeros when empty. (R393, R396, R397, R399, R400, R401, R404, R405, R406,
Table 11.6) -/
def Obligations.LocalTimeSelectsSchedulesAndCaptures : Prop :=
  (∀ (sec : Bool) (priv : BitVec 2) (i : Fin 2) (s r1 : State) (delta : Int) (forced : Bool) (c : Instr),
      c = (if forced then .forceDomain (.host sec priv) i else .selectDomain (.host sec priv) i) →
      hostWrites sec priv 0x4400 2 [BitVec.ofNat 8 (if forced then 3 + i.val else 1 + i.val)] s = true →
      delta = ((domainOf s.time i).clk : Int) - localTime s.time →
      r1 = raise (bump (setTime s { s.time with before := some (clockView s), sel := i, lam := -delta }) 0x4405 2) 166 i.val →
      (s.time.sel = i → exec c s = .next (hostDone s)) ∧
      (s.time.sel ≠ i → forced = false → (domainOf s.time i).state ≠ .locked →
        exec c s = .next (hostRefused sec priv errState (raise (bump s 0x4405 8) 167 i.val))) ∧
      (s.time.sel ≠ i → forced = true ∨ (domainOf s.time i).state = .locked →
        (delta.natAbs < domReg s i 6 * nsUnit → exec c s = .next (hostDone r1) ∧ localTime r1.time = localTime s.time) ∧
        (domReg s i 6 * nsUnit ≤ delta.natAbs → ∃ r, exec c s = .next r ∧ r.time.sel = i ∧ r.time.lam = 0 ∧
          r.time.epochL = s.time.epochL + 1 ∧ r.time.d0 = s.time.d0 ∧ r.time.d1 = s.time.d1 ∧
          ctr r 0x4405 1 = satAdd64 (ctr s 0x4405 1) 1 ∧ ctr r 0x4405 2 = satAdd64 (ctr s 0x4405 2) 1 ∧
          (ctlOn s = true → r.events.pending.getLsbD 166 = true)))) ∧
    (∀ (s : State) (c : W64) (b : Fin 2), c = reg s 0x4400 1 → b = (if bit c 1 then 1 else 0) →
      (timeOn s = false ∨ bit c 0 = false ∨ bit c 2 = false ∨ (domainOf s.time b).state ≠ .locked ∨ s.time.sel = b ∨
          elapsed s (domainOf s.time b).lockedSince (secCycles (field c 31 16)) = false → exec .revert s = .next s) ∧
      (timeOn s = true → bit c 0 = true → bit c 2 = true → (domainOf s.time b).state = .locked → s.time.sel ≠ b →
        elapsed s (domainOf s.time b).lockedSince (secCycles (field c 31 16)) = true →
        ∃ r, exec .revert s = .next r ∧ r.time.sel = b ∧ ctr r 0x4405 2 = satAdd64 (ctr s 0x4405 2) 1)) ∧
    (∀ (sec : Bool) (priv : BitVec 2) (v : W32) (s : State) (n : Nat) (e : TtEntry) (on : Bool) (w : W32) (c : Instr),
      n = regN s 0x4600 1 → e = { ttEntry s n with control := w } → w = setBit v 0 on →
      c = (if on then .timetableArm (.host sec priv) v else .timetableDisarm (.host sec priv) v) →
      hostWrites sec priv 0x4601 4 (wordBytes w) s = true →
      (6 < field v 4 1 ∨ field v 4 1 = 0 → exec c s = .next (hostRefused sec priv errRange s)) ∧
      (on = false → 1 ≤ field v 4 1 → field v 4 1 ≤ 6 → exec c s = .next (hostDone (setTtEntry s n { e with state := .idle }))) ∧
      (on = true → 1 ≤ field v 4 1 → field v 4 1 ≤ 6 →
        (e.period = 0 → ttTime e * nsUnit ≤ readTime s → exec c s = .next (hostDone
          (raise (bump (setTtEntry s n { e with skipped := false, runs := 0, state := .late }) 0x4602 1) 169 n))) ∧
        (e.period ≠ 0 ∨ readTime s < ttTime e * nsUnit → ∃ due, exec c s = .next (hostDone
            (setTtEntry s n { e with skipped := false, runs := 0, state := .armed, due := due })) ∧
          (e.period = 0 → due = ttTime e) ∧ readTime s < due * nsUnit ∧
          ∃ k, due = ttTime e + k * e.period.toNat ∧ (k ≠ 0 → (due - e.period.toNat) * nsUnit ≤ readTime s)))) ∧
    (∀ (s : State) (n p : Nat) (e e1 : TtEntry) (x : OutPin) (s1 : State), timeOn s = true → s.time.timetable = [(n, e)] →
      (∀ k, k < 8 → (pinOf s (4 + k)).pulseEnd = none) →
      e1 = (if e.period = 0 then { e with state := .done } else { e with
        due := if steppedNow s then ttNext e (localTime s.time + ttAdvance s e) else e.due + e.period.toNat, runs := satInc 65535 e.runs }) →
      s1 = setTtEntry s n e1 → p = 4 + field e.control 7 5 → x = pinOf s p →
      (ttDue s e = false → exec .timetableRun s = .next s) ∧
      (ttDue s e = true →
        (field e.control 4 1 = 1 → exec .timetableRun s = .next (setPin s1 p { x with level := true })) ∧
        (field e.control 4 1 = 2 → exec .timetableRun s = .next (setPin s1 p { x with level := false })) ∧
        (field e.control 4 1 = 3 → exec .timetableRun s = .next (setPin s1 p { x with level := !x.level })) ∧
        (field e.control 4 1 = 4 → exec .timetableRun s =
          .next (setPin s1 p { x with level := true, pulseEnd := some (s.now + widthCycles e.width.toNat) })) ∧
        (field e.control 4 1 = 5 → wakeEnabled s 12 = false → exec .timetableRun s = .next (raise s1 171 n)))) ∧
    (∀ s : State, timeOn s = false ∨ (∀ x ∈ s.time.timetable, x.2.state ≠ .armed) → exec .timetableRun s = .next s) ∧
    (∀ (k : Fin 8) (s : State), exec (.pulseEnd k) s = .next (match (pinOf s (4 + k.val)).pulseEnd with
      | some c => if timeOn s = true ∧ c ≤ s.now then setPin s (4 + k.val) { pinOf s (4 + k.val) with level := false, pulseEnd := none } else s
      | none => s)) ∧
    (∀ (k : Fin 4) (s : State) (x : OutPin), x = pinOf s k.val → timeOn s = true → x.pulseEnd = none →
      (pinEnabled s k.val = false ∨ readTime s < x.nextAt → exec (.ppsOutPulse k) s = .next s) ∧
      (pinEnabled s k.val = true → x.nextAt ≤ readTime s → ∃ at_, exec (.ppsOutPulse k) s = .next (setPin s k.val
          { level := true, pulseEnd := some (s.now + widthCycles (regN s (0x4450 + k.val) 2)), nextAt := at_ }) ∧
        localTime s.time < at_ ∧ at_ ≤ localTime s.time + secUnit)) ∧
    (∀ (j : Fin 8) (rising : Bool) (s : State) (x : Capture), x = capOf s j.val →
      (timeOn s = false → exec (.captureEdge j rising) s = .next s) ∧
      (timeOn s = true → (∃ c, x.lastEdge = some c ∧ s.now < c + 60) ∨ (edgeSelected s j.val rising = true ∧ 16 ≤ x.fifo.length) →
        ∃ r, exec (.captureEdge j rising) s = .next r ∧ capOf r j.val = { x with lastEdge := some s.now } ∧
          ctr r (0x4440 + j.val) 4 = satAdd64 (ctr s (0x4440 + j.val) 4) 1 ∧
          ctr r 0x4405 9 = satAdd64 (ctr s 0x4405 9) 1 ∧ bit (reg r (0x4440 + j.val) 1) 2 = true) ∧
      (timeOn s = true → (∀ c, x.lastEdge = some c → c + 60 ≤ s.now) →
        (edgeSelected s j.val rising = false → exec (.captureEdge j rising) s = .next (setCap s j.val { x with lastEdge := some s.now })) ∧
        (edgeSelected s j.val rising = true → x.fifo.length < 16 → exec (.captureEdge j rising) s =
          .next (setCap s j.val { lastEdge := some s.now, fifo := x.fifo ++ [wordBytes (localStampAt s (-(25 * 2 ^ 47))) ++
            [BitVec.ofNat 8 rising.toNat, 0]] })))) ∧
    ∀ (sec : Bool) (priv : BitVec 2) (s : State),
      (hostReads sec priv 0x4404 2 s = true →
        (s.time.fifo = [] → exec (.timeStampFifoRead (.host sec priv)) s =
          .next (hpAnswer 0 0 (takeSnapshot 0x4404 2 (zeros 32) s))) ∧
        (∀ e rest, s.time.fifo = e :: rest → exec (.timeStampFifoRead (.host sec priv)) s =
          .next (hpAnswer 0 ((hostWords e).getLastD 0) (takeSnapshot 0x4404 2 e (setTime s { s.time with
            fifo := rest, fifoOverflowed := s.time.fifoOverflowed && !rest.isEmpty }))))) ∧
      ∀ j : Fin 8, hostReads sec priv (0x4440 + j.val) 3 s = true →
        ((capOf s j.val).fifo = [] → exec (.captureFifoRead (.host sec priv) j) s =
          .next (hpAnswer 0 0 (takeSnapshot (0x4440 + j.val) 3 (zeros 16) s))) ∧
        (∀ e rest, (capOf s j.val).fifo = e :: rest → exec (.captureFifoRead (.host sec priv) j) s =
          .next (hpAnswer 0 ((hostWords e).getLastD 0) (takeSnapshot (0x4440 + j.val) 3 e
            (setCap s j.val { capOf s j.val with fifo := rest }))))

/-- Outside S0, or with PD_CTL isolated, GRANT_ISSUE does nothing. In S0 the internal head is granted exactly when used_other + step stays 0x04
below the budget; the external head first sets pg_step, then raises pg_req. The rise of pg_grant grants it; a rise
without pg_req is counted and reported only, unless it crosses a withdrawal. A request past grant_wait, or a handshake past pg_timeout, is counted and
ends as Table 12.6 says, while remasking and training keep waiting without a limit. A grant past grant_hold, or
revoked by pg_grant, is counted and given up: batch, signing, rebuild and BIST end with their codes, a remask or
region operation waits again. A fall of pg_grant after pg_req only clears it. What is not due changes nothing. (R100,
R101, R428, R429, R430, R431, R432, Table 12.6) -/
def Obligations.GrantsAreIssuedAndGivenUp : Prop :=
  (∀ (s : State) (q : GrantReq) (rest : List GrantReq),
      (arbiterOpen s = false → exec .grantIssue s = .next s) ∧
      (arbiterOpen s = true → s.grants.internalQ = q :: rest → s.grants.externalQ = [] →
        (regN s 0x4A00 1 < usedOther s.grants + q.step + 4 → exec .grantIssue s = .next s) ∧
        (usedOther s.grants + q.step + 4 ≤ regN s 0x4A00 1 → q.op = .derivation ∨ q.op = .signing ∨ q.op = .remask ∨ q.op = .rebuild →
          q.step = stepOf q.op → exec .grantIssue s = .next (bump (setGrants s { s.grants with
            internalQ := rest, held := s.grants.held ++ [{ op := q.op, step := stepOf q.op, since := s.now, external := false }] }) 0x4A01 1) ∧
          ∀ r, exec .grantIssue s = .next r → usedOther r.grants + 4 ≤ regN s 0x4A00 1)) ∧
      (arbiterOpen s = true → s.grants.internalQ = [] → s.grants.externalQ = [] → exec .grantIssue s = .next s) ∧
      (arbiterOpen s = true → s.grants.internalQ = [] → s.grants.externalQ = q :: rest →
        (s.grants.pgReq = true ∨ s.grants.pgGrant = true → exec .grantIssue s = .next s) ∧
        (s.grants.pgReq = false → s.grants.pgGrant = false → exec .grantIssue s = .next (setGrants s
          (if s.grants.pgStep.toNat = q.step then
            { s.grants with externalQ := rest, handshake := some q, pgReq := true, pgSince := s.now, withdrawn := false }
          else { s.grants with pgStep := BitVec.ofNat 8 q.step }))))) ∧
    (∀ s : State, (s.grants.pgGrant = true ∨ ctlOn s = false → exec .pgGrantRise s = .next s) ∧
      (s.grants.pgGrant = false → ctlOn s = true →
        (s.grants.pgReq = false → s.grants.withdrawn = false → exec .pgGrantRise s =
          .next (raise (bump (setGrants s { s.grants with pgGrant := true, withdrawn := false }) 0x4A01 6) 198 0)) ∧
        (s.grants.pgReq = false → s.grants.withdrawn = true → exec .pgGrantRise s =
          .next (setGrants s { s.grants with pgGrant := true, withdrawn := false })) ∧
        (∀ q, s.grants.pgReq = true → s.grants.handshake = some q →
          (q.op = .derivation ∨ q.op = .signing ∨ q.op = .remask ∨ q.op = .rebuild → exec .pgGrantRise s =
            .next (bump (setGrants s { s.grants with
              pgGrant := true, withdrawn := false, handshake := none, held := s.grants.held ++ [{ op := q.op, step := stepOf q.op, since := s.now, external := true }] }) 0x4A01 1)) ∧
          (q.op = .spareBist → ∃ r, exec .pgGrantRise s = .next r ∧ r.faults.spareBist = .running ∧ grantHeld r .spareBist = true) ∧
          (q.op = .fullBist → ∃ r, exec .pgGrantRise s = .next r ∧ r.faults.bist = .running ∧ grantHeld r .fullBist = true ∧
            ∀ k : W16, k.toNat < 2 ^ 15 → (slotOf r k).state = .empty ∨ (slotOf r k).state = .retired)))) ∧
    (∀ (op : HeavyOp) (s : State),
      ((s.grants.internalQ ++ s.grants.externalQ).find? (fun q => q.op == op) = none → exec (.grantWaitExpiry op) s = .next s) ∧
      (∀ q, (s.grants.internalQ ++ s.grants.externalQ).find? (fun q => q.op == op) = some q →
        (q.noTimeout = true ∨ elapsed s q.since (msCycles (regN s 0x4A00 3)) = false → exec (.grantWaitExpiry op) s = .next s) ∧
        (q.noTimeout = false → elapsed s q.since (msCycles (regN s 0x4A00 3)) = true → ∃ r, exec (.grantWaitExpiry op) s = .next r ∧
          ctr r 0x4A01 2 = satAdd64 (ctr s 0x4A01 2) 1 ∧
          (op = .remask ∨ (∃ t, op = .training t) → grantQueued r op = true ∧
            (∀ x ∈ r.grants.internalQ ++ r.grants.externalQ, x.op = op → x.noTimeout = true)) ∧
          (op = .rebuild → r.cls.rebuild = none ∧ (s.cls.rebuild.isSome = true → r.cls.rebuildCode = 3) ∧ grantQueued r op = false) ∧
          (op = .derivation → r.keys.batch = none ∧ (s.keys.batch.isSome = true → r.keys.deriveCode = 8) ∧ grantQueued r op = false) ∧
          (op = .signing → r.attest.running = none ∧ (s.attest.running.isSome = true → r.attest.code = 6)) ∧
          (∀ g, op = .regionOp g → (regionDyn r g).run = none ∧ ((regionDyn s g).run.isSome = true → (regionDyn r g).code = 3)) ∧
          (op = .fullBist → r.faults.bist = .none ∧ r.faults.bistResult = 3) ∧
          (op = .spareBist → r.faults.spareBist = .none ∧ r.faults.spareLast = 3)))) ∧
    (∀ s : State, (s.grants.handshake = none ∨ s.grants.pgReq = false ∨
          elapsed s s.grants.pgSince (msCycles (regN s 0x4A00 4)) = false → exec .pgTimeout s = .next s) ∧
      (∀ q, s.grants.handshake = some q → s.grants.pgReq = true → elapsed s s.grants.pgSince (msCycles (regN s 0x4A00 4)) = true →
        ∃ r, exec .pgTimeout s = .next r ∧ ctr r 0x4A01 5 = satAdd64 (ctr s 0x4A01 5) 1 ∧
          (ctlOn s = true → r.events.pending.getLsbD 197 = true) ∧ r.grants.pgReq = false ∧ r.grants.handshake = none ∧ r.grants.withdrawn = true ∧
          (q.noTimeout = true ∨ q.op = .remask ∨ (∃ t, q.op = .training t) → r.grants.externalQ = s.grants.externalQ ++ [{ q with noTimeout := true }]) ∧
          (q.noTimeout = false → q.op = .fullBist → r.faults.bist = .none ∧ r.faults.bistResult = 3 ∧
            r.grants.externalQ = s.grants.externalQ.filter (fun x => x.op != .fullBist)))) ∧
    (∀ (s : State) (op : HeavyOp) (c : Instr) (k : Nat) (g : GrantHeld), s.grants.held = [g] → g.op = op →
      (c = .grantHoldExpiry op ∧ k = 3 ∧ elapsed s g.since (msCycles (regN s 0x4A00 2)) = true) ∨
        (c = .grantRevocation ∧ k = 4 ∧ g.external = true ∧ s.grants.pgGrant = true ∧ s.grants.pgReq = true) →
      ∃ r, exec c s = .next r ∧ ctr r 0x4A01 k = satAdd64 (ctr s 0x4A01 k) 1 ∧ (g.external = true → r.grants.pgReq = false) ∧
        (k = 4 → r.grants.pgGrant = false) ∧
        (op = .derivation → grantHeld r op = false ∧ r.keys.batch = none ∧ (s.keys.batch.isSome = true → r.keys.deriveCode = 8)) ∧
        (op = .signing → grantHeld r op = false ∧ r.attest.running = none ∧ (s.attest.running.isSome = true → r.attest.code = 6)) ∧
        (op = .rebuild → grantHeld r op = false ∧ r.cls.rebuild = none ∧ (s.cls.rebuild.isSome = true → r.cls.rebuildCode = 3)) ∧
        (op = .remask ∨ (∃ a, op = .regionOp a) → grantHeld r op = false ∧ grantQueued r op = true ∧
          (∀ x ∈ r.grants.internalQ ++ r.grants.externalQ, x.op = op → x.noTimeout = true) ∧ r.mem = s.mem) ∧
        (op = .spareBist → grantHeld r op = false ∧ r.faults.spareBist = .none ∧ r.faults.spareLast = 3) ∧
        (op = .fullBist → grantHeld r op = false ∧ r.faults.bist = .none ∧ (s.faults.bist = .running → r.faults.bistResult = 4)) ∧
        (∀ t, op = .training t → grantHeld r op = false ∧ ((trunk s t).state = .align → (trunk r t).state = .backoff ∧ (trunk r t).lastFail = 5))) ∧
    ∀ s : State, (∀ op, s.grants.held.find? (fun g => g.op == op) = none → exec (.grantHoldExpiry op) s = .next s) ∧
      (∀ op g, s.grants.held.find? (fun g => g.op == op) = some g → elapsed s g.since (msCycles (regN s 0x4A00 2)) = false →
        exec (.grantHoldExpiry op) s = .next s) ∧
      (s.grants.pgGrant = false ∨ s.grants.pgReq = false → exec .grantRevocation s = .next s) ∧
      (s.grants.pgGrant = true → s.grants.pgReq = false →
        exec .pgGrantFall s = .next (setGrants s { s.grants with pgGrant := false })) ∧
      (s.grants.pgGrant = false ∨ s.grants.pgReq = true → exec .pgGrantFall s = .next s)

/-- Every data word's codeword decodes clean to it, and with any one bit flipped as corrected at that bit. A second
attempt on a row that serves: clean again, or corrected at other bits, is transient, counted and raised; corrected at
new common bits makes them lasting, and at repair_bits a spare row takes the row's place with its event, or without
one the unit is retired; uncorrectable twice is counted, raised and repaired the same way. A parity mismatch whose
second run passes is transient; else the lowest spare joins the group and the pipeline is retired, or with none the
first group with two gives its highest, or keeps one fewer. SCRUB_PERIOD restarts its period when over. Off or retired
units change nothing. (R435, R436, R437, R439, R440, R447, R448, R449, Table 13.1) -/
def Obligations.SramFaultsAreRepairedOrRetired : Prop :=
  (∀ (d : W64), sramDecode (sramEncode d) = .clean d) ∧
    (∀ (d : W64) (i : Nat), i < 79 → sramDecode (flipBits (sramEncode d) [i]) = .corrected d [i]) ∧
    (∀ (a : Fin 46) (row word : Nat) (w1 w2 : BitVec 79) (s : State),
      (arrayOn s a.val = false ∨ (arrayShape a.val).1 ≤ row ∨ (arrayShape a.val).2 ≤ word ∨
          retiredUnit s a.val (unitAt s a.val row) = true → exec (.sramSecondAttempt a row word w1 w2) s = .next s) ∧
      (arrayOn s a.val = true → row < (arrayShape a.val).1 → word < (arrayShape a.val).2 →
        retiredUnit s a.val (unitAt s a.val row) = false → ∃ r, exec (.sramSecondAttempt a row word w1 w2) s = .next r ∧
        match sramDecode w1, sramDecode w2 with
        | .clean _, _ => r = s
        | .corrected _ _, .uncorrectable => r = s
        | .corrected _ _, .clean _ => r = raise (bumpBy s (0x14800 + a.val) 4 1) 229 a.val
        | .uncorrectable, .clean _ => r = raise (bumpBy s (0x14800 + a.val) 4 1) 229 a.val
        | .uncorrectable, .corrected _ _ => r = raise (bumpBy s (0x14800 + a.val) 4 1) 229 a.val
        | .corrected _ b1, .corrected _ b2 =>
          ((∀ i ∈ b2, i ∉ b1) → r = raise (bumpBy s (0x14800 + a.val) 4 1) 229 a.val) ∧
          (∀ i, b1 = [i] → b2 = [i] → lastingMask s a.val row word = 0 →
            ctr r (0x14800 + a.val) 5 = satAdd64 (ctr s (0x14800 + a.val) 5) 1 ∧
            (2 ≤ field (reg s 0x4800 4) 17 16 → (lastingMask r a.val row word).getLsbD i = true ∧
              r.faults.sparesUsed = s.faults.sparesUsed ∧ r.faults.retired = s.faults.retired ∧ r.events = s.events) ∧
            (field (reg s 0x4800 4) 17 16 ≤ 1 → a.val ≠ 45 → 0 < sparesLeft s a.val →
              sparesLeft r a.val = sparesLeft s a.val - 1 ∧ lastingMask r a.val row word = 0 ∧
              (ctlOn s = true → r.events.pending.getLsbD 230 = true)) ∧
            (field (reg s 0x4800 4) 17 16 ≤ 1 → a.val ≠ 45 → sparesLeft s a.val = 0 →
              retiredUnit r a.val (unitAt s a.val row) = true))
        | .uncorrectable, .uncorrectable =>
          ctr r (0x14800 + a.val) 6 = satAdd64 (ctr s (0x14800 + a.val) 6) 1 ∧
          (ctlOn s = true → r.events.pending.getLsbD 231 = true) ∧
          (a.val = 0 ∨ a.val = 2 ∨ (a.val ≠ 45 ∧ sparesLeft s a.val = 0) → retiredUnit r a.val (unitAt s a.val row) = true) ∧
          (a.val ≠ 0 → a.val ≠ 2 → a.val ≠ 45 → 0 < sparesLeft s a.val →
            sparesLeft r a.val = sparesLeft s a.val - 1 ∧ (ctlOn s = true → r.events.pending.getLsbD 230 = true)))) ∧
    (∀ s : State, exec .scrubPeriod s = .next (if ctlOn s = true ∧ elapsed s s.faults.scrubStart (secCycles (field (reg s 0x4800 4) 15 0)) = true
      then setFaults s { s.faults with scrubStart := s.now } else s)) ∧
    ∀ (k : Fin 24) (s : State) (g : Nat), g = pipeGroup s k.val → s.faults.pipelines.length = 24 →
      (domainOn s 5 = false ∨ 5 ≤ g → ∀ b, exec (.pipelineParityMismatch k b) s = .next s) ∧
      (domainOn s 5 = true → g < 5 → exec (.pipelineParityMismatch k true) s = .next (raise s 234 k.val) ∧
        (∀ sp rest, pipesOf s 5 = sp :: rest → ∃ r, exec (.pipelineParityMismatch k false) s = .next r ∧
          pipeGroup r sp = g ∧ pipeGroup r k.val = 6 ∧ (∀ j, j ≠ sp → j ≠ k.val → pipeGroup r j = pipeGroup s j) ∧
          groupCount r g = groupCount s g ∧ (ctlOn s = true → r.events.pending.getLsbD 235 = true)) ∧
        (pipesOf s 5 = [] → ∃ r, exec (.pipelineParityMismatch k false) s = .next r ∧ pipeGroup r k.val = 6 ∧
          ((∃ x, x ∈ [4, 2, 3, 0, 1] ∧ 1 < groupCount s x) → (ctlOn s = true → r.events.pending.getLsbD 236 = true) ∧
            (∀ x, ([4, 2, 3, 0, 1].find? (fun y => decide (1 < groupCount s y))) = some x →
              (x = g → groupCount r g = groupCount s g - 1) ∧
              (x ≠ g → groupCount r g = groupCount s g ∧ groupCount r x = groupCount s x - 1))) ∧
          ((∀ x ∈ [4, 2, 3, 0, 1], groupCount s x ≤ 1) → groupCount r g = groupCount s g - 1 ∧
            (groupCount s g = 1 → ctlOn s = true → r.events.pending.getLsbD 237 = true))))

/-- FULL_BIST is refused unless the engine is at rest as Table 14.11 asks; else it waits and asks for its grant.
BIST_COMPLETE of a running test without a finding leaves result 0, no pending source, empty tables, queues and
contexts but retired ones, and its grant given back; with a failing row a spare takes its place and the result is 1,
or without a spare the unit is retired and the result is 2. SPARE_PIPELINE_BIST and its period make a run due, which
asks for its grant in S0, unless one is under way; a run that finds a failing spare retires it and reads 2, else 1,
and is counted. Each second in S0 is counted once. (R441, R452, R480, Table 14.11) -/
def Obligations.SelfTestsRunUnderTheirGrants : Prop :=
  (∀ (sec : Bool) (priv : BitVec 2) (s : State), hostWrites sec priv 0x5F00 1 [1] s = true →
      (bistAllowed s = false → exec (.fullBist (.host sec priv)) s = .next (hostRefused sec priv errState s)) ∧
      (bistAllowed s = true → ∃ r, exec (.fullBist (.host sec priv)) s = .next r ∧ r.faults = { s.faults with bist := .waiting } ∧
        (grantHeld r .fullBist = true ∨ grantQueued r .fullBist = true) ∧ r = hostDone { s with faults := r.faults, grants := r.grants } ∧
        s.power.present = 0 ∧ (∀ p, p < 32 → portRate s p = 0) ∧ (∀ t, (trunk s t).state = .disabled) ∧
        s.keys.staging = none ∧ s.keys.batch = none ∧ ∀ g, (regionDyn s g).state = .disabled)) ∧
    (∀ (rows : List (Fin 46 × Nat)) (pipes : List (Fin 24)) (s : State), s.faults.bist ≠ .running →
      exec (.bistComplete rows pipes) s = .next s) ∧
    (∀ (s : State) (rows : List (Fin 46 × Nat)) (a : Fin 46) (row : Nat), s.faults.bist = .running →
      rows = [] ∨ (rows = [(a, row)] ∧ a.val ≠ 1 ∧ a.val ≠ 45 ∧ row < (arrayShape a.val).1) →
      ∃ r, exec (.bistComplete rows []) s = .next r ∧ r.faults.bist = .none ∧ grantHeld r .fullBist = false ∧ r.cls.stream = [] ∧
        r.cls.station = [] ∧ r.cls.pfxEntries = [] ∧ r.cls.stash = [] ∧ r.mem.cache = [] ∧ r.cls.learnQ = [] ∧ r.time.fifo = [] ∧
        r.server.rxQueue = [] ∧ (trunk r 0).entries = [] ∧ (trunk r 1).entries = [] ∧
        (rows = [] → r.faults = { s.faults with bist := .none, bistResult := 0, bistArrays := 0 } ∧ r.events.pending = 0 ∧
          ∀ c, s.faults.retired = [] → context r c = Context.default) ∧
        (rows = [(a, row)] → r.faults.bistArrays = 1 ∧ (ctlOn s = true → r.events.pending.getLsbD 245 = true) ∧
          (0 < sparesLeft s a.val → r.faults.bistResult = 1 ∧ sparesLeft r a.val = sparesLeft s a.val - 1 ∧
            r.faults.retired = s.faults.retired) ∧
          (sparesLeft s a.val = 0 → spFind s.faults.retired (a.val * 2 ^ 32 + unitAt s a.val row) = none →
            r.faults.bistResult = 2 ∧ retiredUnit r a.val (unitAt s a.val row) = true))) ∧
    (∀ (s : State) (u : State) (c : Instr), (∃ sec priv, c = .sparePipelineBist (.host sec priv) ∧
          hostWrites sec priv 0x5F00 1 [2] s = true ∧ u = hostDone s) ∨
        (c = .spareBistDue ∧ s.power.bringUp = .done ∧ elapsed s s.faults.spareStart (secCycles (regN s 0x5F00 3)) = true ∧ u = s) →
      (s.faults.spareDue = true ∨ s.faults.spareBist ≠ .none → exec c s = .next u) ∧
      (s.faults.spareDue = false → s.faults.spareBist = .none →
        (inS0 s = false → exec c s = .next (setFaults u { s.faults with spareDue := true })) ∧
        (inS0 s = true → ∃ r, exec c s = .next r ∧ r.faults = { s.faults with spareBist := .waiting } ∧
          (grantHeld r .spareBist = true ∨ grantQueued r .spareBist = true) ∧
          r = { u with faults := r.faults, grants := r.grants }))) ∧
    (∀ s : State, s.power.bringUp ≠ .done ∨ elapsed s s.faults.spareStart (secCycles (regN s 0x5F00 3)) = false →
      exec .spareBistDue s = .next s) ∧
    (∀ (failed : List (Fin 24)) (s : State),
      (s.faults.spareBist ≠ .running → exec (.spareBistRun failed) s = .next s) ∧
      (s.faults.spareBist = .running → (∀ k ∈ failed, pipeGroup s k.val ≠ 5) → ∃ r, exec (.spareBistRun failed) s = .next r ∧
        r.faults = { s.faults with spareBist := .none, spareLast := 1, spareRuns := satInc 0xFFFF s.faults.spareRuns } ∧
        grantHeld r .spareBist = false ∧ r = { s with faults := r.faults, grants := r.grants }) ∧
      (∀ k, s.faults.spareBist = .running → failed = [k] → pipeGroup s k.val = 5 → ∃ r, exec (.spareBistRun failed) s = .next r ∧
        r.faults.spareBist = .none ∧ r.faults.spareLast = 2 ∧ pipeGroup r k.val = 6 ∧
        (∀ j, j ≠ k.val → pipeGroup r j = pipeGroup s j) ∧ grantHeld r .spareBist = false ∧
        (ctlOn s = true → r.events.pending.getLsbD 245 = true))) ∧
    ∀ s : State, exec .s0Second s = .next (if inS0 s = true ∧ elapsed s s.faults.s0Start 1200000000 = true then
      bump (setFaults s { s.faults with s0Start := s.faults.s0Start + 1200000000 }) 0x4803 1 else s)
end

