-- ==== Sys2Proof/Laws/Sparse.lean ====
section
/-! SUPPORT. Sparse stores: a read after a write, and the canonical form that every write keeps. -/

namespace Sys2Proof.Machine

variable {α : Type}

@[simp] theorem spFind_spPut_same (m : Sparse α) (n : Nat) (v : α) : spFind (spPut m n v) n = some v := by
  induction m with
  | nil => simp [spPut, spFind]
  | cons e m ih =>
    obtain ⟨k, w⟩ := e
    simp only [spPut]
    split
    · simp [spFind]
    · split
      · simp [spFind]
      · have h : k ≠ n := by omega
        simp [spFind, h, ih]

theorem spFind_spPut_ne (m : Sparse α) (n j : Nat) (v : α) (h : j ≠ n) : spFind (spPut m n v) j = spFind m j := by
  induction m with
  | nil => simp [spPut, spFind, h.symm]
  | cons e m ih =>
    obtain ⟨k, w⟩ := e
    simp only [spPut]
    split
    · simp [spFind, h.symm]
    · split
      · rename_i h1; subst h1; simp [spFind, h.symm]
      · simp [spFind, ih]

theorem spFind_spDel_ne (m : Sparse α) (n j : Nat) (h : j ≠ n) : spFind (spDel m n) j = spFind m j := by
  induction m with
  | nil => rfl
  | cons e m ih =>
    obtain ⟨k, w⟩ := e
    simp only [spDel]
    split
    · rename_i h1; subst h1; simp [spFind, h.symm, ih]
    · simp [spFind, ih]

@[simp] theorem spFind_spDel_same (m : Sparse α) (n : Nat) : spFind (spDel m n) n = none := by
  induction m with
  | nil => rfl
  | cons e m ih =>
    obtain ⟨k, w⟩ := e
    simp only [spDel]
    split
    · exact ih
    · rename_i h1; simp [spFind, h1, ih]

/-- The entries of a store after a write are the written one or old ones. -/
theorem mem_spPut (m : Sparse α) (n : Nat) (v : α) (e : Nat × α) (h : e ∈ spPut m n v) : e = (n, v) ∨ e ∈ m := by
  induction m with
  | nil => simpa [spPut] using h
  | cons x m ih =>
    obtain ⟨k, w⟩ := x
    simp only [spPut] at h
    split at h
    · simpa using h
    · split at h
      · simp only [List.mem_cons] at h ⊢; tauto
      · simp only [List.mem_cons] at h ⊢
        rcases h with h | h
        · exact .inr (.inl h)
        · rcases ih h with h | h
          · exact .inl h
          · exact .inr (.inr h)

theorem mem_spDel (m : Sparse α) (n : Nat) (e : Nat × α) (h : e ∈ spDel m n) : e ∈ m := by
  induction m with
  | nil => simp [spDel] at h
  | cons x m ih =>
    obtain ⟨k, w⟩ := x
    simp only [spDel] at h
    split at h
    · exact List.mem_cons_of_mem _ (ih h)
    · simp only [List.mem_cons] at h ⊢
      exact h.imp id ih

theorem rising_spPut (m : Sparse α) (n : Nat) (v : α) (h : m.Pairwise (fun a b => a.1 < b.1)) :
    (spPut m n v).Pairwise (fun a b => a.1 < b.1) := by
  induction m with
  | nil => simp [spPut]
  | cons x m ih =>
    obtain ⟨k, w⟩ := x
    have hc := List.pairwise_cons.1 h
    simp only [spPut]
    split
    · rename_i h1
      refine List.pairwise_cons.2 ⟨fun e he => ?_, h⟩
      simp only [List.mem_cons] at he
      rcases he with rfl | he
      · exact h1
      · exact h1.trans (hc.1 e he)
    · split
      · rename_i h1; subst h1; exact List.pairwise_cons.2 ⟨hc.1, hc.2⟩
      · refine List.pairwise_cons.2 ⟨fun e he => ?_, ih hc.2⟩
        rcases mem_spPut m n v e he with rfl | he
        · simp only; omega
        · exact hc.1 e he

theorem rising_spDel (m : Sparse α) (n : Nat) (h : m.Pairwise (fun a b => a.1 < b.1)) :
    (spDel m n).Pairwise (fun a b => a.1 < b.1) := by
  induction m with
  | nil => simp [spDel]
  | cons x m ih =>
    obtain ⟨k, w⟩ := x
    have hc := List.pairwise_cons.1 h
    simp only [spDel]
    split
    · exact ih hc.2
    · exact List.pairwise_cons.2 ⟨fun e he => hc.1 e (mem_spDel m n e he), ih hc.2⟩

variable [DecidableEq α]

theorem spWf_iff (d : Nat → α) (m : Sparse α) :
    spWf d m = true ↔ m.Pairwise (fun a b => a.1 < b.1) ∧ ∀ e ∈ m, e.2 ≠ d e.1 := by
  simp [spWf]

@[simp] theorem spWf_nil (d : Nat → α) : spWf d ([] : Sparse α) = true := rfl

/-- Every write keeps the canonical form. -/
theorem spWf_spSet (d : Nat → α) (m : Sparse α) (n : Nat) (v : α) (h : spWf d m = true) : spWf d (spSet d m n v) = true := by
  rw [spWf_iff] at *
  unfold spSet
  split
  · exact ⟨rising_spDel m n h.1, fun e he => h.2 e (mem_spDel m n e he)⟩
  · rename_i hv
    refine ⟨rising_spPut m n v h.1, fun e he => ?_⟩
    rcases mem_spPut m n v e he with rfl | he
    · exact hv
    · exact h.2 e he

theorem spGet_spSet_ne (d : Nat → α) (m : Sparse α) (n j : Nat) (v : α) (h : j ≠ n) : spGet d (spSet d m n v) j = spGet d m j := by
  unfold spGet spSet
  split
  · rw [spFind_spDel_ne m n j h]
  · rw [spFind_spPut_ne m n j v h]

/-- A read of the number that was written. -/
@[simp] theorem spGet_spSet_same (d : Nat → α) (m : Sparse α) (n : Nat) (v : α) : spGet d (spSet d m n v) n = v := by
  unfold spGet spSet
  split
  · rename_i hv; simp [hv]
  · simp

end Sys2Proof.Machine
end

