-- ==== Sys2Proof/Laws/State.lean ====
section
/-! SUPPORT. What each update of the state leaves of every field. -/

namespace Sys2Proof.Machine

/-! ### setAttest -/

@[simp] theorem setAttest_pending (s : State) (x : Attest) : (setAttest s x).pending = s.pending := rfl
@[simp] theorem setAttest_now (s : State) (x : Attest) : (setAttest s x).now = s.now := rfl
@[simp] theorem setAttest_regs (s : State) (x : Attest) : (setAttest s x).regs = s.regs := rfl
@[simp] theorem setAttest_ctrs (s : State) (x : Attest) : (setAttest s x).ctrs = s.ctrs := rfl
@[simp] theorem setAttest_events (s : State) (x : Attest) : (setAttest s x).events = s.events := rfl
@[simp] theorem setAttest_power (s : State) (x : Attest) : (setAttest s x).power = s.power := rfl
@[simp] theorem setAttest_grants (s : State) (x : Attest) : (setAttest s x).grants = s.grants := rfl
@[simp] theorem setAttest_server (s : State) (x : Attest) : (setAttest s x).server = s.server := rfl
@[simp] theorem setAttest_keys (s : State) (x : Attest) : (setAttest s x).keys = s.keys := rfl
@[simp] theorem setAttest_attest (s : State) (x : Attest) : (setAttest s x).attest = x := rfl
@[simp] theorem setAttest_contexts (s : State) (x : Attest) : (setAttest s x).contexts = s.contexts := rfl
@[simp] theorem setAttest_shims (s : State) (x : Attest) : (setAttest s x).shims = s.shims := rfl
@[simp] theorem setAttest_cls (s : State) (x : Attest) : (setAttest s x).cls = s.cls := rfl
@[simp] theorem setAttest_mem (s : State) (x : Attest) : (setAttest s x).mem = s.mem := rfl
@[simp] theorem setAttest_trunks (s : State) (x : Attest) : (setAttest s x).trunks = s.trunks := rfl
@[simp] theorem setAttest_time (s : State) (x : Attest) : (setAttest s x).time = s.time := rfl
@[simp] theorem setAttest_faults (s : State) (x : Attest) : (setAttest s x).faults = s.faults := rfl

/-! ### setCls -/

@[simp] theorem setCls_pending (s : State) (x : Classifier) : (setCls s x).pending = s.pending := rfl
@[simp] theorem setCls_now (s : State) (x : Classifier) : (setCls s x).now = s.now := rfl
@[simp] theorem setCls_regs (s : State) (x : Classifier) : (setCls s x).regs = s.regs := rfl
@[simp] theorem setCls_ctrs (s : State) (x : Classifier) : (setCls s x).ctrs = s.ctrs := rfl
@[simp] theorem setCls_events (s : State) (x : Classifier) : (setCls s x).events = s.events := rfl
@[simp] theorem setCls_power (s : State) (x : Classifier) : (setCls s x).power = s.power := rfl
@[simp] theorem setCls_grants (s : State) (x : Classifier) : (setCls s x).grants = s.grants := rfl
@[simp] theorem setCls_server (s : State) (x : Classifier) : (setCls s x).server = s.server := rfl
@[simp] theorem setCls_keys (s : State) (x : Classifier) : (setCls s x).keys = s.keys := rfl
@[simp] theorem setCls_attest (s : State) (x : Classifier) : (setCls s x).attest = s.attest := rfl
@[simp] theorem setCls_contexts (s : State) (x : Classifier) : (setCls s x).contexts = s.contexts := rfl
@[simp] theorem setCls_shims (s : State) (x : Classifier) : (setCls s x).shims = s.shims := rfl
@[simp] theorem setCls_cls (s : State) (x : Classifier) : (setCls s x).cls = x := rfl
@[simp] theorem setCls_mem (s : State) (x : Classifier) : (setCls s x).mem = s.mem := rfl
@[simp] theorem setCls_trunks (s : State) (x : Classifier) : (setCls s x).trunks = s.trunks := rfl
@[simp] theorem setCls_time (s : State) (x : Classifier) : (setCls s x).time = s.time := rfl
@[simp] theorem setCls_faults (s : State) (x : Classifier) : (setCls s x).faults = s.faults := rfl

/-! ### setServer -/

@[simp] theorem setServer_pending (s : State) (x : Server) : (setServer s x).pending = s.pending := rfl
@[simp] theorem setServer_now (s : State) (x : Server) : (setServer s x).now = s.now := rfl
@[simp] theorem setServer_regs (s : State) (x : Server) : (setServer s x).regs = s.regs := rfl
@[simp] theorem setServer_ctrs (s : State) (x : Server) : (setServer s x).ctrs = s.ctrs := rfl
@[simp] theorem setServer_events (s : State) (x : Server) : (setServer s x).events = s.events := rfl
@[simp] theorem setServer_power (s : State) (x : Server) : (setServer s x).power = s.power := rfl
@[simp] theorem setServer_grants (s : State) (x : Server) : (setServer s x).grants = s.grants := rfl
@[simp] theorem setServer_server (s : State) (x : Server) : (setServer s x).server = x := rfl
@[simp] theorem setServer_keys (s : State) (x : Server) : (setServer s x).keys = s.keys := rfl
@[simp] theorem setServer_attest (s : State) (x : Server) : (setServer s x).attest = s.attest := rfl
@[simp] theorem setServer_contexts (s : State) (x : Server) : (setServer s x).contexts = s.contexts := rfl
@[simp] theorem setServer_shims (s : State) (x : Server) : (setServer s x).shims = s.shims := rfl
@[simp] theorem setServer_cls (s : State) (x : Server) : (setServer s x).cls = s.cls := rfl
@[simp] theorem setServer_mem (s : State) (x : Server) : (setServer s x).mem = s.mem := rfl
@[simp] theorem setServer_trunks (s : State) (x : Server) : (setServer s x).trunks = s.trunks := rfl
@[simp] theorem setServer_time (s : State) (x : Server) : (setServer s x).time = s.time := rfl
@[simp] theorem setServer_faults (s : State) (x : Server) : (setServer s x).faults = s.faults := rfl

/-! ### setFaults -/

@[simp] theorem setFaults_pending (s : State) (x : Faults) : (setFaults s x).pending = s.pending := rfl
@[simp] theorem setFaults_now (s : State) (x : Faults) : (setFaults s x).now = s.now := rfl
@[simp] theorem setFaults_regs (s : State) (x : Faults) : (setFaults s x).regs = s.regs := rfl
@[simp] theorem setFaults_ctrs (s : State) (x : Faults) : (setFaults s x).ctrs = s.ctrs := rfl
@[simp] theorem setFaults_events (s : State) (x : Faults) : (setFaults s x).events = s.events := rfl
@[simp] theorem setFaults_power (s : State) (x : Faults) : (setFaults s x).power = s.power := rfl
@[simp] theorem setFaults_grants (s : State) (x : Faults) : (setFaults s x).grants = s.grants := rfl
@[simp] theorem setFaults_server (s : State) (x : Faults) : (setFaults s x).server = s.server := rfl
@[simp] theorem setFaults_keys (s : State) (x : Faults) : (setFaults s x).keys = s.keys := rfl
@[simp] theorem setFaults_attest (s : State) (x : Faults) : (setFaults s x).attest = s.attest := rfl
@[simp] theorem setFaults_contexts (s : State) (x : Faults) : (setFaults s x).contexts = s.contexts := rfl
@[simp] theorem setFaults_shims (s : State) (x : Faults) : (setFaults s x).shims = s.shims := rfl
@[simp] theorem setFaults_cls (s : State) (x : Faults) : (setFaults s x).cls = s.cls := rfl
@[simp] theorem setFaults_mem (s : State) (x : Faults) : (setFaults s x).mem = s.mem := rfl
@[simp] theorem setFaults_trunks (s : State) (x : Faults) : (setFaults s x).trunks = s.trunks := rfl
@[simp] theorem setFaults_time (s : State) (x : Faults) : (setFaults s x).time = s.time := rfl
@[simp] theorem setFaults_faults (s : State) (x : Faults) : (setFaults s x).faults = x := rfl

/-! ### setGrants -/

@[simp] theorem setGrants_pending (s : State) (x : Grants) : (setGrants s x).pending = s.pending := rfl
@[simp] theorem setGrants_now (s : State) (x : Grants) : (setGrants s x).now = s.now := rfl
@[simp] theorem setGrants_regs (s : State) (x : Grants) : (setGrants s x).regs = s.regs := rfl
@[simp] theorem setGrants_ctrs (s : State) (x : Grants) : (setGrants s x).ctrs = s.ctrs := rfl
@[simp] theorem setGrants_events (s : State) (x : Grants) : (setGrants s x).events = s.events := rfl
@[simp] theorem setGrants_power (s : State) (x : Grants) : (setGrants s x).power = s.power := rfl
@[simp] theorem setGrants_grants (s : State) (x : Grants) : (setGrants s x).grants = x := rfl
@[simp] theorem setGrants_server (s : State) (x : Grants) : (setGrants s x).server = s.server := rfl
@[simp] theorem setGrants_keys (s : State) (x : Grants) : (setGrants s x).keys = s.keys := rfl
@[simp] theorem setGrants_attest (s : State) (x : Grants) : (setGrants s x).attest = s.attest := rfl
@[simp] theorem setGrants_contexts (s : State) (x : Grants) : (setGrants s x).contexts = s.contexts := rfl
@[simp] theorem setGrants_shims (s : State) (x : Grants) : (setGrants s x).shims = s.shims := rfl
@[simp] theorem setGrants_cls (s : State) (x : Grants) : (setGrants s x).cls = s.cls := rfl
@[simp] theorem setGrants_mem (s : State) (x : Grants) : (setGrants s x).mem = s.mem := rfl
@[simp] theorem setGrants_trunks (s : State) (x : Grants) : (setGrants s x).trunks = s.trunks := rfl
@[simp] theorem setGrants_time (s : State) (x : Grants) : (setGrants s x).time = s.time := rfl
@[simp] theorem setGrants_faults (s : State) (x : Grants) : (setGrants s x).faults = s.faults := rfl

/-! ### setKeys -/

@[simp] theorem setKeys_pending (s : State) (x : Keys) : (setKeys s x).pending = s.pending := rfl
@[simp] theorem setKeys_now (s : State) (x : Keys) : (setKeys s x).now = s.now := rfl
@[simp] theorem setKeys_regs (s : State) (x : Keys) : (setKeys s x).regs = s.regs := rfl
@[simp] theorem setKeys_ctrs (s : State) (x : Keys) : (setKeys s x).ctrs = s.ctrs := rfl
@[simp] theorem setKeys_events (s : State) (x : Keys) : (setKeys s x).events = s.events := rfl
@[simp] theorem setKeys_power (s : State) (x : Keys) : (setKeys s x).power = s.power := rfl
@[simp] theorem setKeys_grants (s : State) (x : Keys) : (setKeys s x).grants = s.grants := rfl
@[simp] theorem setKeys_server (s : State) (x : Keys) : (setKeys s x).server = s.server := rfl
@[simp] theorem setKeys_keys (s : State) (x : Keys) : (setKeys s x).keys = x := rfl
@[simp] theorem setKeys_attest (s : State) (x : Keys) : (setKeys s x).attest = s.attest := rfl
@[simp] theorem setKeys_contexts (s : State) (x : Keys) : (setKeys s x).contexts = s.contexts := rfl
@[simp] theorem setKeys_shims (s : State) (x : Keys) : (setKeys s x).shims = s.shims := rfl
@[simp] theorem setKeys_cls (s : State) (x : Keys) : (setKeys s x).cls = s.cls := rfl
@[simp] theorem setKeys_mem (s : State) (x : Keys) : (setKeys s x).mem = s.mem := rfl
@[simp] theorem setKeys_trunks (s : State) (x : Keys) : (setKeys s x).trunks = s.trunks := rfl
@[simp] theorem setKeys_time (s : State) (x : Keys) : (setKeys s x).time = s.time := rfl
@[simp] theorem setKeys_faults (s : State) (x : Keys) : (setKeys s x).faults = s.faults := rfl

/-! ### setPower -/

@[simp] theorem setPower_pending (s : State) (x : Power) : (setPower s x).pending = s.pending := rfl
@[simp] theorem setPower_now (s : State) (x : Power) : (setPower s x).now = s.now := rfl
@[simp] theorem setPower_regs (s : State) (x : Power) : (setPower s x).regs = s.regs := rfl
@[simp] theorem setPower_ctrs (s : State) (x : Power) : (setPower s x).ctrs = s.ctrs := rfl
@[simp] theorem setPower_events (s : State) (x : Power) : (setPower s x).events = s.events := rfl
@[simp] theorem setPower_power (s : State) (x : Power) : (setPower s x).power = x := rfl
@[simp] theorem setPower_grants (s : State) (x : Power) : (setPower s x).grants = s.grants := rfl
@[simp] theorem setPower_server (s : State) (x : Power) : (setPower s x).server = s.server := rfl
@[simp] theorem setPower_keys (s : State) (x : Power) : (setPower s x).keys = s.keys := rfl
@[simp] theorem setPower_attest (s : State) (x : Power) : (setPower s x).attest = s.attest := rfl
@[simp] theorem setPower_contexts (s : State) (x : Power) : (setPower s x).contexts = s.contexts := rfl
@[simp] theorem setPower_shims (s : State) (x : Power) : (setPower s x).shims = s.shims := rfl
@[simp] theorem setPower_cls (s : State) (x : Power) : (setPower s x).cls = s.cls := rfl
@[simp] theorem setPower_mem (s : State) (x : Power) : (setPower s x).mem = s.mem := rfl
@[simp] theorem setPower_trunks (s : State) (x : Power) : (setPower s x).trunks = s.trunks := rfl
@[simp] theorem setPower_time (s : State) (x : Power) : (setPower s x).time = s.time := rfl
@[simp] theorem setPower_faults (s : State) (x : Power) : (setPower s x).faults = s.faults := rfl

/-! ### setTime -/

@[simp] theorem setTime_pending (s : State) (x : TimeUnit) : (setTime s x).pending = s.pending := rfl
@[simp] theorem setTime_now (s : State) (x : TimeUnit) : (setTime s x).now = s.now := rfl
@[simp] theorem setTime_regs (s : State) (x : TimeUnit) : (setTime s x).regs = s.regs := rfl
@[simp] theorem setTime_ctrs (s : State) (x : TimeUnit) : (setTime s x).ctrs = s.ctrs := rfl
@[simp] theorem setTime_events (s : State) (x : TimeUnit) : (setTime s x).events = s.events := rfl
@[simp] theorem setTime_power (s : State) (x : TimeUnit) : (setTime s x).power = s.power := rfl
@[simp] theorem setTime_grants (s : State) (x : TimeUnit) : (setTime s x).grants = s.grants := rfl
@[simp] theorem setTime_server (s : State) (x : TimeUnit) : (setTime s x).server = s.server := rfl
@[simp] theorem setTime_keys (s : State) (x : TimeUnit) : (setTime s x).keys = s.keys := rfl
@[simp] theorem setTime_attest (s : State) (x : TimeUnit) : (setTime s x).attest = s.attest := rfl
@[simp] theorem setTime_contexts (s : State) (x : TimeUnit) : (setTime s x).contexts = s.contexts := rfl
@[simp] theorem setTime_shims (s : State) (x : TimeUnit) : (setTime s x).shims = s.shims := rfl
@[simp] theorem setTime_cls (s : State) (x : TimeUnit) : (setTime s x).cls = s.cls := rfl
@[simp] theorem setTime_mem (s : State) (x : TimeUnit) : (setTime s x).mem = s.mem := rfl
@[simp] theorem setTime_trunks (s : State) (x : TimeUnit) : (setTime s x).trunks = s.trunks := rfl
@[simp] theorem setTime_time (s : State) (x : TimeUnit) : (setTime s x).time = x := rfl
@[simp] theorem setTime_faults (s : State) (x : TimeUnit) : (setTime s x).faults = s.faults := rfl

/-! ### setSession -/

@[simp] theorem setSession_pending (s : State) (x : Session) : (setSession s x).pending = s.pending := rfl
@[simp] theorem setSession_now (s : State) (x : Session) : (setSession s x).now = s.now := rfl
@[simp] theorem setSession_regs (s : State) (x : Session) : (setSession s x).regs = s.regs := rfl
@[simp] theorem setSession_ctrs (s : State) (x : Session) : (setSession s x).ctrs = s.ctrs := rfl
@[simp] theorem setSession_events (s : State) (x : Session) : (setSession s x).events = s.events := rfl
@[simp] theorem setSession_power (s : State) (x : Session) : (setSession s x).power = s.power := rfl
@[simp] theorem setSession_grants (s : State) (x : Session) : (setSession s x).grants = s.grants := rfl
@[simp] theorem setSession_server (s : State) (x : Session) : (setSession s x).server = { s.server with session := x } := rfl
@[simp] theorem setSession_keys (s : State) (x : Session) : (setSession s x).keys = s.keys := rfl
@[simp] theorem setSession_attest (s : State) (x : Session) : (setSession s x).attest = s.attest := rfl
@[simp] theorem setSession_contexts (s : State) (x : Session) : (setSession s x).contexts = s.contexts := rfl
@[simp] theorem setSession_shims (s : State) (x : Session) : (setSession s x).shims = s.shims := rfl
@[simp] theorem setSession_cls (s : State) (x : Session) : (setSession s x).cls = s.cls := rfl
@[simp] theorem setSession_mem (s : State) (x : Session) : (setSession s x).mem = s.mem := rfl
@[simp] theorem setSession_trunks (s : State) (x : Session) : (setSession s x).trunks = s.trunks := rfl
@[simp] theorem setSession_time (s : State) (x : Session) : (setSession s x).time = s.time := rfl
@[simp] theorem setSession_faults (s : State) (x : Session) : (setSession s x).faults = s.faults := rfl

/-! ### setReg -/

@[simp] theorem setReg_pending (s : State) (i j : Nat) (v : W64) : (setReg s i j v).pending = s.pending := rfl
@[simp] theorem setReg_now (s : State) (i j : Nat) (v : W64) : (setReg s i j v).now = s.now := rfl
@[simp] theorem setReg_regs (s : State) (i j : Nat) (v : W64) : (setReg s i j v).regs = spSet regDefault s.regs (oa i j) v := rfl
@[simp] theorem setReg_ctrs (s : State) (i j : Nat) (v : W64) : (setReg s i j v).ctrs = s.ctrs := rfl
@[simp] theorem setReg_events (s : State) (i j : Nat) (v : W64) : (setReg s i j v).events = s.events := rfl
@[simp] theorem setReg_power (s : State) (i j : Nat) (v : W64) : (setReg s i j v).power = s.power := rfl
@[simp] theorem setReg_grants (s : State) (i j : Nat) (v : W64) : (setReg s i j v).grants = s.grants := rfl
@[simp] theorem setReg_server (s : State) (i j : Nat) (v : W64) : (setReg s i j v).server = s.server := rfl
@[simp] theorem setReg_keys (s : State) (i j : Nat) (v : W64) : (setReg s i j v).keys = s.keys := rfl
@[simp] theorem setReg_attest (s : State) (i j : Nat) (v : W64) : (setReg s i j v).attest = s.attest := rfl
@[simp] theorem setReg_contexts (s : State) (i j : Nat) (v : W64) : (setReg s i j v).contexts = s.contexts := rfl
@[simp] theorem setReg_shims (s : State) (i j : Nat) (v : W64) : (setReg s i j v).shims = s.shims := rfl
@[simp] theorem setReg_cls (s : State) (i j : Nat) (v : W64) : (setReg s i j v).cls = s.cls := rfl
@[simp] theorem setReg_mem (s : State) (i j : Nat) (v : W64) : (setReg s i j v).mem = s.mem := rfl
@[simp] theorem setReg_trunks (s : State) (i j : Nat) (v : W64) : (setReg s i j v).trunks = s.trunks := rfl
@[simp] theorem setReg_time (s : State) (i j : Nat) (v : W64) : (setReg s i j v).time = s.time := rfl
@[simp] theorem setReg_faults (s : State) (i j : Nat) (v : W64) : (setReg s i j v).faults = s.faults := rfl

/-! ### bumpBy -/

@[simp] theorem bumpBy_pending (s : State) (i j n : Nat) : (bumpBy s i j n).pending = s.pending := rfl
@[simp] theorem bumpBy_now (s : State) (i j n : Nat) : (bumpBy s i j n).now = s.now := rfl
@[simp] theorem bumpBy_regs (s : State) (i j n : Nat) : (bumpBy s i j n).regs = s.regs := rfl
@[simp] theorem bumpBy_ctrs (s : State) (i j n : Nat) : (bumpBy s i j n).ctrs = spSet ctrDefault s.ctrs (oa i j) (satAdd64 (ctr s i j) n) := rfl
@[simp] theorem bumpBy_events (s : State) (i j n : Nat) : (bumpBy s i j n).events = s.events := rfl
@[simp] theorem bumpBy_power (s : State) (i j n : Nat) : (bumpBy s i j n).power = s.power := rfl
@[simp] theorem bumpBy_grants (s : State) (i j n : Nat) : (bumpBy s i j n).grants = s.grants := rfl
@[simp] theorem bumpBy_server (s : State) (i j n : Nat) : (bumpBy s i j n).server = s.server := rfl
@[simp] theorem bumpBy_keys (s : State) (i j n : Nat) : (bumpBy s i j n).keys = s.keys := rfl
@[simp] theorem bumpBy_attest (s : State) (i j n : Nat) : (bumpBy s i j n).attest = s.attest := rfl
@[simp] theorem bumpBy_contexts (s : State) (i j n : Nat) : (bumpBy s i j n).contexts = s.contexts := rfl
@[simp] theorem bumpBy_shims (s : State) (i j n : Nat) : (bumpBy s i j n).shims = s.shims := rfl
@[simp] theorem bumpBy_cls (s : State) (i j n : Nat) : (bumpBy s i j n).cls = s.cls := rfl
@[simp] theorem bumpBy_mem (s : State) (i j n : Nat) : (bumpBy s i j n).mem = s.mem := rfl
@[simp] theorem bumpBy_trunks (s : State) (i j n : Nat) : (bumpBy s i j n).trunks = s.trunks := rfl
@[simp] theorem bumpBy_time (s : State) (i j n : Nat) : (bumpBy s i j n).time = s.time := rfl
@[simp] theorem bumpBy_faults (s : State) (i j n : Nat) : (bumpBy s i j n).faults = s.faults := rfl

/-! ### bump -/

@[simp] theorem bump_pending (s : State) (i j : Nat) : (bump s i j).pending = s.pending := rfl
@[simp] theorem bump_now (s : State) (i j : Nat) : (bump s i j).now = s.now := rfl
@[simp] theorem bump_regs (s : State) (i j : Nat) : (bump s i j).regs = s.regs := rfl
@[simp] theorem bump_ctrs (s : State) (i j : Nat) : (bump s i j).ctrs = spSet ctrDefault s.ctrs (oa i j) (satAdd64 (ctr s i j) 1) := rfl
@[simp] theorem bump_events (s : State) (i j : Nat) : (bump s i j).events = s.events := rfl
@[simp] theorem bump_power (s : State) (i j : Nat) : (bump s i j).power = s.power := rfl
@[simp] theorem bump_grants (s : State) (i j : Nat) : (bump s i j).grants = s.grants := rfl
@[simp] theorem bump_server (s : State) (i j : Nat) : (bump s i j).server = s.server := rfl
@[simp] theorem bump_keys (s : State) (i j : Nat) : (bump s i j).keys = s.keys := rfl
@[simp] theorem bump_attest (s : State) (i j : Nat) : (bump s i j).attest = s.attest := rfl
@[simp] theorem bump_contexts (s : State) (i j : Nat) : (bump s i j).contexts = s.contexts := rfl
@[simp] theorem bump_shims (s : State) (i j : Nat) : (bump s i j).shims = s.shims := rfl
@[simp] theorem bump_cls (s : State) (i j : Nat) : (bump s i j).cls = s.cls := rfl
@[simp] theorem bump_mem (s : State) (i j : Nat) : (bump s i j).mem = s.mem := rfl
@[simp] theorem bump_trunks (s : State) (i j : Nat) : (bump s i j).trunks = s.trunks := rfl
@[simp] theorem bump_time (s : State) (i j : Nat) : (bump s i j).time = s.time := rfl
@[simp] theorem bump_faults (s : State) (i j : Nat) : (bump s i j).faults = s.faults := rfl

/-! ### setContext -/

@[simp] theorem setContext_pending (s : State) (c : Nat) (x : Context) : (setContext s c x).pending = s.pending := rfl
@[simp] theorem setContext_now (s : State) (c : Nat) (x : Context) : (setContext s c x).now = s.now := rfl
@[simp] theorem setContext_regs (s : State) (c : Nat) (x : Context) : (setContext s c x).regs = s.regs := rfl
@[simp] theorem setContext_ctrs (s : State) (c : Nat) (x : Context) : (setContext s c x).ctrs = s.ctrs := rfl
@[simp] theorem setContext_events (s : State) (c : Nat) (x : Context) : (setContext s c x).events = s.events := rfl
@[simp] theorem setContext_power (s : State) (c : Nat) (x : Context) : (setContext s c x).power = s.power := rfl
@[simp] theorem setContext_grants (s : State) (c : Nat) (x : Context) : (setContext s c x).grants = s.grants := rfl
@[simp] theorem setContext_server (s : State) (c : Nat) (x : Context) : (setContext s c x).server = s.server := rfl
@[simp] theorem setContext_keys (s : State) (c : Nat) (x : Context) : (setContext s c x).keys = s.keys := rfl
@[simp] theorem setContext_attest (s : State) (c : Nat) (x : Context) : (setContext s c x).attest = s.attest := rfl
@[simp] theorem setContext_contexts (s : State) (c : Nat) (x : Context) : (setContext s c x).contexts = spSet ctxDefault s.contexts c x := rfl
@[simp] theorem setContext_shims (s : State) (c : Nat) (x : Context) : (setContext s c x).shims = s.shims := rfl
@[simp] theorem setContext_cls (s : State) (c : Nat) (x : Context) : (setContext s c x).cls = s.cls := rfl
@[simp] theorem setContext_mem (s : State) (c : Nat) (x : Context) : (setContext s c x).mem = s.mem := rfl
@[simp] theorem setContext_trunks (s : State) (c : Nat) (x : Context) : (setContext s c x).trunks = s.trunks := rfl
@[simp] theorem setContext_time (s : State) (c : Nat) (x : Context) : (setContext s c x).time = s.time := rfl
@[simp] theorem setContext_faults (s : State) (c : Nat) (x : Context) : (setContext s c x).faults = s.faults := rfl

/-! ### setShim -/

@[simp] theorem setShim_pending (s : State) (n : Nat) (x : Shim) : (setShim s n x).pending = s.pending := rfl
@[simp] theorem setShim_now (s : State) (n : Nat) (x : Shim) : (setShim s n x).now = s.now := rfl
@[simp] theorem setShim_regs (s : State) (n : Nat) (x : Shim) : (setShim s n x).regs = s.regs := rfl
@[simp] theorem setShim_ctrs (s : State) (n : Nat) (x : Shim) : (setShim s n x).ctrs = s.ctrs := rfl
@[simp] theorem setShim_events (s : State) (n : Nat) (x : Shim) : (setShim s n x).events = s.events := rfl
@[simp] theorem setShim_power (s : State) (n : Nat) (x : Shim) : (setShim s n x).power = s.power := rfl
@[simp] theorem setShim_grants (s : State) (n : Nat) (x : Shim) : (setShim s n x).grants = s.grants := rfl
@[simp] theorem setShim_server (s : State) (n : Nat) (x : Shim) : (setShim s n x).server = s.server := rfl
@[simp] theorem setShim_keys (s : State) (n : Nat) (x : Shim) : (setShim s n x).keys = s.keys := rfl
@[simp] theorem setShim_attest (s : State) (n : Nat) (x : Shim) : (setShim s n x).attest = s.attest := rfl
@[simp] theorem setShim_contexts (s : State) (n : Nat) (x : Shim) : (setShim s n x).contexts = s.contexts := rfl
@[simp] theorem setShim_shims (s : State) (n : Nat) (x : Shim) : (setShim s n x).shims = spSet shimDefault s.shims n x := rfl
@[simp] theorem setShim_cls (s : State) (n : Nat) (x : Shim) : (setShim s n x).cls = s.cls := rfl
@[simp] theorem setShim_mem (s : State) (n : Nat) (x : Shim) : (setShim s n x).mem = s.mem := rfl
@[simp] theorem setShim_trunks (s : State) (n : Nat) (x : Shim) : (setShim s n x).trunks = s.trunks := rfl
@[simp] theorem setShim_time (s : State) (n : Nat) (x : Shim) : (setShim s n x).time = s.time := rfl
@[simp] theorem setShim_faults (s : State) (n : Nat) (x : Shim) : (setShim s n x).faults = s.faults := rfl

/-! ### setTrunk -/

@[simp] theorem setTrunk_pending (s : State) (t : Trunk) (x : TrunkSt) : (setTrunk s t x).pending = s.pending := rfl
@[simp] theorem setTrunk_now (s : State) (t : Trunk) (x : TrunkSt) : (setTrunk s t x).now = s.now := rfl
@[simp] theorem setTrunk_regs (s : State) (t : Trunk) (x : TrunkSt) : (setTrunk s t x).regs = s.regs := rfl
@[simp] theorem setTrunk_ctrs (s : State) (t : Trunk) (x : TrunkSt) : (setTrunk s t x).ctrs = s.ctrs := rfl
@[simp] theorem setTrunk_events (s : State) (t : Trunk) (x : TrunkSt) : (setTrunk s t x).events = s.events := rfl
@[simp] theorem setTrunk_power (s : State) (t : Trunk) (x : TrunkSt) : (setTrunk s t x).power = s.power := rfl
@[simp] theorem setTrunk_grants (s : State) (t : Trunk) (x : TrunkSt) : (setTrunk s t x).grants = s.grants := rfl
@[simp] theorem setTrunk_server (s : State) (t : Trunk) (x : TrunkSt) : (setTrunk s t x).server = s.server := rfl
@[simp] theorem setTrunk_keys (s : State) (t : Trunk) (x : TrunkSt) : (setTrunk s t x).keys = s.keys := rfl
@[simp] theorem setTrunk_attest (s : State) (t : Trunk) (x : TrunkSt) : (setTrunk s t x).attest = s.attest := rfl
@[simp] theorem setTrunk_contexts (s : State) (t : Trunk) (x : TrunkSt) : (setTrunk s t x).contexts = s.contexts := rfl
@[simp] theorem setTrunk_shims (s : State) (t : Trunk) (x : TrunkSt) : (setTrunk s t x).shims = s.shims := rfl
@[simp] theorem setTrunk_cls (s : State) (t : Trunk) (x : TrunkSt) : (setTrunk s t x).cls = s.cls := rfl
@[simp] theorem setTrunk_mem (s : State) (t : Trunk) (x : TrunkSt) : (setTrunk s t x).mem = s.mem := rfl
@[simp] theorem setTrunk_trunks (s : State) (t : Trunk) (x : TrunkSt) : (setTrunk s t x).trunks = spSet trunkDefault s.trunks t.val x := rfl
@[simp] theorem setTrunk_time (s : State) (t : Trunk) (x : TrunkSt) : (setTrunk s t x).time = s.time := rfl
@[simp] theorem setTrunk_faults (s : State) (t : Trunk) (x : TrunkSt) : (setTrunk s t x).faults = s.faults := rfl

/-! ### setRegionDyn -/

@[simp] theorem setRegionDyn_pending (s : State) (r : Region) (x : RegionDyn) : (setRegionDyn s r x).pending = s.pending := rfl
@[simp] theorem setRegionDyn_now (s : State) (r : Region) (x : RegionDyn) : (setRegionDyn s r x).now = s.now := rfl
@[simp] theorem setRegionDyn_regs (s : State) (r : Region) (x : RegionDyn) : (setRegionDyn s r x).regs = s.regs := rfl
@[simp] theorem setRegionDyn_ctrs (s : State) (r : Region) (x : RegionDyn) : (setRegionDyn s r x).ctrs = s.ctrs := rfl
@[simp] theorem setRegionDyn_events (s : State) (r : Region) (x : RegionDyn) : (setRegionDyn s r x).events = s.events := rfl
@[simp] theorem setRegionDyn_power (s : State) (r : Region) (x : RegionDyn) : (setRegionDyn s r x).power = s.power := rfl
@[simp] theorem setRegionDyn_grants (s : State) (r : Region) (x : RegionDyn) : (setRegionDyn s r x).grants = s.grants := rfl
@[simp] theorem setRegionDyn_server (s : State) (r : Region) (x : RegionDyn) : (setRegionDyn s r x).server = s.server := rfl
@[simp] theorem setRegionDyn_keys (s : State) (r : Region) (x : RegionDyn) : (setRegionDyn s r x).keys = s.keys := rfl
@[simp] theorem setRegionDyn_attest (s : State) (r : Region) (x : RegionDyn) : (setRegionDyn s r x).attest = s.attest := rfl
@[simp] theorem setRegionDyn_contexts (s : State) (r : Region) (x : RegionDyn) : (setRegionDyn s r x).contexts = s.contexts := rfl
@[simp] theorem setRegionDyn_shims (s : State) (r : Region) (x : RegionDyn) : (setRegionDyn s r x).shims = s.shims := rfl
@[simp] theorem setRegionDyn_cls (s : State) (r : Region) (x : RegionDyn) : (setRegionDyn s r x).cls = s.cls := rfl
@[simp] theorem setRegionDyn_mem (s : State) (r : Region) (x : RegionDyn) : (setRegionDyn s r x).mem = { s.mem with regions := spSet regionDefault s.mem.regions r.val x } := rfl
@[simp] theorem setRegionDyn_trunks (s : State) (r : Region) (x : RegionDyn) : (setRegionDyn s r x).trunks = s.trunks := rfl
@[simp] theorem setRegionDyn_time (s : State) (r : Region) (x : RegionDyn) : (setRegionDyn s r x).time = s.time := rfl
@[simp] theorem setRegionDyn_faults (s : State) (r : Region) (x : RegionDyn) : (setRegionDyn s r x).faults = s.faults := rfl

/-! ### setMemChan -/

@[simp] theorem setMemChan_pending (s : State) (k : Chan) (x : MemChan) : (setMemChan s k x).pending = s.pending := rfl
@[simp] theorem setMemChan_now (s : State) (k : Chan) (x : MemChan) : (setMemChan s k x).now = s.now := rfl
@[simp] theorem setMemChan_regs (s : State) (k : Chan) (x : MemChan) : (setMemChan s k x).regs = s.regs := rfl
@[simp] theorem setMemChan_ctrs (s : State) (k : Chan) (x : MemChan) : (setMemChan s k x).ctrs = s.ctrs := rfl
@[simp] theorem setMemChan_events (s : State) (k : Chan) (x : MemChan) : (setMemChan s k x).events = s.events := rfl
@[simp] theorem setMemChan_power (s : State) (k : Chan) (x : MemChan) : (setMemChan s k x).power = s.power := rfl
@[simp] theorem setMemChan_grants (s : State) (k : Chan) (x : MemChan) : (setMemChan s k x).grants = s.grants := rfl
@[simp] theorem setMemChan_server (s : State) (k : Chan) (x : MemChan) : (setMemChan s k x).server = s.server := rfl
@[simp] theorem setMemChan_keys (s : State) (k : Chan) (x : MemChan) : (setMemChan s k x).keys = s.keys := rfl
@[simp] theorem setMemChan_attest (s : State) (k : Chan) (x : MemChan) : (setMemChan s k x).attest = s.attest := rfl
@[simp] theorem setMemChan_contexts (s : State) (k : Chan) (x : MemChan) : (setMemChan s k x).contexts = s.contexts := rfl
@[simp] theorem setMemChan_shims (s : State) (k : Chan) (x : MemChan) : (setMemChan s k x).shims = s.shims := rfl
@[simp] theorem setMemChan_cls (s : State) (k : Chan) (x : MemChan) : (setMemChan s k x).cls = s.cls := rfl
@[simp] theorem setMemChan_mem (s : State) (k : Chan) (x : MemChan) : (setMemChan s k x).mem = { s.mem with chans := spSet chanDefault s.mem.chans k.val x } := rfl
@[simp] theorem setMemChan_trunks (s : State) (k : Chan) (x : MemChan) : (setMemChan s k x).trunks = s.trunks := rfl
@[simp] theorem setMemChan_time (s : State) (k : Chan) (x : MemChan) : (setMemChan s k x).time = s.time := rfl
@[simp] theorem setMemChan_faults (s : State) (k : Chan) (x : MemChan) : (setMemChan s k x).faults = s.faults := rfl

/-! ### noteClocks -/

@[simp] theorem noteClocks_pending (s : State) : (noteClocks s).pending = s.pending := rfl
@[simp] theorem noteClocks_now (s : State) : (noteClocks s).now = s.now := rfl
@[simp] theorem noteClocks_regs (s : State) : (noteClocks s).regs = s.regs := rfl
@[simp] theorem noteClocks_ctrs (s : State) : (noteClocks s).ctrs = s.ctrs := rfl
@[simp] theorem noteClocks_events (s : State) : (noteClocks s).events = s.events := rfl
@[simp] theorem noteClocks_power (s : State) : (noteClocks s).power = s.power := rfl
@[simp] theorem noteClocks_grants (s : State) : (noteClocks s).grants = s.grants := rfl
@[simp] theorem noteClocks_server (s : State) : (noteClocks s).server = s.server := rfl
@[simp] theorem noteClocks_keys (s : State) : (noteClocks s).keys = s.keys := rfl
@[simp] theorem noteClocks_attest (s : State) : (noteClocks s).attest = s.attest := rfl
@[simp] theorem noteClocks_contexts (s : State) : (noteClocks s).contexts = s.contexts := rfl
@[simp] theorem noteClocks_shims (s : State) : (noteClocks s).shims = s.shims := rfl
@[simp] theorem noteClocks_cls (s : State) : (noteClocks s).cls = s.cls := rfl
@[simp] theorem noteClocks_mem (s : State) : (noteClocks s).mem = s.mem := rfl
@[simp] theorem noteClocks_trunks (s : State) : (noteClocks s).trunks = s.trunks := rfl
@[simp] theorem noteClocks_faults (s : State) : (noteClocks s).faults = s.faults := rfl
@[simp] theorem noteClocks_time (s : State) : (noteClocks s).time = { s.time with before := some (clockView s) } := rfl

end Sys2Proof.Machine
end

