-- ==== Sys2Proof/Laws/Ops.lean ====
section
/-! SUPPORT. What the shared operations do: settings, counters, raises, grants, and the answer to an access. -/

namespace Sys2Proof.Machine

/-! ### Settings and counters -/

@[simp] theorem reg_setReg_same (s : State) (i j : Nat) (v : W64) : reg (setReg s i j v) i j = v :=
  spGet_spSet_same regDefault s.regs (oa i j) v

theorem reg_setReg_ne (s : State) (i j i' j' : Nat) (v : W64) (h : oa i' j' ≠ oa i j) : reg (setReg s i j v) i' j' = reg s i' j' :=
  spGet_spSet_ne regDefault s.regs (oa i j) (oa i' j') v h

@[simp] theorem ctr_bumpBy_same (s : State) (i j n : Nat) : ctr (bumpBy s i j n) i j = satAdd64 (ctr s i j) n :=
  spGet_spSet_same ctrDefault s.ctrs (oa i j) _

theorem ctr_bumpBy_ne (s : State) (i j n i' j' : Nat) (h : oa i' j' ≠ oa i j) : ctr (bumpBy s i j n) i' j' = ctr s i' j' :=
  spGet_spSet_ne ctrDefault s.ctrs (oa i j) (oa i' j') _ h

theorem setReg_wf (s : State) (i j : Nat) (v : W64) (h : spWf regDefault s.regs = true) : spWf regDefault (setReg s i j v).regs = true :=
  spWf_spSet regDefault s.regs (oa i j) v h

theorem bumpBy_wf (s : State) (i j n : Nat) (h : spWf ctrDefault s.ctrs = true) : spWf ctrDefault (bumpBy s i j n).ctrs = true :=
  spWf_spSet ctrDefault s.ctrs (oa i j) _ h

/-! ### Raising an event (R453 to R455) -/

/-- A raise changes the Fault Manager's record and nothing else. -/
theorem raise_frame (s : State) (src d : Nat) : raise s src d = { s with events := (raise s src d).events } := by
  unfold raise; split
  · rfl
  · split <;> rfl

theorem raiseCause_frame (s : State) (src b d : Nat) : raiseCause s src b d = { s with events := (raiseCause s src b d).events } := by
  have h := raise_frame s src d
  unfold raiseCause; dsimp only; split
  · conv => lhs; rw [h]
  · exact h

/-- With PD_CTL On a raise records the source (R453). -/
theorem raise_on (s : State) (src d : Nat) (h : ctlOn s = true) : (raise s src d).events =
    recordRaise s.events src (BitVec.ofNat 16 d) (if timeOn s then localStamp s else 0) := by
  simp [raise, h]

/-- With PD_CTL Off only the sources of PD_AON units are held (R455). -/
theorem raise_off (s : State) (src d : Nat) (h : ctlOn s = false) : (raise s src d).events =
    if aonSource src then holdRaise s.events src (BitVec.ofNat 16 d) else s.events := by
  unfold raise; rw [h]; simp only [Bool.false_eq_true, if_false]; split <;> rfl

/-! ### Grants (R428 to R431) -/

theorem requestGrant_frame (s : State) (op : HeavyOp) (b : Bool) :
    requestGrant s op b = { s with grants := (requestGrant s op b).grants } := by
  unfold requestGrant; dsimp only; (repeat' split) <;> rfl

theorem releaseGrant_frame (s : State) (op : HeavyOp) : releaseGrant s op = { s with grants := (releaseGrant s op).grants } := rfl

/-- After a release the operation holds no grant and waits for none. -/
theorem releaseGrant_gone (s : State) (op : HeavyOp) : grantHeld (releaseGrant s op) op = false := by
  simp [grantHeld, releaseGrant]

/-! ### One access to an object (R459) -/

/-- An access that the common checks refuse changes counters only. -/
theorem writeAccess_refused (au : Auth) (idx sub : Nat) (data : Bytes) (eff : Bytes → State → Ack) (s : State) (c : W32)
    (h : checkAccess au true idx sub data.length = some c) :
    writeAccess au idx sub data eff s = (countRefusal au (if strayBits idx sub data then bump s 0x2002 3 else s), some c) := by
  simp [writeAccess, h, refuse]

/-- An access that the common checks pass is what the object does with the value. -/
theorem writeAccess_done (au : Auth) (idx sub : Nat) (data : Bytes) (eff : Bytes → State → Ack) (s t : State)
    (h : checkAccess au true idx sub data.length = none) (hr : strayBits idx sub data = false) (hb : bistBlocks s idx = false)
    (he : eff (ownBits idx sub data) s = (t, none)) : writeAccess au idx sub data eff s = (t, none) := by
  simp [writeAccess, h, hr, hb, he, done]

/-- The same for a command of a host master. -/
theorem commandWrite_done (sec : Bool) (priv : BitVec 2) (idx sub : Nat) (data : Bytes) (eff : Bytes → State → Ack) (s t : State)
    (hs : hpReady s = true) (h : checkAccess (.host sec priv) true idx sub data.length = none)
    (hr : strayBits idx sub data = false) (hb : bistBlocks s idx = false) (he : eff (ownBits idx sub data) s = (t, none)) :
    commandWrite (.host sec priv) idx sub data eff s = hpAnswer 0 0 t := by
  simp [commandWrite, accepts, hs, authOf, writeAccess_done _ _ _ _ _ _ _ h hr hb he, hpRespOf]

end Sys2Proof.Machine
end

