-- ==== Sys2Proof/Laws/Access.lean ====
section
/-! SUPPORT. Values as bytes, and what a host access that passes the common checks does. -/

namespace Sys2Proof.Machine

/-! ### Bytes and numbers (R7) -/

theorem beNat_append (a b : Bytes) : beNat (a ++ b) = beNat a * 256 ^ b.length + beNat b := by
  induction b using List.reverseRecOn with
  | nil => simp [beNat]
  | append_singleton b x ih =>
    have h1 : beNat (a ++ (b ++ [x])) = beNat (a ++ b) * 256 + x.toNat := by simp [beNat, List.foldl_append]
    have h2 : beNat (b ++ [x]) = beNat b * 256 + x.toNat := by simp [beNat, List.foldl_append]
    rw [h1, h2, ih, List.length_append, List.length_singleton, Nat.pow_succ]; ring

@[simp] theorem toBE_length (n v : Nat) : (toBE n v).length = n := by
  induction n generalizing v with
  | zero => rfl
  | succ n ih => simp [toBE, ih]

theorem beNat_toBE (n v : Nat) : beNat (toBE n v) = v % 256 ^ n := by
  induction n generalizing v with
  | zero => simp [toBE, beNat, Nat.mod_one]
  | succ n ih =>
    rw [toBE, beNat_append, ih]
    simp only [beNat, List.foldl_cons, List.foldl_nil, List.length_singleton, pow_one, BitVec.toNat_ofNat]
    have e : 256 ^ (n + 1) = 256 * 256 ^ n := by ring
    rw [e, Nat.mod_mul]; omega

theorem beNat_lt (bs : Bytes) : beNat bs < 256 ^ bs.length := by
  induction bs using List.reverseRecOn with
  | nil => simp [beNat]
  | append_singleton b x ih =>
    have h : beNat (b ++ [x]) = beNat b * 256 + x.toNat := by simp [beNat, List.foldl_append]
    have hx := x.isLt
    rw [h, List.length_append, List.length_singleton, Nat.pow_succ]; omega

theorem toBE_beNat (bs : Bytes) : toBE bs.length (beNat bs) = bs := by
  induction bs using List.reverseRecOn with
  | nil => rfl
  | append_singleton b x ih =>
    have h : beNat (b ++ [x]) = beNat b * 256 + x.toNat := by simp [beNat, List.foldl_append]
    have hx : x.toNat < 256 := x.isLt
    have hd : (beNat b * 256 + x.toNat) / 256 = beNat b := by omega
    have hm : BitVec.ofNat 8 (beNat b * 256 + x.toNat) = x := by
      apply BitVec.eq_of_toNat_eq; simp only [BitVec.toNat_ofNat]; omega
    rw [List.length_append, List.length_singleton, toBE, h, hd, ih, hm]

@[simp] theorem valueOf_toBE (n v : Nat) : valueOf (toBE n v) = v % 256 ^ n := beNat_toBE n v

@[simp] theorem wordBytes_length {w : Nat} (x : BitVec w) : (wordBytes x).length = w / 8 := by simp [wordBytes]

@[simp] theorem valueOf_wordBytes32 (x : W32) : valueOf (wordBytes x) = x.toNat := by
  rw [wordBytes, valueOf_toBE]; exact Nat.mod_eq_of_lt x.isLt

@[simp] theorem valueOf_wordBytes64 (x : W64) : valueOf (wordBytes x) = x.toNat := by
  rw [wordBytes, valueOf_toBE]; exact Nat.mod_eq_of_lt x.isLt

@[simp] theorem valueOf_single (b : Byte) : valueOf [b] = b.toNat := by simp [valueOf, beNat]

/-- A value without reserved bits is what its object is written with. -/
theorem ownBits_clean (idx sub : Nat) (data : Bytes) (h : strayBits idx sub data = false) : ownBits idx sub data = data := by
  unfold strayBits at h; unfold ownBits
  split
  · rename_i o ho
    rw [ho] at h
    split
    · rfl
    · rename_i hs
      have hz : Nat.land (valueOf data) o.resv = 0 := by simpa [hs] using h
      rw [hz, Nat.sub_zero]; exact toBE_beNat data
  · rfl

/-! ### A host access (R459) -/

/-- A host write that passes the common checks is what the object does with the value. -/
theorem commandWrite_host {sec : Bool} {priv : BitVec 2} {idx sub : Nat} {data : Bytes} {s : State}
    (h : hostWrites sec priv idx sub data s = true) (eff : Bytes → State → Ack) :
    commandWrite (.host sec priv) idx sub data eff s =
      match eff data s with
      | (t, none) => hostDone t
      | (t, some c) => hostRefused sec priv c t := by
  simp only [hostWrites, Bool.and_eq_true, Bool.not_eq_true', Option.isNone_iff_eq_none] at h
  obtain ⟨⟨⟨hr, hc⟩, hb⟩, hs⟩ := h
  simp only [commandWrite, accepts, hr, authOf, writeAccess, hc, hb, hs, ownBits_clean _ _ _ hs, Bool.not_true, Bool.false_eq_true, if_false]
  rcases eff data s with ⟨t, _ | c⟩ <;> rfl

theorem commandWrite_host_done {sec : Bool} {priv : BitVec 2} {idx sub : Nat} {data : Bytes} {s t : State}
    {eff : Bytes → State → Ack} (h : hostWrites sec priv idx sub data s = true) (he : eff data s = (t, none)) :
    commandWrite (.host sec priv) idx sub data eff s = hostDone t := by
  rw [commandWrite_host h, he]

theorem commandWrite_host_refused {sec : Bool} {priv : BitVec 2} {idx sub : Nat} {data : Bytes} {s t : State} {c : W32}
    {eff : Bytes → State → Ack} (h : hostWrites sec priv idx sub data s = true) (he : eff data s = (t, some c)) :
    commandWrite (.host sec priv) idx sub data eff s = hostRefused sec priv c t := by
  rw [commandWrite_host h, he]

/-- A host read that passes the common checks shows the object's value. -/
theorem commandRead_host {sec : Bool} {priv : BitVec 2} {idx sub : Nat} {s t : State} {v : Bytes}
    {eff : State → State × Except W32 Bytes} (h : hostReads sec priv idx sub s = true) (he : eff s = (t, .ok v)) :
    commandRead (.host sec priv) idx sub eff s = hpAnswer 0 ((hostWords v).getLastD 0) (takeSnapshot idx sub v t) := by
  simp only [hostReads, Bool.and_eq_true, Option.isNone_iff_eq_none] at h
  simp only [commandRead, accepts, h.1, h.2, authOf, he, Bool.not_true, Bool.false_eq_true, if_false]

end Sys2Proof.Machine
end

