-- ==== Sys2Proof/Laws/Keep.lean ====
section
/-! SUPPORT. What the queue of waiting commands and the power ladder are after an operation: the means to say of every
operation that it leaves them (its lemma f_keeps), or the queue alone (f_queue). -/

namespace Sys2Proof.Machine

@[simp] theorem ite_pending (c : Prop) [Decidable c] (a b : State) :
    (if c then a else b).pending = if c then a.pending else b.pending := by split <;> rfl

@[simp] theorem ite_power (c : Prop) [Decidable c] (a b : State) :
    (if c then a else b).power = if c then a.power else b.power := by split <;> rfl

@[simp] theorem ite_ack_pending (c : Prop) [Decidable c] (a b : Ack) :
    (if c then a else b).1.pending = if c then a.1.pending else b.1.pending := by split <;> rfl

@[simp] theorem ite_ack_power (c : Prop) [Decidable c] (a b : Ack) :
    (if c then a else b).1.power = if c then a.1.power else b.1.power := by split <;> rfl

@[simp] theorem foldl_pending {β : Type} (f : State → β → State) (h : ∀ s b, (f s b).pending = s.pending) (l : List β) (s : State) :
    (l.foldl f s).pending = s.pending := by
  induction l generalizing s with
  | nil => rfl
  | cons b l ih => simp [List.foldl, ih, h]

@[simp] theorem foldl_power {β : Type} (f : State → β → State) (h : ∀ s b, (f s b).power = s.power) (l : List β) (s : State) :
    (l.foldl f s).power = s.power := by
  induction l generalizing s with
  | nil => rfl
  | cons b l ih => simp [List.foldl, ih, h]

/-- The queue and the power ladder of two states are the same. -/
def Same (a b : State) : Prop := b.pending = a.pending ∧ b.power = a.power

/-- An evaluation that starts in a state like `a` ends in a state like `a`. -/
def Still {α : Type} (a : State) (m : Ev α) : Prop := ∀ s, Same a s → Same a (m.run.run s).2

theorem same_refl (a : State) : Same a a := ⟨rfl, rfl⟩

theorem same_ite {α : Type} {c : Prop} [Decidable c] {s : State} {a b : State × α} (ha : Same s a.1) (hb : Same s b.1) :
    Same s (if c then a else b).1 := by split <;> assumption

theorem still_pure {α : Type} {a : State} (x : α) : Still a (pure x : Ev α) := fun _ h => h

theorem still_throw {α : Type} {a : State} (e : Halt) : Still a (throw e : Ev α) := fun _ h => h

theorem still_set {a s : State} (h : Same a s) : Still a (evSet s) := fun _ _ => h

theorem still_mod {a : State} {g : State → State} (h : ∀ s, (g s).pending = s.pending ∧ (g s).power = s.power) : Still a (evMod g) :=
  fun s hs => ⟨(h s).1.trans hs.1, (h s).2.trans hs.2⟩

theorem still_bind {α β : Type} {a : State} {m : Ev α} {f : α → Ev β} (hm : Still a m) (hf : ∀ x, Still a (f x)) :
    Still a (m >>= f) := by
  intro s hs
  have key : ∀ r : Except Halt α × State, Same a r.2 →
      Same a (StateT.bind (m := Id) (fun _ => r) (ExceptT.bindCont f) s).2 := by
    rintro ⟨_ | x, t⟩ h
    · exact h
    · exact hf x t h
  exact key _ (hm s hs)

theorem still_get {β : Type} {a : State} {f : State → Ev β} (hf : ∀ s, Same a s → Still a (f s)) : Still a (evGet >>= f) :=
  fun s hs => hf s hs s hs

theorem still_try {α : Type} {a : State} {m : Ev α} {f : Halt → Ev α} (hm : Still a m) (hf : ∀ e, Still a (f e)) :
    Still a (tryCatch m f) := by
  intro s hs
  have key : ∀ r : Except Halt α × State, Same a r.2 →
      Same a (StateT.run (ExceptT.run (ExceptT.tryCatch (ExceptT.mk (fun _ => r) : Ev α) f)) s).2 := by
    rintro ⟨_ | x, t⟩ h
    · exact hf _ t h
    · exact h
  exact key _ (hm s hs)

end Sys2Proof.Machine
end

