-- ==== Sys2Proof/Laws/KeepOps.lean ====
section
/-! SUPPORT. The shared operations, the dictionary operands and the key store: what each operation leaves of the queue and of the power ladder. -/

namespace Sys2Proof.Machine

@[simp] theorem raise_keeps (s : State) (src : Nat) (detail : Nat) :
    (raise s src detail).pending = s.pending ∧ (raise s src detail).power = s.power := by
  simp [raise]

@[simp] theorem raiseCause_keeps (s : State) (src : Nat) (b : Nat) (detail : Nat) :
    (raiseCause s src b detail).pending = s.pending ∧ (raiseCause s src b detail).power = s.power := by
  simp [raiseCause]

@[simp] theorem requestGrant_keeps (s : State) (op : HeavyOp) (noTimeout : Bool) :
    (requestGrant s op noTimeout).pending = s.pending ∧ (requestGrant s op noTimeout).power = s.power := by
  simp [requestGrant]

@[simp] theorem releaseGrant_keeps (s : State) (op : HeavyOp) :
    (releaseGrant s op).pending = s.pending ∧ (releaseGrant s op).power = s.power := by
  simp [releaseGrant]

@[simp] theorem holdGrant_keeps (s : State) (op : HeavyOp) (external : Bool) :
    (holdGrant s op external).pending = s.pending ∧ (holdGrant s op external).power = s.power := by
  simp [holdGrant]

@[simp] theorem done_keeps (s : State) :
    (done s).1.pending = s.pending ∧ (done s).1.power = s.power := by
  simp [done]

@[simp] theorem refuse_keeps (c : W32) (s : State) :
    (refuse c s).1.pending = s.pending ∧ (refuse c s).1.power = s.power := by
  simp [refuse]

@[simp] theorem countRefusal_keeps (au : Auth) (s : State) :
    (countRefusal au s).pending = s.pending ∧ (countRefusal au s).power = s.power := by
  unfold countRefusal; (repeat' split) <;> simp

theorem writeAccess_fields (au : Auth) (idx sub : Nat) (data : Bytes) (eff : Bytes → State → Ack) (s : State) {α : Type} (g : State → α)
    (hc : ∀ x i, g (bump x 0x2002 i) = g x) (h : ∀ d x, g (eff d x).1 = g x) : g (writeAccess au idx sub data eff s).1 = g s := by
  have hr : ∀ x, g (countRefusal au x) = g x := by intro x; cases au <;> simp [countRefusal, hc]
  have h1 : g (if strayBits idx sub data then bump s 0x2002 3 else s) = g s := by split <;> simp [hc]
  unfold writeAccess; dsimp only
  split
  · simp [refuse, hr, h1]
  · split
    · simp [refuse, hr, h1]
    · have h2 := h (ownBits idx sub data) (if strayBits idx sub data then bump s 0x2002 3 else s)
      split <;> rename_i e <;> rw [e] at h2 <;> simp_all [done, refuse]
@[simp] theorem writeAccess_pending (au : Auth) (idx sub : Nat) (data : Bytes) (eff : Bytes → State → Ack) (s : State)
    (h : ∀ d x, (eff d x).1.pending = x.pending) : (writeAccess au idx sub data eff s).1.pending = s.pending :=
  writeAccess_fields au idx sub data eff s State.pending (fun _ _ => by simp) h
@[simp] theorem writeAccess_power (au : Auth) (idx sub : Nat) (data : Bytes) (eff : Bytes → State → Ack) (s : State)
    (h : ∀ d x, (eff d x).1.power = x.power) : (writeAccess au idx sub data eff s).1.power = s.power :=
  writeAccess_fields au idx sub data eff s State.power (fun _ _ => by simp) h

@[simp] theorem hpAnswer_keeps (resp : BitVec 2) (rdata : W32) (s : State) :
    (hpAnswer resp rdata s).pending = s.pending ∧ (hpAnswer resp rdata s).power = s.power := by
  simp [hpAnswer]

@[simp] theorem commandWrite_pending (m : Master) (idx sub : Nat) (data : Bytes) (eff : Bytes → State → Ack) (s : State)
    (h : ∀ d x, (eff d x).1.pending = x.pending) : (commandWrite m idx sub data eff s).pending = s.pending := by
  unfold commandWrite; dsimp only; split
  · rfl
  · split <;> simp [h]
@[simp] theorem commandWrite_power (m : Master) (idx sub : Nat) (data : Bytes) (eff : Bytes → State → Ack) (s : State)
    (h : ∀ d x, (eff d x).1.power = x.power) : (commandWrite m idx sub data eff s).power = s.power := by
  unfold commandWrite; dsimp only; split
  · rfl
  · split <;> simp [h]

@[simp] theorem takeSnapshot_keeps (idx : Nat) (sub : Nat) (v : Bytes) (s : State) :
    (takeSnapshot idx sub v s).pending = s.pending ∧ (takeSnapshot idx sub v s).power = s.power := by
  simp [takeSnapshot]

@[simp] theorem commandRead_keeps (m : Master) (idx sub : Nat) (eff : State → State × Except W32 Bytes) (s : State)
    (h : ∀ x, (eff x).1.pending = x.pending ∧ (eff x).1.power = x.power) :
    (commandRead m idx sub eff s).pending = s.pending ∧ (commandRead m idx sub eff s).power = s.power := by
  have h1 := h s
  unfold commandRead
  split
  · exact ⟨rfl, rfl⟩
  · split
    · split <;> simp
    · rcases hr : eff s with ⟨s1, _ | v⟩ <;> rw [hr] at h1 <;> cases m <;> simp_all

@[simp] theorem putReg_keeps (idx : Nat) (sub : Nat) (data : Bytes) (s : State) :
    (putReg idx sub data s).1.pending = s.pending ∧ (putReg idx sub data s).1.power = s.power := by
  simp [putReg]

@[simp] theorem putRange_keeps (idx : Nat) (sub : Nat) (lo : Nat) (hi : Nat) (data : Bytes) (s : State) :
    (putRange idx sub lo hi data s).1.pending = s.pending ∧ (putRange idx sub lo hi data s).1.power = s.power := by
  simp [putRange]

@[simp] theorem setSlot_keeps (s : State) (k : W16) (x : KeySlot) :
    (setSlot s k x).pending = s.pending ∧ (setSlot s k x).power = s.power := by
  simp [setSlot]

@[simp] theorem setPair_keeps (s : State) (k : W16) (p : RetPair) :
    (setPair s k p).pending = s.pending ∧ (setPair s k p).power = s.power := by
  simp [setPair]

@[simp] theorem bindKey_keeps (s : State) (k : W16) :
    (bindKey s k).pending = s.pending ∧ (bindKey s k).power = s.power := by
  simp [bindKey]

@[simp] theorem releaseKey_keeps (s : State) (k : W16) :
    (releaseKey s k).pending = s.pending ∧ (releaseKey s k).power = s.power := by
  simp [releaseKey]

@[simp] theorem draw_keeps (s : State) (n : Nat) : (draw s n).2.pending = s.pending ∧ (draw s n).2.power = s.power := by
  unfold draw; exact ⟨rfl, rfl⟩

@[simp] theorem commitValue_keeps (s : State) (k : W16) (v : KeyVal) (o : Origin) :
    (commitValue s k v o).pending = s.pending ∧ (commitValue s k v o).power = s.power := by
  unfold commitValue; dsimp only; split <;> simp

@[simp] theorem unstage_keeps (s : State) (k : W16) :
    (unstage s k).pending = s.pending ∧ (unstage s k).power = s.power := by
  simp [unstage]

@[simp] theorem stage_keeps (s : State) (k : W16) :
    (stage s k).pending = s.pending ∧ (stage s k).power = s.power := by
  simp [stage]

@[simp] theorem abortStaging_keeps (s : State) (code : BitVec 4) :
    (abortStaging s code).pending = s.pending ∧ (abortStaging s code).power = s.power := by
  unfold abortStaging; (repeat' split) <;> simp

@[simp] theorem endBatch_keeps (s : State) (code : BitVec 4) :
    (endBatch s code).pending = s.pending ∧ (endBatch s code).power = s.power := by
  unfold endBatch; (repeat' split) <;> simp

@[simp] theorem zeroizeOne_keeps (s : State) (k : W16) :
    (zeroizeOne s k).pending = s.pending ∧ (zeroizeOne s k).power = s.power := by
  simp [zeroizeOne]

@[simp] theorem zeroizeBank_keeps (s : State) (retention : Bool) :
    (zeroizeBank s retention).pending = s.pending ∧ (zeroizeBank s retention).power = s.power := by
  simp [zeroizeBank]

@[simp] theorem endSession_keeps (s : State) :
    (endSession s).pending = s.pending ∧ (endSession s).power = s.power := by
  simp [endSession]

@[simp] theorem endRequest_keeps (s : State) (code : BitVec 4) :
    (endRequest s code).pending = s.pending ∧ (endRequest s code).power = s.power := by
  simp [endRequest]

@[simp] theorem abandonRequest_keeps (s : State) (code : BitVec 4) :
    (abandonRequest s code).pending = s.pending ∧ (abandonRequest s code).power = s.power := by
  simp [abandonRequest]

@[simp] theorem clearSigning_keeps (s : State) :
    (clearSigning s).pending = s.pending ∧ (clearSigning s).power = s.power := by
  simp [clearSigning]

@[simp] theorem clearDrs_keeps (s : State) :
    (clearDrs s).pending = s.pending ∧ (clearDrs s).power = s.power := by
  simp [clearDrs]

@[simp] theorem evaluateRetentionSlot_keeps (s : State) (e : Nat × KeySlot) :
    (evaluateRetentionSlot s e).pending = s.pending ∧ (evaluateRetentionSlot s e).power = s.power := by
  simp [evaluateRetentionSlot]

end Sys2Proof.Machine
end

