-- ==== Sys2Proof/Laws/KeepKeys.lean ====
section
/-! SUPPORT. Keys, attestation, contexts and tables: what each operation leaves of the queue and of the power ladder. -/

namespace Sys2Proof.Machine

@[simp] theorem finishNative_keeps (s : State) (d : KeyVal) :
    (finishNative s d).pending = s.pending ∧ (finishNative s d).power = s.power := by
  simp [finishNative]

@[simp] theorem finishReport_keeps (s : State) (d : KeyVal) :
    (finishReport s d).pending = s.pending ∧ (finishReport s d).power = s.power := by
  simp [finishReport]

@[simp] theorem finishPublicKey_keeps (s : State) (d : KeyVal) :
    (finishPublicKey s d).pending = s.pending ∧ (finishPublicKey s d).power = s.power := by
  simp [finishPublicKey]

@[simp] theorem noteRefusal_keeps (s : State) :
    (noteRefusal s).pending = s.pending ∧ (noteRefusal s).power = s.power := by
  unfold noteRefusal; dsimp only; (repeat' split) <;> simp_all

@[simp] theorem holdKat_keeps (s : State) :
    (holdKat s).pending = s.pending ∧ (holdKat s).power = s.power := by
  unfold holdKat; (repeat' split) <;> simp

@[simp] theorem startRequest_keeps (k : AttestKind) (s : State) :
    (startRequest k s).1.pending = s.pending ∧ (startRequest k s).1.power = s.power := by
  unfold startRequest; (repeat' split) <;> simp

@[simp] theorem startCommand_keeps (data : Bytes) (s : State) :
    (startCommand data s).1.pending = s.pending ∧ (startCommand data s).1.power = s.power := by
  unfold startCommand; (repeat' split) <;> simp

@[simp] theorem signingDenied_keeps (s : State) :
    (signingDenied s).pending = s.pending ∧ (signingDenied s).power = s.power := by
  simp [signingDenied]

@[simp] theorem restartDigest_keeps (s : State) (k : AttestKind) :
    (restartDigest s k).pending = s.pending ∧ (restartDigest s k).power = s.power := by
  unfold restartDigest; (repeat' split) <;> simp

@[simp] theorem completeRequest_keeps (s : State) (k : AttestKind) (finish : State → KeyVal → State) (h : ∀ d0 d1, (finish d0 d1).pending = d0.pending ∧ (finish d0 d1).power = d0.power) :
    (completeRequest s k finish).pending = s.pending ∧ (completeRequest s k finish).power = s.power := by
  unfold completeRequest; (repeat' split) <;> simp_all

@[simp] theorem extendRegister_keeps (data : Bytes) (s : State) :
    (extendRegister data s).1.pending = s.pending ∧ (extendRegister data s).1.power = s.power := by
  simp [extendRegister]

@[simp] theorem writeAttestObj_keeps (idx : Nat) (sub : Nat) (data : Bytes) (s : State) :
    (writeAttestObj idx sub data s).1.pending = s.pending ∧ (writeAttestObj idx sub data s).1.power = s.power := by
  unfold writeAttestObj; (repeat' split) <;> simp

@[simp] theorem attestRestart_keeps (s : State) :
    (attestRestart s).pending = s.pending ∧ (attestRestart s).power = s.power := by
  simp [attestRestart]

@[simp] theorem attestTestMode_keeps (s : State) :
    (attestTestMode s).pending = s.pending ∧ (attestTestMode s).power = s.power := by
  simp [attestTestMode]

@[simp] theorem putStream_keeps (s : State) (u : Nat) (e : Entry) :
    (putStream s u e).pending = s.pending ∧ (putStream s u e).power = s.power := by
  simp [putStream]

@[simp] theorem noteBump_keeps (s : State) (u : Nat) :
    (noteBump s u).pending = s.pending ∧ (noteBump s u).power = s.power := by
  unfold noteBump; (repeat' split) <;> simp

@[simp] theorem bumpClear_keeps (s : State) (u : Nat) :
    (bumpClear s u).pending = s.pending ∧ (bumpClear s u).power = s.power := by
  simp [bumpClear]

@[simp] theorem relocate_keeps (s : State) (x1 : List Nat) :
    (relocate s x1).pending = s.pending ∧ (relocate s x1).power = s.power := by
  fun_induction relocate <;> simp_all

@[simp] theorem noteStash_keeps (s : State) :
    (noteStash s).pending = s.pending ∧ (noteStash s).power = s.power := by
  simp [noteStash]

@[simp] theorem insertStream_keeps (s : State) (e : Entry) :
    (insertStream s e).1.pending = s.pending ∧ (insertStream s e).1.power = s.power := by
  unfold insertStream; dsimp only; (repeat' split) <;> simp_all

@[simp] theorem drainStash_keeps (s : State) (u : Nat) :
    (drainStash s u).pending = s.pending ∧ (drainStash s u).power = s.power := by
  unfold drainStash; (repeat' split) <;> simp

@[simp] theorem deleteStream_keeps (s : State) (u : Nat) :
    (deleteStream s u).pending = s.pending ∧ (deleteStream s u).power = s.power := by
  simp [deleteStream]

@[simp] theorem putStation_keeps (s : State) (u : Nat) (e : StationEntry) :
    (putStation s u e).pending = s.pending ∧ (putStation s u e).power = s.power := by
  simp [putStation]

@[simp] theorem delStation_keeps (s : State) (u : Nat) :
    (delStation s u).pending = s.pending ∧ (delStation s u).power = s.power := by
  simp [delStation]

@[simp] theorem insertStation_keeps (s : State) (key : Bytes) (r : W32) :
    (insertStation s key r).1.pending = s.pending ∧ (insertStation s key r).1.power = s.power := by
  unfold insertStation; (repeat' split) <;> simp

@[simp] theorem putPrefix_keeps (s : State) (u : Nat) (e : Entry) :
    (putPrefix s u e).pending = s.pending ∧ (putPrefix s u e).power = s.power := by
  simp [putPrefix]

@[simp] theorem insertPrefix_keeps (s : State) (n : Nat) (e : Entry) :
    (insertPrefix s n e).1.pending = s.pending ∧ (insertPrefix s n e).1.power = s.power := by
  unfold insertPrefix; dsimp only; (repeat' split) <;> simp_all

@[simp] theorem deletePrefix_keeps (s : State) (n : Nat) (u : Nat) :
    (deletePrefix s n u).pending = s.pending ∧ (deletePrefix s n u).power = s.power := by
  simp [deletePrefix]

@[simp] theorem setTableRegs_keeps (s : State) (au : Auth) (t : TableRegs) :
    (setTableRegs s au t).pending = s.pending ∧ (setTableRegs s au t).power = s.power := by
  unfold setTableRegs; (repeat' split) <;> simp

@[simp] theorem noteChange_keeps (s : State) (t : TableSel) :
    (noteChange s t).pending = s.pending ∧ (noteChange s t).power = s.power := by
  simp [noteChange]

@[simp] theorem setResultAt_keeps (s : State) (t : TableSel) (u : Nat) (r : W32) (seen : Bool) :
    (setResultAt s t u r seen).pending = s.pending ∧ (setResultAt s t u r seen).power = s.power := by
  unfold setResultAt; (repeat' split) <;> simp

@[simp] theorem deleteEntry_keeps (s : State) (t : TableSel) (key : Bytes) (u : Nat) :
    (deleteEntry s t key u).pending = s.pending ∧ (deleteEntry s t key u).power = s.power := by
  unfold deleteEntry; (repeat' split) <;> simp

@[simp] theorem insertEntry_keeps (s : State) (t : TableSel) (key : Bytes) (r : W32) :
    (insertEntry s t key r).1.pending = s.pending ∧ (insertEntry s t key r).1.power = s.power := by
  unfold insertEntry; (repeat' split) <;> simp

@[simp] theorem reportTable_keeps (s : State) (au : Auth) (t : TableSel) (r : TableResult) :
    (reportTable s au t r).pending = s.pending ∧ (reportTable s au t r).power = s.power := by
  unfold reportTable; (repeat' split) <;> simp

@[simp] theorem insertCommand_keeps (au : Auth) (t : TableSel) (s : State) :
    (insertCommand au t s).pending = s.pending ∧ (insertCommand au t s).power = s.power := by
  simp [insertCommand]

@[simp] theorem deleteCommand_keeps (au : Auth) (t : TableSel) (s : State) :
    (deleteCommand au t s).pending = s.pending ∧ (deleteCommand au t s).power = s.power := by
  unfold deleteCommand; dsimp only; (repeat' split) <;> simp_all

@[simp] theorem readCommand_keeps (au : Auth) (t : TableSel) (s : State) :
    (readCommand au t s).pending = s.pending ∧ (readCommand au t s).power = s.power := by
  unfold readCommand; dsimp only; (repeat' split) <;> simp_all

@[simp] theorem replaceCommand_keeps (au : Auth) (t : TableSel) (s : State) :
    (replaceCommand au t s).pending = s.pending ∧ (replaceCommand au t s).power = s.power := by
  unfold replaceCommand; dsimp only; (repeat' split) <;> simp_all

@[simp] theorem tableCommand_keeps (au : Auth) (data : Bytes) (s : State) :
    (tableCommand au data s).1.pending = s.pending ∧ (tableCommand au data s).1.power = s.power := by
  unfold tableCommand; dsimp only; (repeat' split) <;> simp_all

@[simp] theorem writeDescriptor_keeps (n : Nat) (data : Bytes) (s : State) :
    (writeDescriptor n data s).1.pending = s.pending ∧ (writeDescriptor n data s).1.power = s.power := by
  simp [writeDescriptor]

@[simp] theorem startRebuild_keeps (data : Bytes) (s : State) :
    (startRebuild data s).1.pending = s.pending ∧ (startRebuild data s).1.power = s.power := by
  simp [startRebuild]

@[simp] theorem endRebuild_keeps (s : State) (code : BitVec 4) :
    (endRebuild s code).pending = s.pending ∧ (endRebuild s code).power = s.power := by
  simp [endRebuild]

@[simp] theorem lookupStream_keeps (s : State) (key : Bytes) :
    (lookupStream s key).2.pending = s.pending ∧ (lookupStream s key).2.power = s.power := by
  unfold lookupStream; dsimp only; (repeat' split) <;> simp

@[simp] theorem noteHit_keeps (s : State) (u : Nat) :
    (noteHit s u).pending = s.pending ∧ (noteHit s u).power = s.power := by
  simp [noteHit]

@[simp] theorem lookupStation_keeps (s : State) (key : Bytes) :
    (lookupStation s key).2.pending = s.pending ∧ (lookupStation s key).2.power = s.power := by
  unfold lookupStation; (repeat' split) <;> simp

@[simp] theorem lookupPrefix_keeps (s : State) (v6 : Bool) (zone : Byte) (addr : Bytes) :
    (lookupPrefix s v6 zone addr).2.pending = s.pending ∧ (lookupPrefix s v6 zone addr).2.power = s.power := by
  unfold lookupPrefix; dsimp only; (repeat' split) <;> simp_all

@[simp] theorem pushLearn_keeps (s : State) (q : LearnReq) :
    (pushLearn s q).pending = s.pending ∧ (pushLearn s q).power = s.power := by
  simp [pushLearn]

@[simp] theorem learnNew_keeps (s : State) (q : LearnReq) (key : Bytes) :
    (learnNew s q key).pending = s.pending ∧ (learnNew s q key).power = s.power := by
  unfold learnNew; (repeat' split) <;> simp

@[simp] theorem learnHit_keeps (s : State) (q : LearnReq) (u : Nat) (e : StationEntry) :
    (learnHit s q u e).pending = s.pending ∧ (learnHit s q u e).power = s.power := by
  simp [learnHit]

@[simp] theorem loseEntry_keeps (s : State) (t : TableSel) (u : Nat) :
    (loseEntry s t u).pending = s.pending ∧ (loseEntry s t u).power = s.power := by
  simp [loseEntry]

@[simp] theorem retireStream_keeps (s : State) (u : Nat) (readable : Bool) :
    (retireStream s u readable).pending = s.pending ∧ (retireStream s u readable).power = s.power := by
  unfold retireStream; (repeat' split) <;> simp

@[simp] theorem retireStation_keeps (s : State) (u : Nat) (readable : Bool) :
    (retireStation s u readable).pending = s.pending ∧ (retireStation s u readable).power = s.power := by
  unfold retireStation; dsimp only; (repeat' split) <;> simp_all

@[simp] theorem retirePrefix_keeps (s : State) (b : Nat) :
    (retirePrefix s b).pending = s.pending ∧ (retirePrefix s b).power = s.power := by
  unfold retirePrefix
  refine ⟨foldl_pending _ (fun s j => ?_) _ _, foldl_power _ (fun s j => ?_) _ _⟩ <;> split <;> simp

@[simp] theorem writeClassifierObj_keeps (au : Auth) (idx : Nat) (sub : Nat) (data : Bytes) (s : State) :
    (writeClassifierObj au idx sub data s).1.pending = s.pending ∧ (writeClassifierObj au idx sub data s).1.power = s.power := by
  unfold writeClassifierObj; (repeat' split) <;> simp

@[simp] theorem classifierWarm_keeps (s : State) (tableRunning : Bool) :
    (classifierWarm s tableRunning).pending = s.pending ∧ (classifierWarm s tableRunning).power = s.power := by
  simp [classifierWarm]

@[simp] theorem tallyContext_keeps (s : State) (c : Nat) (word : Nat) (n : Nat) :
    (tallyContext s c word n).pending = s.pending ∧ (tallyContext s c word n).power = s.power := by
  simp [tallyContext]

@[simp] theorem forgetSlot_keeps (s : State) (c : Nat) (i : SlotId) :
    (forgetSlot s c i).pending = s.pending ∧ (forgetSlot s c i).power = s.power := by
  simp [forgetSlot]

@[simp] theorem clearSlot_keeps (s : State) (c : Nat) (i : SlotId) :
    (clearSlot s c i).pending = s.pending ∧ (clearSlot s c i).power = s.power := by
  simp [clearSlot]

@[simp] theorem emptyOld_keeps (s : State) (c : Nat) (i : SlotId) :
    (emptyOld s c i).pending = s.pending ∧ (emptyOld s c i).power = s.power := by
  simp [emptyOld]

@[simp] theorem writeControl_keeps (c : Nat) (v : W64) (s : State) :
    (writeControl c v s).1.pending = s.pending ∧ (writeControl c v s).1.power = s.power := by
  simp [writeControl]

@[simp] theorem installSlot_keeps (s : State) (c : Nat) (i : SlotId) (an : BitVec 2) (klen : Bool) (key : W16) :
    (installSlot s c i an klen key).pending = s.pending ∧ (installSlot s c i an klen key).power = s.power := by
  simp [installSlot]

@[simp] theorem writeSlotState_keeps (c : Nat) (i : SlotId) (v : W64) (s : State) :
    (writeSlotState c i v s).1.pending = s.pending ∧ (writeSlotState c i v s).1.power = s.power := by
  simp [writeSlotState]

@[simp] theorem writeSlotWord_keeps (c : Nat) (i : SlotId) (j : Nat) (v : W64) (s : State) :
    (writeSlotWord c i j v s).1.pending = s.pending ∧ (writeSlotWord c i j v s).1.power = s.power := by
  unfold writeSlotWord; (repeat' split) <;> simp

@[simp] theorem writeContextWord_keeps (c : Nat) (k : Nat) (v : W64) (s : State) :
    (writeContextWord c k v s).1.pending = s.pending ∧ (writeContextWord c k v s).1.power = s.power := by
  simp [writeContextWord]

@[simp] theorem writeContextObj_keeps (au : Auth) (idx : Nat) (sub : Nat) (data : Bytes) (s : State) :
    (writeContextObj au idx sub data s).1.pending = s.pending ∧ (writeContextObj au idx sub data s).1.power = s.power := by
  simp [writeContextObj]

@[simp] theorem switchSlots_keeps (s : State) (o : Nat) (cur : Option SlotId) (nxt : SlotId) :
    (switchSlots s o cur nxt).pending = s.pending ∧ (switchSlots s o cur nxt).power = s.power := by
  unfold switchSlots; (repeat' split) <;> simp

@[simp] theorem reservePn_keeps (s : State) (c : Nat) (o : Nat) (i : SlotId) (ev : List Tally) :
    (reservePn s c o i ev).1.pending = s.pending ∧ (reservePn s c o i ev).1.power = s.power := by
  simp [reservePn]

@[simp] theorem takeSlot_keeps (s : State) (c : Nat) (o : Nat) (i : SlotId) (ev : List Tally) :
    (takeSlot s c o i ev).1.pending = s.pending ∧ (takeSlot s c o i ev).1.power = s.power := by
  unfold takeSlot; (repeat' split) <;> simp

@[simp] theorem stayOn_keeps (s : State) (c : Nat) (o : Nat) (x : Context) (cur : Option SlotId) :
    (stayOn s c o x cur).1.pending = s.pending ∧ (stayOn s c o x cur).1.power = s.power := by
  unfold stayOn; (repeat' split) <;> simp

@[simp] theorem chooseTx_keeps (s : State) (c : Nat) :
    (chooseTx s c).1.pending = s.pending ∧ (chooseTx s c).1.power = s.power := by
  unfold chooseTx; dsimp only; (repeat' split) <;> simp_all

@[simp] theorem settleSlot_keeps (s : State) (p : CipherPlan) :
    (settleSlot s p).pending = s.pending ∧ (settleSlot s p).power = s.power := by
  simp [settleSlot]

@[simp] theorem rxSwitch_keeps (s : State) (c : Nat) (i : SlotId) :
    (rxSwitch s c i).1.pending = s.pending ∧ (rxSwitch s c i).1.power = s.power := by
  unfold rxSwitch; dsimp only; (repeat' split) <;> simp_all

@[simp] theorem retireContext_keeps (s : State) (c : Nat) :
    (retireContext s c).pending = s.pending ∧ (retireContext s c).power = s.power := by
  simp [retireContext]

@[simp] theorem warmSlot_keeps (s : State) (c : Nat) (i : SlotId) :
    (warmSlot s c i).pending = s.pending ∧ (warmSlot s c i).power = s.power := by
  simp [warmSlot]

@[simp] theorem warmContext_keeps (s : State) (e : Nat × Context) :
    (warmContext s e).pending = s.pending ∧ (warmContext s e).power = s.power := by
  simp [warmContext]

@[simp] theorem contextsWarm_keeps (s : State) :
    (contextsWarm s).pending = s.pending ∧ (contextsWarm s).power = s.power := by
  simp [contextsWarm]

@[simp] theorem stagingWrite_keeps (m : Master) (resv : Nat) (value : W32) (eff : State → Ack) (s : State) (h : ∀ d0, (eff d0).1.pending = d0.pending ∧ (eff d0).1.power = d0.power) :
    (stagingWrite m resv value eff s).pending = s.pending ∧ (stagingWrite m resv value eff s).power = s.power := by
  unfold stagingWrite; (repeat' split) <;> simp_all

@[simp] theorem setStagingCode_keeps (s : State) (code : BitVec 4) :
    (setStagingCode s code).pending = s.pending ∧ (setStagingCode s code).power = s.power := by
  simp [setStagingCode]

@[simp] theorem openStaging_keeps (value : W32) (s : State) :
    (openStaging value s).1.pending = s.pending ∧ (openStaging value s).1.power = s.power := by
  unfold openStaging; dsimp only; (repeat' split) <;> simp_all

@[simp] theorem writeStagingWord_keeps (w : Fin 9) (value : W32) (s : State) :
    (writeStagingWord w value s).1.pending = s.pending ∧ (writeStagingWord w value s).1.power = s.power := by
  unfold writeStagingWord; (repeat' split) <;> simp

@[simp] theorem commitStaging_keeps (s : State) :
    (commitStaging s).1.pending = s.pending ∧ (commitStaging s).1.power = s.power := by
  unfold commitStaging; (repeat' split) <;> simp

@[simp] theorem abortByCommand_keeps (s : State) :
    (abortByCommand s).1.pending = s.pending ∧ (abortByCommand s).1.power = s.power := by
  simp [abortByCommand]

@[simp] theorem stagingWindowWrite_keeps (m : Master) (offset : Nat) (value : W32) (s : State) :
    (stagingWindowWrite m offset value s).pending = s.pending ∧ (stagingWindowWrite m offset value s).power = s.power := by
  unfold stagingWindowWrite; (repeat' split) <;> simp

@[simp] theorem setSlotCode_keeps (s : State) (busy : Bool) (code : BitVec 4) :
    (setSlotCode s busy code).pending = s.pending ∧ (setSlotCode s busy code).power = s.power := by
  simp [setSlotCode]

@[simp] theorem invalidateSlot_keeps (k : W16) (s : State) :
    (invalidateSlot k s).1.pending = s.pending ∧ (invalidateSlot k s).1.power = s.power := by
  simp [invalidateSlot]

@[simp] theorem zeroizeBySlot_keeps (k : W16) (s : State) :
    (zeroizeBySlot k s).1.pending = s.pending ∧ (zeroizeBySlot k s).1.power = s.power := by
  unfold zeroizeBySlot; (repeat' split) <;> simp

@[simp] theorem zeroizeMain_keeps (s : State) :
    (zeroizeMain s).1.pending = s.pending ∧ (zeroizeMain s).1.power = s.power := by
  simp [zeroizeMain]

@[simp] theorem zeroizeRetention_keeps (s : State) :
    (zeroizeRetention s).1.pending = s.pending ∧ (zeroizeRetention s).1.power = s.power := by
  simp [zeroizeRetention]

@[simp] theorem zeroizeBoth_keeps (s : State) :
    (zeroizeBoth s).1.pending = s.pending ∧ (zeroizeBoth s).1.power = s.power := by
  simp [zeroizeBoth]

@[simp] theorem slotCommand_keeps (data : Bytes) (s : State) :
    (slotCommand data s).1.pending = s.pending ∧ (slotCommand data s).1.power = s.power := by
  unfold slotCommand; dsimp only; (repeat' split) <;> simp_all

@[simp] theorem staleOne_keeps (s : State) (e : Nat × KeySlot) :
    (staleOne s e).pending = s.pending ∧ (staleOne s e).power = s.power := by
  simp [staleOne]

@[simp] theorem deriveStart_keeps (s : State) :
    (deriveStart s).1.pending = s.pending ∧ (deriveStart s).1.power = s.power := by
  unfold deriveStart; (repeat' split) <;> simp

@[simp] theorem deriveCommand_keeps (data : Bytes) (s : State) :
    (deriveCommand data s).1.pending = s.pending ∧ (deriveCommand data s).1.power = s.power := by
  unfold deriveCommand; (repeat' split) <;> simp

@[simp] theorem commitTarget_keeps (s : State) (b : Batch) (d : KeyVal) :
    (commitTarget s b d).pending = s.pending ∧ (commitTarget s b d).power = s.power := by
  simp [commitTarget]

@[simp] theorem maskPool_keeps (n : Nat) (s : State) :
    ((maskPool n s).2).pending = s.pending ∧ ((maskPool n s).2).power = s.power := by
  induction n generalizing s with
  | zero => simp [maskPool]
  | succ n ih => unfold maskPool; simp [ih]

@[simp] theorem remaskRows_keeps (x1 : List W16) (x2 : Bytes) (x3 : State) :
    (remaskRows x1 x2 x3).pending = x3.pending ∧ (remaskRows x1 x2 x3).power = x3.power := by
  fun_induction remaskRows <;> simp_all

@[simp] theorem setDrbg_keeps (s : State) (d : Drbg) :
    (setDrbg s d).pending = s.pending ∧ (setDrbg s d).power = s.power := by
  simp [setDrbg]

@[simp] theorem startCollect_keeps (s : State) (phase : DrbgPhase) :
    (startCollect s phase).pending = s.pending ∧ (startCollect s phase).power = s.power := by
  simp [startCollect]

@[simp] theorem startInstantiation_keeps (s : State) (testsPass : Bool) :
    (startInstantiation s testsPass).pending = s.pending ∧ (startInstantiation s testsPass).power = s.power := by
  simp [startInstantiation]

@[simp] theorem drbgCommand_keeps (testsPass : Bool) (data : Bytes) (s : State) :
    (drbgCommand testsPass data s).1.pending = s.pending ∧ (drbgCommand testsPass data s).1.power = s.power := by
  unfold drbgCommand; (repeat' split) <;> simp

@[simp] theorem finishInstantiation_keeps (s : State) :
    (finishInstantiation s).pending = s.pending ∧ (finishInstantiation s).power = s.power := by
  unfold finishInstantiation; dsimp only; (repeat' split) <;> simp_all

@[simp] theorem finishReseed_keeps (s : State) :
    (finishReseed s).pending = s.pending ∧ (finishReseed s).power = s.power := by
  simp [finishReseed]

@[simp] theorem collectSample_keeps (s : State) (sample : W32) (need : Nat) (finish : State → State) (h : ∀ d0, (finish d0).pending = d0.pending ∧ (finish d0).power = d0.power) :
    (collectSample s sample need finish).pending = s.pending ∧ (collectSample s sample need finish).power = s.power := by
  simp [collectSample, h]

@[simp] theorem drbgOutput_keeps (s : State) :
    (drbgOutput s).1.pending = s.pending ∧ (drbgOutput s).1.power = s.power := by
  unfold drbgOutput; (repeat' split) <;> simp

@[simp] theorem writeKeysObj_keeps (au : Auth) (idx : Nat) (sub : Nat) (data : Bytes) (s : State) :
    (writeKeysObj au idx sub data s).1.pending = s.pending ∧ (writeKeysObj au idx sub data s).1.power = s.power := by
  unfold writeKeysObj; (repeat' split) <;> simp

@[simp] theorem keysLoseStore_keeps (s : State) :
    (keysLoseStore s).pending = s.pending ∧ (keysLoseStore s).power = s.power := by
  simp [keysLoseStore]

@[simp] theorem keysRestart_keeps (s : State) :
    (keysRestart s).pending = s.pending ∧ (keysRestart s).power = s.power := by
  simp [keysRestart]

end Sys2Proof.Machine
end

