-- ==== Sys2Proof/Laws/KeepFrames.lean ====
section
/-! SUPPORT. The frame path: what each operation leaves of the queue and of the power ladder. -/

namespace Sys2Proof.Machine

@[simp] theorem pushStamp_keeps (s : State) (e : Bytes) :
    (pushStamp s e).pending = s.pending ∧ (pushStamp s e).power = s.power := by
  simp [pushStamp]

@[simp] theorem settleIngress_keeps (s : State) (t : Stamps) (p : Nat) (bs : Bytes) :
    (settleIngress s t p bs).pending = s.pending ∧ (settleIngress s t p bs).power = s.power := by
  unfold settleIngress; (repeat' split) <;> simp

@[simp] theorem settleEgress_keeps (s : State) (t : Stamps) (p : Nat) (bs : Bytes) :
    (settleEgress s t p bs).pending = s.pending ∧ (settleEgress s t p bs).power = s.power := by
  unfold settleEgress; (repeat' split) <;> simp

@[simp] theorem setDir_keeps (s : State) (p : Nat) (side : Side) (d : ShimDir) :
    (setDir s p side d).pending = s.pending ∧ (setDir s p side d).power = s.power := by
  unfold setDir; (repeat' split) <;> simp

@[simp] theorem modLastOf_keeps (s : State) (p : Nat) (side : Side) (g : QFrame → QFrame) :
    (modLastOf s p side g).pending = s.pending ∧ (modLastOf s p side g).power = s.power := by
  simp [modLastOf]

@[simp] theorem endOpen_keeps (s : State) (p : Nat) (side : Side) (causes : List Tally) :
    (endOpen s p side causes).pending = s.pending ∧ (endOpen s p side causes).power = s.power := by
  unfold endOpen; dsimp only; (repeat' split) <;> simp_all

@[simp] theorem updateReady_keeps (s : State) (p : Nat) :
    (updateReady s p).pending = s.pending ∧ (updateReady s p).power = s.power := by
  simp [updateReady]

@[simp] theorem classifyTx_keeps (s : State) (p : Nat) (bs : Bytes) :
    (classifyTx s p bs).2.pending = s.pending ∧ (classifyTx s p bs).2.power = s.power := by
  unfold classifyTx; dsimp only; (repeat' split) <;> simp_all

@[simp] theorem protectTx_keeps (s : State) (p c : Nat) (f : QFrame) :
    ((protectTx s p c f).1).pending = s.pending ∧ ((protectTx s p c f).1).power = s.power := by
  have h := chooseTx_keeps s c
  unfold protectTx; dsimp only; (repeat' split) <;> simp_all

@[simp] theorem unmatchedFrame_keeps (s : State) (p : Nat) (f : QFrame) :
    (unmatchedFrame s p f).1.pending = s.pending ∧ (unmatchedFrame s p f).1.power = s.power := by
  unfold unmatchedFrame; (repeat' split) <;> simp

@[simp] theorem txHeader_keeps (s : State) (p : Nat) (f : QFrame) :
    ((txHeader s p f).1).pending = s.pending ∧ ((txHeader s p f).1).power = s.power := by
  have h := classifyTx_keeps s p f.bytes
  unfold txHeader; dsimp only
  split
  · simp
  · split
    · simp
    · split <;> rename_i e <;> rw [e] at h <;> (repeat' split) <;> simp_all

@[simp] theorem sciLookup_keeps (s : State) (p : Nat) (f : QFrame) :
    (sciLookup s p f).1.pending = s.pending ∧ (sciLookup s p f).1.power = s.power := by
  unfold sciLookup; dsimp only; (repeat' split) <;> simp_all

@[simp] theorem rxHeader_keeps (s : State) (p : Nat) (f : QFrame) :
    (rxHeader s p f).1.pending = s.pending ∧ (rxHeader s p f).1.power = s.power := by
  unfold rxHeader; dsimp only; (repeat' split) <;> simp_all

@[simp] theorem structuralError_keeps (s : State) (p : Nat) (side : Side) :
    (structuralError s p side).pending = s.pending ∧ (structuralError s p side).power = s.power := by
  simp [structuralError]

@[simp] theorem skipRest_keeps (s : State) (p : Nat) (side : Side) :
    (skipRest s p side).pending = s.pending ∧ (skipRest s p side).power = s.power := by
  simp [skipRest]

@[simp] theorem openFrame_keeps (s : State) (p : Nat) (side : Side) :
    (openFrame s p side).pending = s.pending ∧ (openFrame s p side).power = s.power := by
  simp [openFrame]

@[simp] theorem feedFrame_keeps (s : State) (p : Nat) (side : Side) (w : FrameWord) (f : QFrame) :
    (feedFrame s p side w f).1.pending = s.pending ∧ (feedFrame s p side w f).1.power = s.power := by
  unfold feedFrame; dsimp only; (repeat' split) <;> simp_all

@[simp] theorem feedLast_keeps (s : State) (p : Nat) (side : Side) (w : FrameWord) :
    (feedLast s p side w).pending = s.pending ∧ (feedLast s p side w).power = s.power := by
  unfold feedLast; (repeat' split) <;> simp

@[simp] theorem takeWord_keeps (s : State) (p : Nat) (side : Side) (w : FrameWord) :
    (takeWord s p side w).pending = s.pending ∧ (takeWord s p side w).power = s.power := by
  unfold takeWord; dsimp only; (repeat' split) <;> simp_all

@[simp] theorem acceptWord_keeps (p : Nat) (side : Side) (s : State) (w : FrameWord) :
    (acceptWord p side s w).pending = s.pending ∧ (acceptWord p side s w).power = s.power := by
  simp [acceptWord]

@[simp] theorem advancePn_keeps (s : State) (plan : CipherPlan) :
    (advancePn s plan).pending = s.pending ∧ (advancePn s plan).power = s.power := by
  simp [advancePn]

@[simp] theorem rxWatermark_keeps (s : State) (plan : CipherPlan) :
    (rxWatermark s plan).1.pending = s.pending ∧ (rxWatermark s plan).1.power = s.power := by
  unfold rxWatermark; dsimp only; (repeat' split) <;> simp_all

@[simp] theorem verdictSlot_keeps (s : State) (plan : CipherPlan) (row : Nat) :
    (verdictSlot s plan row).1.pending = s.pending ∧ (verdictSlot s plan row).1.power = s.power := by
  unfold verdictSlot; (repeat' split) <;> simp

@[simp] theorem judge_keeps (s : State) (p : Nat) (plan : CipherPlan) (f : QFrame) :
    (judge s p plan f).1.pending = s.pending ∧ (judge s p plan f).1.power = s.power := by
  unfold judge; dsimp only; (repeat' split) <;> simp_all

@[simp] theorem judgeFirst_keeps (s : State) (p : Nat) (l : List QFrame) :
    ((judgeFirst s p l).1).pending = s.pending ∧ ((judgeFirst s p l).1).power = s.power := by
  induction l with
  | nil => simp [judgeFirst]
  | cons f fs ih => unfold judgeFirst; (repeat' split) <;> simp [ih]

@[simp] theorem applyTally_keeps (p : Nat) (s : State) (x1 : Tally) :
    (applyTally p s x1).pending = s.pending ∧ (applyTally p s x1).power = s.power := by
  unfold applyTally; (repeat' split) <;> simp

@[simp] theorem settleTallies_keeps (s : State) (p : Nat) (f : QFrame) :
    (settleTallies s p f).pending = s.pending ∧ (settleTallies s p f).power = s.power := by
  unfold settleTallies; (repeat' split) <;> simp

@[simp] theorem learnFrom_keeps (s : State) (p : Nat) (f : QFrame) (bs : Bytes) :
    (learnFrom s p f bs).pending = s.pending ∧ (learnFrom s p f bs).power = s.power := by
  simp [learnFrom]

@[simp] theorem settleSent_keeps (s : State) (p : Nat) (f : QFrame) :
    (settleSent s p f).pending = s.pending ∧ (settleSent s p f).power = s.power := by
  unfold settleSent; (repeat' split) <;> simp

@[simp] theorem settleDelivered_keeps (s : State) (p : Nat) (f : QFrame) :
    (settleDelivered s p f).pending = s.pending ∧ (settleDelivered s p f).power = s.power := by
  simp [settleDelivered]

@[simp] theorem popFrame_keeps (s : State) (p : Nat) (side : Side) (out : Option OutFrame) (ended : Bool) :
    (popFrame s p side out ended).pending = s.pending ∧ (popFrame s p side out ended).power = s.power := by
  simp [popFrame]

@[simp] theorem settleFirst_keeps (s : State) (p : Nat) (side : Side) (f : QFrame) :
    (settleFirst s p side f).pending = s.pending ∧ (settleFirst s p side f).power = s.power := by
  unfold settleFirst; (repeat' split) <;> simp

@[simp] theorem enterStuck_keeps (s : State) (p : Nat) (side : Side) :
    (enterStuck s p side).pending = s.pending ∧ (enterStuck s p side).power = s.power := by
  simp [enterStuck]

@[simp] theorem boundaryOf_keeps (s : State) (c : Nat) (bound : Nat) :
    (boundaryOf s c bound).pending = s.pending ∧ (boundaryOf s c bound).power = s.power := by
  simp [boundaryOf]

@[simp] theorem stepBoundaries_keeps (s : State) :
    (stepBoundaries s).pending = s.pending ∧ (stepBoundaries s).power = s.power := by
  simp [stepBoundaries]

@[simp] theorem disableDir_keeps (s : State) (p : Nat) (side : Side) :
    (disableDir s p side).pending = s.pending ∧ (disableDir s p side).power = s.power := by
  simp [disableDir]

@[simp] theorem disablePort_keeps (s : State) (p : Nat) :
    (disablePort s p).pending = s.pending ∧ (disablePort s p).power = s.power := by
  simp [disablePort]

@[simp] theorem writePortControl_keeps (p : Nat) (v : W64) (s : State) :
    (writePortControl p v s).1.pending = s.pending ∧ (writePortControl p v s).1.power = s.power := by
  unfold writePortControl; (repeat' split) <;> simp

@[simp] theorem writePortObj_keeps (idx : Nat) (sub : Nat) (data : Bytes) (s : State) :
    (writePortObj idx sub data s).1.pending = s.pending ∧ (writePortObj idx sub data s).1.power = s.power := by
  unfold writePortObj; (repeat' split) <;> simp

@[simp] theorem dropFrames_keeps (s : State) :
    (dropFrames s).pending = s.pending ∧ (dropFrames s).power = s.power := by
  simp [dropFrames]

end Sys2Proof.Machine
end

