-- ==== Sys2Proof/Laws/KeepMemory.lean ====
section
/-! SUPPORT. The Memory Guard: what each operation leaves of the queue and of the power ladder. -/

namespace Sys2Proof.Machine

@[simp] theorem addPoison_keeps (s : State) (p : PoisonEntry) :
    (addPoison s p).pending = s.pending ∧ (addPoison s p).power = s.power := by
  unfold addPoison; (repeat' split) <;> simp

@[simp] theorem poisonRegion_keeps (s : State) (r : Region) :
    (poisonRegion s r).pending = s.pending ∧ (poisonRegion s r).power = s.power := by
  simp [poisonRegion]

@[simp] theorem setCache_keeps (s : State) (n : Nat) (l : CacheLine) :
    (setCache s n l).pending = s.pending ∧ (setCache s n l).power = s.power := by
  simp [setCache]

@[simp] theorem touchPlace_keeps (s : State) (n : Nat) :
    (touchPlace s n).pending = s.pending ∧ (touchPlace s n).power = s.power := by
  simp [touchPlace]

@[simp] theorem appendOp_keeps (s : State) (k : Chan) (op : MemOp) :
    (appendOp s k op).pending = s.pending ∧ (appendOp s k op).power = s.power := by
  simp [appendOp]

@[simp] theorem putOp_keeps (s : State) (k : Chan) (op : MemOp) :
    (putOp s k op).pending = s.pending ∧ (putOp s k op).power = s.power := by
  simp [putOp]

@[simp] theorem dropOp_keeps (s : State) (k : Chan) (seq : Nat) :
    (dropOp s k seq).pending = s.pending ∧ (dropOp s k seq).power = s.power := by
  simp [dropOp]

@[simp] theorem startEviction_keeps (s : State) (n : Nat) (cause : OpCause) :
    (startEviction s n cause).pending = s.pending ∧ (startEviction s n cause).power = s.power := by
  unfold startEviction; (repeat' split) <;> simp

theorem gathered_still {a0 : State} {op : MemOp} {a : Nat} : Still a0 (gathered op a) := by
  unfold gathered
  repeat' first
    | with_reducible exact still_pure _
    | with_reducible exact still_throw _
    | with_reducible refine still_get (fun s hs => ?_)
    | with_reducible refine still_set ?_
    | with_reducible refine still_mod (fun s => ?_)
    | with_reducible refine still_try ?_ (fun e => ?_)
    | with_reducible refine still_bind ?_ (fun x => ?_)
    | split

theorem stored_still {a0 : State} {op : MemOp} {a : Nat} : Still a0 (stored op a) := by
  unfold stored
  repeat' first
    | with_reducible exact still_pure _
    | with_reducible exact still_throw _
    | with_reducible refine still_get (fun s hs => ?_)
    | with_reducible refine still_set ?_
    | with_reducible refine still_mod (fun s => ?_)
    | with_reducible refine still_try ?_ (fun e => ?_)
    | with_reducible refine still_bind ?_ (fun x => ?_)
    | split

theorem optional_still {a0 : State} {α : Type} {x : Ev α} (h : Still a0 x) : Still a0 (optional x) := by
  unfold optional
  repeat' first
    | with_reducible exact still_pure _
    | with_reducible exact still_throw _
    | with_reducible exact h
    | with_reducible refine still_get (fun s hs => ?_)
    | with_reducible refine still_set ?_
    | with_reducible refine still_mod (fun s => ?_)
    | with_reducible refine still_try ?_ (fun e => ?_)
    | with_reducible refine still_bind ?_ (fun x => ?_)
    | split

theorem fillLine_still {a0 : State} {cause : OpCause} {l : CacheLine} : Still a0 (fillLine cause l) := by
  unfold fillLine
  repeat' first
    | with_reducible exact still_pure _
    | with_reducible exact still_throw _
    | with_reducible refine still_get (fun s hs => ?_)
    | with_reducible refine still_set ?_
    | with_reducible refine still_mod (fun s => ?_)
    | with_reducible refine still_try ?_ (fun e => ?_)
    | with_reducible refine still_bind ?_ (fun x => ?_)
    | split
    | dsimp only
  all_goals simp_all [Same]

theorem noteFault_still {a0 : State} {c : RegionCfg} {op : MemOp} {key : Nat} {g : State → State} (h : ∀ s, (g s).pending = s.pending ∧ (g s).power = s.power) : Still a0 (noteFault c op key g) := by
  unfold noteFault
  repeat' first
    | with_reducible exact still_pure _
    | with_reducible exact still_throw _
    | with_reducible exact h
    | with_reducible refine still_get (fun s hs => ?_)
    | with_reducible refine still_set ?_
    | with_reducible refine still_mod (fun s => ?_)
    | with_reducible refine still_try ?_ (fun e => ?_)
    | with_reducible refine still_bind ?_ (fun x => ?_)
    | split
    | dsimp only
  all_goals simp_all

theorem notedOnce_still {a0 : State} {c : RegionCfg} {op : MemOp} {a : Nat} : Still a0 (notedOnce c op a) := by
  unfold notedOnce
  repeat' first
    | with_reducible exact still_pure _
    | with_reducible exact still_throw _
    | with_reducible refine noteFault_still (fun s => ?_)
    | with_reducible refine still_get (fun s hs => ?_)
    | with_reducible refine still_set ?_
    | with_reducible refine still_mod (fun s => ?_)
    | with_reducible refine still_try ?_ (fun e => ?_)
    | with_reducible refine still_bind ?_ (fun x => ?_)
    | split
    | dsimp only
  all_goals simp_all

theorem integrityFault_still {a0 : State} {c : RegionCfg} {op : MemOp} {a : Nat} : Still a0 (integrityFault c op a) := by
  unfold integrityFault
  repeat' first
    | with_reducible exact still_pure _
    | with_reducible exact still_throw _
    | with_reducible refine noteFault_still (fun s => ?_)
    | with_reducible refine still_get (fun s hs => ?_)
    | with_reducible refine still_set ?_
    | with_reducible refine still_mod (fun s => ?_)
    | with_reducible refine still_try ?_ (fun e => ?_)
    | with_reducible refine still_bind ?_ (fun x => ?_)
    | split
    | dsimp only
  all_goals simp_all

theorem tagLine_still {a0 : State} {c : RegionCfg} {op : MemOp} {a : Nat} {kind : LineKind} : Still a0 (tagLine c op a kind) := by
  unfold tagLine
  repeat' first
    | with_reducible exact still_pure _
    | with_reducible exact still_throw _
    | with_reducible exact gathered_still
    | with_reducible exact fillLine_still
    | with_reducible exact notedOnce_still
    | with_reducible refine still_get (fun s hs => ?_)
    | with_reducible refine still_set ?_
    | with_reducible refine still_mod (fun s => ?_)
    | with_reducible refine still_try ?_ (fun e => ?_)
    | with_reducible refine still_bind ?_ (fun x => ?_)
    | split

theorem asPoison_still {a0 : State} {level : Nat} {j : Nat} {x : Ev Line} (h : Still a0 x) : Still a0 (asPoison level j x) := by
  unfold asPoison
  repeat' first
    | with_reducible exact still_pure _
    | with_reducible exact still_throw _
    | with_reducible exact h
    | with_reducible refine still_get (fun s hs => ?_)
    | with_reducible refine still_set ?_
    | with_reducible refine still_mod (fun s => ?_)
    | with_reducible refine still_try ?_ (fun e => ?_)
    | with_reducible refine still_bind ?_ (fun x => ?_)
    | split

theorem liveKey_still {a0 : State} {k : W16} : Still a0 (liveKey k) := by
  unfold liveKey
  repeat' first
    | with_reducible exact still_pure _
    | with_reducible exact still_throw _
    | with_reducible refine still_get (fun s hs => ?_)
    | with_reducible refine still_set ?_
    | with_reducible refine still_mod (fun s => ?_)
    | with_reducible refine still_try ?_ (fun e => ?_)
    | with_reducible refine still_bind ?_ (fun x => ?_)
    | split

theorem lineLive_still {a0 : State} {c : RegionCfg} {i : Nat} : Still a0 (lineLive c i) := by
  unfold lineLive
  repeat' first
    | with_reducible exact still_pure _
    | with_reducible exact still_throw _
    | with_reducible exact liveKey_still
    | with_reducible refine still_get (fun s hs => ?_)
    | with_reducible refine still_set ?_
    | with_reducible refine still_mod (fun s => ?_)
    | with_reducible refine still_try ?_ (fun e => ?_)
    | with_reducible refine still_bind ?_ (fun x => ?_)
    | split

theorem nodeLive_still {a0 : State} {c : RegionCfg} {level : Nat} {j : Nat} : Still a0 (nodeLive c level j) := by
  unfold nodeLive
  repeat' first
    | with_reducible exact still_pure _
    | with_reducible exact still_throw _
    | with_reducible exact liveKey_still
    | with_reducible refine still_get (fun s hs => ?_)
    | with_reducible refine still_set ?_
    | with_reducible refine still_mod (fun s => ?_)
    | with_reducible refine still_try ?_ (fun e => ?_)
    | with_reducible refine still_bind ?_ (fun x => ?_)
    | split

theorem fetchNode_still {a0 : State} {c : RegionCfg} {op : MemOp} {x1 : Nat} {x2 : Nat} {x3 : Nat} : Still a0 (fetchNode c op x1 x2 x3) := by
  induction x1 generalizing x2 x3 with
  | zero => unfold fetchNode; exact still_get (fun s hs => still_pure _)
  | succ n ih =>
  unfold fetchNode
  repeat' first
    | exact ih
    | with_reducible exact still_pure _
    | with_reducible exact still_throw _
    | with_reducible exact gathered_still
    | with_reducible exact fillLine_still
    | with_reducible exact notedOnce_still
    | with_reducible exact tagLine_still
    | with_reducible refine asPoison_still ?_
    | with_reducible exact nodeLive_still
    | with_reducible refine still_get (fun s hs => ?_)
    | with_reducible refine still_set ?_
    | with_reducible refine still_mod (fun s => ?_)
    | with_reducible refine still_try ?_ (fun e => ?_)
    | with_reducible refine still_bind ?_ (fun x => ?_)
    | split
    | dsimp only
  all_goals simp_all [Same]

theorem nodeOf_still {a0 : State} {c : RegionCfg} {op : MemOp} {level : Nat} {j : Nat} : Still a0 (nodeOf c op level j) := by
  unfold nodeOf
  repeat' first
    | with_reducible exact still_pure _
    | with_reducible exact still_throw _
    | with_reducible exact fetchNode_still

theorem storeNode_still {a0 : State} {c : RegionCfg} {cause : OpCause} {level : Nat} {j : Nat} {d : Line} : Still a0 (storeNode c cause level j d) := by
  unfold storeNode
  repeat' first
    | with_reducible exact still_pure _
    | with_reducible exact still_throw _
    | with_reducible exact fillLine_still
    | with_reducible refine still_get (fun s hs => ?_)
    | with_reducible refine still_set ?_
    | with_reducible refine still_mod (fun s => ?_)
    | with_reducible refine still_try ?_ (fun e => ?_)
    | with_reducible refine still_bind ?_ (fun x => ?_)
    | split
    | dsimp only
  all_goals simp_all

theorem nextMinor_still {a0 : State} {level : Nat} {j : Nat} {d : Line} {k : Nat} : Still a0 (nextMinor level j d k) := by
  unfold nextMinor
  repeat' first
    | with_reducible exact still_pure _
    | with_reducible exact still_throw _
    | with_reducible refine still_get (fun s hs => ?_)
    | with_reducible refine still_set ?_
    | with_reducible refine still_mod (fun s => ?_)
    | with_reducible refine still_try ?_ (fun e => ?_)
    | with_reducible refine still_bind ?_ (fun x => ?_)
    | split

theorem beside_still {a0 : State} {op : MemOp} {a : Nat} {x : Ev Line} (h : Still a0 x) : Still a0 (beside op a x) := by
  unfold beside
  repeat' first
    | with_reducible exact still_pure _
    | with_reducible exact still_throw _
    | with_reducible exact h
    | with_reducible refine still_get (fun s hs => ?_)
    | with_reducible refine still_set ?_
    | with_reducible refine still_mod (fun s => ?_)
    | with_reducible refine still_try ?_ (fun e => ?_)
    | with_reducible refine still_bind ?_ (fun x => ?_)
    | split

theorem readProtected_still {a0 : State} {c : RegionCfg} {op : MemOp} {i : Nat} : Still a0 (readProtected c op i) := by
  unfold readProtected
  repeat' first
    | with_reducible exact still_pure _
    | with_reducible exact still_throw _
    | with_reducible exact gathered_still
    | with_reducible exact notedOnce_still
    | with_reducible exact tagLine_still
    | with_reducible exact lineLive_still
    | with_reducible exact nodeOf_still
    | with_reducible refine beside_still ?_
    | with_reducible refine still_get (fun s hs => ?_)
    | with_reducible refine still_set ?_
    | with_reducible refine still_mod (fun s => ?_)
    | with_reducible refine still_try ?_ (fun e => ?_)
    | with_reducible refine still_bind ?_ (fun x => ?_)
    | split
    | dsimp only
  all_goals simp_all

theorem readEncrypted_still {a0 : State} {c : RegionCfg} {op : MemOp} {i : Nat} : Still a0 (readEncrypted c op i) := by
  unfold readEncrypted
  repeat' first
    | with_reducible exact still_pure _
    | with_reducible exact still_throw _
    | with_reducible exact gathered_still
    | with_reducible exact notedOnce_still
    | with_reducible exact lineLive_still
    | with_reducible refine still_get (fun s hs => ?_)
    | with_reducible refine still_set ?_
    | with_reducible refine still_mod (fun s => ?_)
    | with_reducible refine still_try ?_ (fun e => ?_)
    | with_reducible refine still_bind ?_ (fun x => ?_)

theorem placeDataTag_still {a0 : State} {c : RegionCfg} {op : MemOp} {i : Nat} {t : W64} : Still a0 (placeDataTag c op i t) := by
  unfold placeDataTag
  repeat' first
    | with_reducible exact still_pure _
    | with_reducible exact still_throw _
    | with_reducible exact fillLine_still
    | with_reducible exact tagLine_still
    | with_reducible refine still_get (fun s hs => ?_)
    | with_reducible refine still_set ?_
    | with_reducible refine still_mod (fun s => ?_)
    | with_reducible refine still_try ?_ (fun e => ?_)
    | with_reducible refine still_bind ?_ (fun x => ?_)

theorem placeNodeTag_still {a0 : State} {c : RegionCfg} {op : MemOp} {level : Nat} {j : Nat} {t : W64} : Still a0 (placeNodeTag c op level j t) := by
  unfold placeNodeTag
  repeat' first
    | with_reducible exact still_pure _
    | with_reducible exact still_throw _
    | with_reducible exact fillLine_still
    | with_reducible exact tagLine_still
    | with_reducible refine still_get (fun s hs => ?_)
    | with_reducible refine still_set ?_
    | with_reducible refine still_mod (fun s => ?_)
    | with_reducible refine still_try ?_ (fun e => ?_)
    | with_reducible refine still_bind ?_ (fun x => ?_)

theorem writeAnswer_still {a0 : State} {op : MemOp} {a : Nat} : Still a0 (writeAnswer op a) := by
  unfold writeAnswer
  repeat' first
    | with_reducible exact still_pure _
    | with_reducible exact still_throw _
    | with_reducible refine still_get (fun s hs => ?_)
    | with_reducible refine still_set ?_
    | with_reducible refine still_mod (fun s => ?_)
    | with_reducible refine still_try ?_ (fun e => ?_)
    | with_reducible refine still_bind ?_ (fun x => ?_)
    | split

theorem writePlain_still {a0 : State} {full : Bool} {old : Ev Line} {d : Line} {mask : W64} (h : Still a0 old) : Still a0 (writePlain full old d mask) := by
  unfold writePlain
  repeat' first
    | with_reducible exact still_pure _
    | with_reducible exact still_throw _
    | with_reducible exact h
    | with_reducible refine still_get (fun s hs => ?_)
    | with_reducible refine still_set ?_
    | with_reducible refine still_mod (fun s => ?_)
    | with_reducible refine still_try ?_ (fun e => ?_)
    | with_reducible refine still_bind ?_ (fun x => ?_)
    | split

theorem writeProtected_still {a0 : State} {c : RegionCfg} {op : MemOp} {i : Nat} {d : Line} {mask : W64} : Still a0 (writeProtected c op i d mask) := by
  unfold writeProtected
  repeat' first
    | with_reducible exact still_pure _
    | with_reducible exact still_throw _
    | with_reducible exact lineLive_still
    | with_reducible exact nodeOf_still
    | with_reducible exact storeNode_still
    | with_reducible exact nextMinor_still
    | with_reducible exact readProtected_still
    | with_reducible exact placeDataTag_still
    | with_reducible exact writeAnswer_still
    | with_reducible refine writePlain_still ?_
    | with_reducible refine still_get (fun s hs => ?_)
    | with_reducible refine still_set ?_
    | with_reducible refine still_mod (fun s => ?_)
    | with_reducible refine still_try ?_ (fun e => ?_)
    | with_reducible refine still_bind ?_ (fun x => ?_)
    | split

theorem writeEncrypted_still {a0 : State} {c : RegionCfg} {op : MemOp} {i : Nat} {d : Line} {mask : W64} : Still a0 (writeEncrypted c op i d mask) := by
  unfold writeEncrypted
  repeat' first
    | with_reducible exact still_pure _
    | with_reducible exact still_throw _
    | with_reducible exact lineLive_still
    | with_reducible exact readEncrypted_still
    | with_reducible exact writeAnswer_still
    | with_reducible refine writePlain_still ?_
    | with_reducible refine still_get (fun s hs => ?_)
    | with_reducible refine still_set ?_
    | with_reducible refine still_mod (fun s => ?_)
    | with_reducible refine still_try ?_ (fun e => ?_)
    | with_reducible refine still_bind ?_ (fun x => ?_)
    | split

theorem readRegion_still {a0 : State} {c : RegionCfg} {op : MemOp} {i : Nat} : Still a0 (readRegion c op i) := by
  unfold readRegion
  repeat' first
    | with_reducible exact still_pure _
    | with_reducible exact still_throw _
    | with_reducible exact readProtected_still
    | with_reducible exact readEncrypted_still
    | with_reducible refine still_get (fun s hs => ?_)
    | with_reducible refine still_set ?_
    | with_reducible refine still_mod (fun s => ?_)
    | with_reducible refine still_try ?_ (fun e => ?_)
    | with_reducible refine still_bind ?_ (fun x => ?_)
    | split

theorem countPlain_still {a0 : State} {k : Chan} {op : MemOp} {key : Nat} : Still a0 (countPlain k op key) := by
  unfold countPlain
  repeat' first
    | with_reducible exact still_pure _
    | with_reducible exact still_throw _
    | with_reducible refine still_get (fun s hs => ?_)
    | with_reducible refine still_set ?_
    | with_reducible refine still_mod (fun s => ?_)
    | with_reducible refine still_try ?_ (fun e => ?_)
    | with_reducible refine still_bind ?_ (fun x => ?_)
    | split
    | dsimp only
  all_goals simp_all

theorem bypass_still {a0 : State} {k : Chan} {op : MemOp} : Still a0 (bypass k op) := by
  unfold bypass
  repeat' first
    | with_reducible exact still_pure _
    | with_reducible exact still_throw _
    | with_reducible exact gathered_still
    | with_reducible exact writeAnswer_still
    | with_reducible exact countPlain_still
    | with_reducible refine still_get (fun s hs => ?_)
    | with_reducible refine still_set ?_
    | with_reducible refine still_mod (fun s => ?_)
    | with_reducible refine still_try ?_ (fun e => ?_)
    | with_reducible refine still_bind ?_ (fun x => ?_)
    | split

theorem issueBack_still {a0 : State} {op : MemOp} {l : CacheLine} : Still a0 (issueBack op l) := by
  unfold issueBack
  repeat' first
    | with_reducible exact still_pure _
    | with_reducible exact still_throw _
    | with_reducible exact fillLine_still
    | with_reducible refine still_get (fun s hs => ?_)
    | with_reducible refine still_set ?_
    | with_reducible refine still_mod (fun s => ?_)
    | with_reducible refine still_try ?_ (fun e => ?_)
    | with_reducible refine still_bind ?_ (fun x => ?_)

theorem evict_still {a0 : State} {c : RegionCfg} {op : MemOp} {kind : LineKind} : Still a0 (evict c op kind) := by
  unfold evict
  repeat' first
    | with_reducible exact still_pure _
    | with_reducible exact still_throw _
    | with_reducible exact nodeLive_still
    | with_reducible exact nodeOf_still
    | with_reducible exact storeNode_still
    | with_reducible exact nextMinor_still
    | with_reducible exact placeNodeTag_still
    | with_reducible exact issueBack_still
    | with_reducible refine still_get (fun s hs => ?_)
    | with_reducible refine still_set ?_
    | with_reducible refine still_mod (fun s => ?_)
    | with_reducible refine still_try ?_ (fun e => ?_)
    | with_reducible refine still_bind ?_ (fun x => ?_)
    | split
    | dsimp only
  all_goals simp_all [Same]

theorem renormLine_still {a0 : State} {c : RegionCfg} {op : MemOp} {old : Line} {i : Nat} : Still a0 (renormLine c op old i) := by
  unfold renormLine
  repeat' first
    | with_reducible exact still_pure _
    | with_reducible exact still_throw _
    | with_reducible exact stored_still
    | with_reducible refine optional_still ?_
    | with_reducible exact notedOnce_still
    | with_reducible exact integrityFault_still
    | with_reducible exact tagLine_still
    | with_reducible exact lineLive_still
    | with_reducible refine still_get (fun s hs => ?_)
    | with_reducible refine still_set ?_
    | with_reducible refine still_mod (fun s => ?_)
    | with_reducible refine still_try ?_ (fun e => ?_)
    | with_reducible refine still_bind ?_ (fun x => ?_)
    | split
    | dsimp only

theorem renormNode_still {a0 : State} {c : RegionCfg} {op : MemOp} {old : Line} {level : Nat} {j : Nat} : Still a0 (renormNode c op old level j) := by
  unfold renormNode
  repeat' first
    | with_reducible exact still_pure _
    | with_reducible exact still_throw _
    | with_reducible exact stored_still
    | with_reducible refine optional_still ?_
    | with_reducible exact notedOnce_still
    | with_reducible exact tagLine_still
    | with_reducible exact nodeLive_still
    | with_reducible refine still_get (fun s hs => ?_)
    | with_reducible refine still_set ?_
    | with_reducible refine still_mod (fun s => ?_)
    | with_reducible refine still_try ?_ (fun e => ?_)
    | with_reducible refine still_bind ?_ (fun x => ?_)
    | split
    | dsimp only
  all_goals simp_all [Same]

theorem renormChild_still {a0 : State} {c : RegionCfg} {op : MemOp} {old : Line} {level : Nat} {j : Nat} : Still a0 (renormChild c op old level j) := by
  unfold renormChild
  repeat' first
    | with_reducible exact still_pure _
    | with_reducible exact still_throw _
    | with_reducible exact renormLine_still
    | with_reducible exact renormNode_still
    | with_reducible refine still_get (fun s hs => ?_)
    | with_reducible refine still_set ?_
    | with_reducible refine still_mod (fun s => ?_)
    | with_reducible refine still_try ?_ (fun e => ?_)
    | with_reducible refine still_bind ?_ (fun x => ?_)
    | split

theorem renormChildren_still {a0 : State} {c : RegionCfg} {op : MemOp} {old : Line} {level : Nat} {x1 : List Nat} {x2 : Sparse Line} : Still a0 (renormChildren c op old level x1 x2) := by
  induction x1 generalizing x2 with
  | nil => unfold renormChildren; exact still_pure _
  | cons j js ih =>
  unfold renormChildren
  repeat' first
    | exact ih
    | with_reducible exact still_pure _
    | with_reducible exact still_throw _
    | with_reducible refine optional_still ?_
    | with_reducible exact tagLine_still
    | with_reducible exact renormChild_still
    | with_reducible refine still_get (fun s hs => ?_)
    | with_reducible refine still_set ?_
    | with_reducible refine still_mod (fun s => ?_)
    | with_reducible refine still_try ?_ (fun e => ?_)
    | with_reducible refine still_bind ?_ (fun x => ?_)
    | split

theorem renormalise_still {a0 : State} {c : RegionCfg} {op : MemOp} {level : Nat} {j : Nat} : Still a0 (renormalise c op level j) := by
  unfold renormalise
  repeat' first
    | with_reducible exact still_pure _
    | with_reducible exact still_throw _
    | with_reducible exact nodeOf_still
    | with_reducible exact renormChildren_still
    | with_reducible refine still_get (fun s hs => ?_)
    | with_reducible refine still_set ?_
    | with_reducible refine still_mod (fun s => ?_)
    | with_reducible refine still_try ?_ (fun e => ?_)
    | with_reducible refine still_bind ?_ (fun x => ?_)
    | split

@[simp] theorem setRun_keeps (s : State) (r : Region) (run : RegionRun) :
    (setRun s r run).pending = s.pending ∧ (setRun s r run).power = s.power := by
  simp [setRun]

theorem sweepZero_still {a0 : State} {c : RegionCfg} {op : MemOp} {run : RegionRun} {runs : List (ZeroLine × Nat)} {item : Nat} : Still a0 (sweepZero c op run runs item) := by
  unfold sweepZero
  repeat' first
    | with_reducible exact still_pure _
    | with_reducible exact still_throw _
    | with_reducible exact liveKey_still
    | with_reducible refine still_get (fun s hs => ?_)
    | with_reducible refine still_set ?_
    | with_reducible refine still_mod (fun s => ?_)
    | with_reducible refine still_try ?_ (fun e => ?_)
    | with_reducible refine still_bind ?_ (fun x => ?_)
    | split
    | dsimp only
  all_goals simp_all [Same]

theorem reseedEntry_still {a0 : State} {c : RegionCfg} {op : MemOp} {run : RegionRun} {level : Nat} {node : Nat} : Still a0 (reseedEntry c op run level node) := by
  unfold reseedEntry
  repeat' first
    | with_reducible exact still_pure _
    | with_reducible exact still_throw _
    | with_reducible exact liveKey_still
    | with_reducible exact nodeOf_still
    | with_reducible exact storeNode_still
    | with_reducible exact nextMinor_still
    | with_reducible exact placeNodeTag_still
    | with_reducible refine still_get (fun s hs => ?_)
    | with_reducible refine still_set ?_
    | with_reducible refine still_mod (fun s => ?_)
    | with_reducible refine still_try ?_ (fun e => ?_)
    | with_reducible refine still_bind ?_ (fun x => ?_)
    | split
    | dsimp only
  all_goals simp_all [Same]

theorem softly_still {a0 : State} {r : Region} {x : Ev Line} (h : Still a0 x) : Still a0 (softly r x) := by
  unfold softly
  repeat' first
    | with_reducible exact still_pure _
    | with_reducible exact still_throw _
    | with_reducible exact h
    | with_reducible refine still_get (fun s hs => ?_)
    | with_reducible refine still_set ?_
    | with_reducible refine still_mod (fun s => ?_)
    | with_reducible refine still_try ?_ (fun e => ?_)
    | with_reducible refine still_bind ?_ (fun x => ?_)
    | split
    | dsimp only
  all_goals simp_all

theorem rekeyReady_still {a0 : State} {c : RegionCfg} {op : MemOp} {i : Nat} {x1 : List Nat} : Still a0 (rekeyReady c op i x1) := by
  induction x1 with
  | nil => unfold rekeyReady; exact still_pure _
  | cons j js ih =>
  unfold rekeyReady
  repeat' first
    | exact ih
    | with_reducible exact still_pure _
    | with_reducible exact still_throw _
    | with_reducible refine optional_still ?_
    | with_reducible exact tagLine_still
    | with_reducible exact nodeOf_still
    | with_reducible refine softly_still ?_
    | with_reducible refine still_get (fun s hs => ?_)
    | with_reducible refine still_set ?_
    | with_reducible refine still_mod (fun s => ?_)
    | with_reducible refine still_try ?_ (fun e => ?_)
    | with_reducible refine still_bind ?_ (fun x => ?_)
    | split
    | dsimp only

theorem rekeyNodes_still {a0 : State} {c : RegionCfg} {op : MemOp} {i : Nat} {k : KeyVal} {x1 : List Nat} : Still a0 (rekeyNodes c op i k x1) := by
  induction x1 with
  | nil => unfold rekeyNodes; exact still_pure _
  | cons j js ih =>
  unfold rekeyNodes
  repeat' first
    | exact ih
    | with_reducible exact still_pure _
    | with_reducible exact still_throw _
    | with_reducible refine optional_still ?_
    | with_reducible exact fillLine_still
    | with_reducible exact tagLine_still
    | with_reducible exact nodeOf_still
    | with_reducible refine softly_still ?_
    | with_reducible refine still_get (fun s hs => ?_)
    | with_reducible refine still_set ?_
    | with_reducible refine still_mod (fun s => ?_)
    | with_reducible refine still_try ?_ (fun e => ?_)
    | with_reducible refine still_bind ?_ (fun x => ?_)
    | split
    | dsimp only

theorem advanceRekey_still {a0 : State} {c : RegionCfg} {op : MemOp} {run : RegionRun} {i : Nat} : Still a0 (advanceRekey c op run i) := by
  unfold advanceRekey
  repeat' first
    | with_reducible exact still_pure _
    | with_reducible exact still_throw _
    | with_reducible exact rekeyNodes_still
    | with_reducible refine still_get (fun s hs => ?_)
    | with_reducible refine still_set ?_
    | with_reducible refine still_mod (fun s => ?_)
    | with_reducible refine still_try ?_ (fun e => ?_)
    | with_reducible refine still_bind ?_ (fun x => ?_)
    | split
    | dsimp only
  all_goals simp_all [Same]

theorem rekeyProtected_still {a0 : State} {c : RegionCfg} {op : MemOp} {run : RegionRun} {i : Nat} {key : Option KeyVal} {nk : KeyVal} {n1 : Line} : Still a0 (rekeyProtected c op run i key nk n1) := by
  unfold rekeyProtected
  repeat' first
    | with_reducible exact still_pure _
    | with_reducible exact still_throw _
    | with_reducible exact stored_still
    | with_reducible refine optional_still ?_
    | with_reducible exact notedOnce_still
    | with_reducible exact integrityFault_still
    | with_reducible exact tagLine_still
    | with_reducible refine still_get (fun s hs => ?_)
    | with_reducible refine still_set ?_
    | with_reducible refine still_mod (fun s => ?_)
    | with_reducible refine still_try ?_ (fun e => ?_)
    | with_reducible refine still_bind ?_ (fun x => ?_)
    | split
    | dsimp only

theorem rekeyTag_still {a0 : State} {c : RegionCfg} {op : MemOp} {i : Nat} {t : W64} : Still a0 (rekeyTag c op i t) := by
  unfold rekeyTag
  repeat' first
    | with_reducible exact still_pure _
    | with_reducible exact still_throw _
    | with_reducible refine optional_still ?_
    | with_reducible exact fillLine_still
    | with_reducible exact tagLine_still
    | with_reducible refine still_get (fun s hs => ?_)
    | with_reducible refine still_set ?_
    | with_reducible refine still_mod (fun s => ?_)
    | with_reducible refine still_try ?_ (fun e => ?_)
    | with_reducible refine still_bind ?_ (fun x => ?_)

theorem rekeyLine3_still {a0 : State} {c : RegionCfg} {op : MemOp} {run : RegionRun} {i : Nat} {key : Option KeyVal} {nk : KeyVal} : Still a0 (rekeyLine3 c op run i key nk) := by
  unfold rekeyLine3
  repeat' first
    | with_reducible exact still_pure _
    | with_reducible exact still_throw _
    | with_reducible exact integrityFault_still
    | with_reducible exact nodeOf_still
    | with_reducible refine softly_still ?_
    | with_reducible exact rekeyReady_still
    | with_reducible exact advanceRekey_still
    | with_reducible exact rekeyProtected_still
    | with_reducible refine still_get (fun s hs => ?_)
    | with_reducible refine still_set ?_
    | with_reducible refine still_mod (fun s => ?_)
    | with_reducible refine still_try ?_ (fun e => ?_)
    | with_reducible refine still_bind ?_ (fun x => ?_)
    | split
    | dsimp only
  all_goals simp_all [Same]

theorem rekeyLine2_still {a0 : State} {c : RegionCfg} {op : MemOp} {i : Nat} {key : Option KeyVal} {nk : KeyVal} : Still a0 (rekeyLine2 c op i key nk) := by
  unfold rekeyLine2
  repeat' first
    | with_reducible exact still_pure _
    | with_reducible exact still_throw _
    | with_reducible exact stored_still
    | with_reducible exact notedOnce_still
    | with_reducible exact integrityFault_still
    | with_reducible refine still_get (fun s hs => ?_)
    | with_reducible refine still_set ?_
    | with_reducible refine still_mod (fun s => ?_)
    | with_reducible refine still_try ?_ (fun e => ?_)
    | with_reducible refine still_bind ?_ (fun x => ?_)
    | split

theorem sweepRekey_still {a0 : State} {c : RegionCfg} {op : MemOp} {run : RegionRun} : Still a0 (sweepRekey c op run) := by
  unfold sweepRekey
  repeat' first
    | with_reducible exact still_pure _
    | with_reducible exact still_throw _
    | with_reducible exact liveKey_still
    | with_reducible exact advanceRekey_still
    | with_reducible exact rekeyTag_still
    | with_reducible exact rekeyLine3_still
    | with_reducible exact rekeyLine2_still
    | with_reducible refine still_get (fun s hs => ?_)
    | with_reducible refine still_set ?_
    | with_reducible refine still_mod (fun s => ?_)
    | with_reducible refine still_try ?_ (fun e => ?_)
    | with_reducible refine still_bind ?_ (fun x => ?_)
    | split
    | dsimp only

theorem sweepLine_still {a0 : State} {c : RegionCfg} {op : MemOp} : Still a0 (sweepLine c op) := by
  unfold sweepLine
  repeat' first
    | with_reducible exact still_pure _
    | with_reducible exact still_throw _
    | with_reducible exact sweepZero_still
    | with_reducible exact reseedEntry_still
    | with_reducible exact sweepRekey_still
    | with_reducible refine still_get (fun s hs => ?_)
    | with_reducible refine still_set ?_
    | with_reducible refine still_mod (fun s => ?_)
    | with_reducible refine still_try ?_ (fun e => ?_)
    | with_reducible refine still_bind ?_ (fun x => ?_)
    | split

theorem evalOp_still {a0 : State} {s : State} {k : Chan} {op : MemOp} : Still a0 (evalOp s k op) := by
  unfold evalOp
  repeat' first
    | with_reducible exact still_pure _
    | with_reducible exact still_throw _
    | with_reducible exact writeProtected_still
    | with_reducible exact writeEncrypted_still
    | with_reducible exact readRegion_still
    | with_reducible exact bypass_still
    | with_reducible exact evict_still
    | with_reducible exact renormalise_still
    | with_reducible exact sweepLine_still
    | with_reducible refine still_get (fun s hs => ?_)
    | with_reducible refine still_set ?_
    | with_reducible refine still_mod (fun s => ?_)
    | with_reducible refine still_try ?_ (fun e => ?_)
    | with_reducible refine still_bind ?_ (fun x => ?_)
    | split
    | dsimp only

@[simp] theorem respond_keeps (s : State) (k : Chan) (id : BitVec 12) (write : Bool) (r : Option Region) (st : Nat) (d : Line) :
    (respond s k id write r st d).pending = s.pending ∧ (respond s k id write r st d).power = s.power := by
  unfold respond; (repeat' split) <;> simp

@[simp] theorem issueMc_keeps (s : State) (k : Chan) (seq : Nat) (a : Nat) (write : Bool) (d : Line) (mask : W64) (spent : Option Nat) :
    (issueMc s k seq a write d mask spent).pending = s.pending ∧ (issueMc s k seq a write d mask spent).power = s.power := by
  unfold issueMc; dsimp only; (repeat' split) <;> simp_all

@[simp] theorem issueWrites_keeps (s : State) (k : Chan) (op : MemOp) :
    (issueWrites s k op).pending = s.pending ∧ (issueWrites s k op).power = s.power := by
  simp [issueWrites]

@[simp] theorem dropClean_keeps (s : State) (as : List Nat) :
    (dropClean s as).pending = s.pending ∧ (dropClean s as).power = s.power := by
  simp [dropClean]

@[simp] theorem endRun_keeps (s : State) (r : Region) (code : BitVec 4) :
    (endRun s r code).pending = s.pending ∧ (endRun s r code).power = s.power := by
  simp [endRun]

@[simp] theorem lockRegion_keeps (s : State) (r : Region) :
    (lockRegion s r).pending = s.pending ∧ (lockRegion s r).power = s.power := by
  simp [lockRegion]

@[simp] theorem finishClosing_keeps (s : State) (r : Region) :
    (finishClosing s r).pending = s.pending ∧ (finishClosing s r).power = s.power := by
  simp [finishClosing]

theorem underOld_keeps (op : MemOp) (f : State → State) (s : State)
    (h : ∀ d0, (f d0).pending = d0.pending ∧ (f d0).power = d0.power) :
    (underOld op f s).pending = s.pending ∧ (underOld op f s).power = s.power := by
  unfold underOld; dsimp only; (repeat' split) <;> simp [h]

@[simp] theorem endWith_keeps (s : State) (k : Chan) (op : MemOp) (st : Nat) :
    (endWith s k op st).pending = s.pending ∧ (endWith s k op st).power = s.power := by
  unfold endWith; dsimp only; (repeat' split) <;> simp

@[simp] theorem retryOp_keeps (s : State) (k : Chan) (op : MemOp) (as : List Nat) :
    (retryOp s k op as).pending = s.pending ∧ (retryOp s k op as).power = s.power := by
  simp [retryOp]

@[simp] theorem onLocked_keeps (s : State) (k : Chan) (op : MemOp) (r : Region) :
    (onLocked s k op r).pending = s.pending ∧ (onLocked s k op r).power = s.power := by
  unfold onLocked; (repeat' split) <;> simp

@[simp] theorem onHalt_keeps (s : State) (k : Chan) (op : MemOp) (x1 : Halt) :
    (onHalt s k op x1).pending = s.pending ∧ (onHalt s k op x1).power = s.power := by
  unfold onHalt; (repeat' split) <;> simp

theorem runOp_keeps (k : Chan) (op : MemOp) (s : State) :
    (runOp k op s).pending = s.pending ∧ (runOp k op s).power = s.power := by
  have h := evalOp_still (a0 := s) (s := s) (k := k) (op := op) s (same_refl s)
  unfold runOp
  split <;> rename_i e <;> rw [e] at h <;> simp_all [Same]

@[simp] theorem advanceOp_keeps (s : State) (k : Chan) (op : MemOp) :
    (advanceOp s k op).pending = s.pending ∧ (advanceOp s k op).power = s.power := by
  have h := underOld_keeps op (runOp k op) s (runOp_keeps k op)
  unfold advanceOp; dsimp only; split <;> simp [h]

@[simp] theorem pumpOnce_keeps (s : State) (k : Chan) :
    (pumpOnce s k).pending = s.pending ∧ (pumpOnce s k).power = s.power := by
  unfold pumpOnce
  refine ⟨foldl_pending _ (fun s j => ?_) _ _, foldl_power _ (fun s j => ?_) _ _⟩ <;> (repeat' split) <;> simp

@[simp] theorem pump_keeps (s : State) (k : Chan) :
    (pump s k).pending = s.pending ∧ (pump s k).power = s.power := by
  simp [pump]

@[simp] theorem acceptMq_keeps (s : State) (k : Chan) (a : Nat) (id : BitVec 12) (work : MemWork) (write : Bool) (mask : W64) :
    (acceptMq s k a id work write mask).pending = s.pending ∧ (acceptMq s k a id work write mask).power = s.power := by
  unfold acceptMq; dsimp only; (repeat' split) <;> simp

@[simp] theorem countWrite_keeps (s : State) (k : Chan) (op : MemOp) (q : McReq) (st : BitVec 2) :
    (countWrite s k op q st).pending = s.pending ∧ (countWrite s k op q st).power = s.power := by
  unfold countWrite; (repeat' split) <;> simp

@[simp] theorem answerMc_keeps (s : State) (k : Chan) (q : McReq) (d : Line) (st : BitVec 2) :
    (answerMc s k q d st).pending = s.pending ∧ (answerMc s k q d st).power = s.power := by
  unfold answerMc; dsimp only; (repeat' split) <;> simp_all

@[simp] theorem renormGrant_keeps (s : State) (k : Chan) (op : MemOp) :
    (renormGrant s k op).pending = s.pending ∧ (renormGrant s k op).power = s.power := by
  simp [renormGrant]

@[simp] theorem startRenorm_keeps (s : State) (k : Chan) (l : List MemOp) :
    (startRenorm s k l).pending = s.pending ∧ (startRenorm s k l).power = s.power := by
  induction l with
  | nil => simp [startRenorm]
  | cons f fs ih => unfold startRenorm; (repeat' split) <;> simp [ih]

@[simp] theorem refreshTags_keeps (s : State) (ws : Sparse Line) :
    (refreshTags s ws).pending = s.pending ∧ (refreshTags s ws).power = s.power := by
  unfold refreshTags
  refine ⟨foldl_pending _ (fun s j => ?_) _ _, foldl_power _ (fun s j => ?_) _ _⟩ <;> split <;> simp

@[simp] theorem renewReads_keeps (s : State) (k : Chan) (op : MemOp) :
    (renewReads s k op).pending = s.pending ∧ (renewReads s k op).power = s.power := by
  simp [renewReads]

theorem commitNode_keeps (level j : Nat) (r : Region) (old : Line) (op : MemOp) (s : State) :
    (commitNode level j r old op s).pending = s.pending ∧ (commitNode level j r old op s).power = s.power := by
  have h := (storeNode_still (a0 := s) (c := opCfg s op r) (cause := .renorm) (level := level) (j := j)
    (d := freshNode (nodeMajor old + 1))) (refreshTags s op.children) (by simp [Same])
  unfold commitNode; simp_all [Same]

@[simp] theorem commitRenorm_keeps (s : State) (k : Chan) (op : MemOp) :
    (commitRenorm s k op).pending = s.pending ∧ (commitRenorm s k op).power = s.power := by
  unfold commitRenorm
  split
  · rename_i level j r old _ _ _
    have h := underOld_keeps op (commitNode level j r old op) s (commitNode_keeps level j r old op)
    dsimp only; split <;> simp [h]
  · simp

@[simp] theorem bindRegionKey_keeps (s : State) (k : W16) :
    (bindRegionKey s k).pending = s.pending ∧ (bindRegionKey s k).power = s.power := by
  simp [bindRegionKey]

@[simp] theorem enableRegion_keeps (r : Region) (v : W64) (s : State) :
    (enableRegion r v s).pending = s.pending ∧ (enableRegion r v s).power = s.power := by
  simp [enableRegion]

@[simp] theorem keepAccepted_keeps (s : State) (k : Chan) (r : Region) (g : Nat) :
    (keepAccepted s k r g).pending = s.pending ∧ (keepAccepted s k r g).power = s.power := by
  simp [keepAccepted]

@[simp] theorem disableRegion_keeps (r : Region) (v : W64) (s : State) :
    (disableRegion r v s).pending = s.pending ∧ (disableRegion r v s).power = s.power := by
  simp [disableRegion]

@[simp] theorem writeRegionControl_keeps (r : Region) (v : W64) (s : State) :
    (writeRegionControl r v s).1.pending = s.pending ∧ (writeRegionControl r v s).1.power = s.power := by
  simp [writeRegionControl]

@[simp] theorem regionRefuse_keeps (s : State) (r : Region) (code : BitVec 4) :
    (regionRefuse s r code).1.pending = s.pending ∧ (regionRefuse s r code).1.power = s.power := by
  simp [regionRefuse]

@[simp] theorem startRun_keeps (s : State) (r : Region) (kind : SweepKind) :
    (startRun s r kind).pending = s.pending ∧ (startRun s r kind).power = s.power := by
  simp [startRun]

@[simp] theorem initialiseRegion_keeps (r : Region) (s : State) :
    (initialiseRegion r s).1.pending = s.pending ∧ (initialiseRegion r s).1.power = s.power := by
  simp [initialiseRegion]

@[simp] theorem reseedRegion_keeps (r : Region) (level : Nat) (node : Nat) (s : State) :
    (reseedRegion r level node s).1.pending = s.pending ∧ (reseedRegion r level node s).1.power = s.power := by
  simp [reseedRegion]

@[simp] theorem rekeyRegion_keeps (r : Region) (s : State) :
    (rekeyRegion r s).1.pending = s.pending ∧ (rekeyRegion r s).1.power = s.power := by
  simp [rekeyRegion]

@[simp] theorem regionCommand_keeps (r : Region) (data : Bytes) (s : State) :
    (regionCommand r data s).1.pending = s.pending ∧ (regionCommand r data s).1.power = s.power := by
  unfold regionCommand; dsimp only; (repeat' split) <;> simp_all

@[simp] theorem regionDenied_keeps (s : State) (r : Region) :
    (regionDenied s r).pending = s.pending ∧ (regionDenied s r).power = s.power := by
  unfold regionDenied; dsimp only; (repeat' split) <;> simp_all

@[simp] theorem regionGranted_keeps (s : State) (r : Region) :
    (regionGranted s r).pending = s.pending ∧ (regionGranted s r).power = s.power := by
  unfold regionGranted; dsimp only; (repeat' split) <;> simp_all

@[simp] theorem sweepRegion_keeps (s : State) (r : Region) :
    (sweepRegion s r).pending = s.pending ∧ (sweepRegion s r).power = s.power := by
  unfold sweepRegion; (repeat' split) <;> simp

@[simp] theorem opDone_keeps (s : State) (r : Region) :
    (opDone s r).pending = s.pending ∧ (opDone s r).power = s.power := by
  simp [opDone]

@[simp] theorem withoutPoison_keeps (s : State) (p : PoisonEntry → Bool) :
    (withoutPoison s p).pending = s.pending ∧ (withoutPoison s p).power = s.power := by
  simp [withoutPoison]

@[simp] theorem writeNextKey_keeps (r : Region) (data : Bytes) (s : State) :
    (writeNextKey r data s).1.pending = s.pending ∧ (writeNextKey r data s).1.power = s.power := by
  simp [writeNextKey]

@[simp] theorem writeRegionObj_keeps (r : Region) (sub : Nat) (data : Bytes) (s : State) :
    (writeRegionObj r sub data s).1.pending = s.pending ∧ (writeRegionObj r sub data s).1.power = s.power := by
  unfold writeRegionObj; (repeat' split) <;> simp

@[simp] theorem writeMemoryObj_keeps (au : Auth) (idx sub : Nat) (data : Bytes) (s : State) :
    ((writeMemoryObj au idx sub data s).1).pending = s.pending ∧ ((writeMemoryObj au idx sub data s).1).power = s.power := by
  unfold writeMemoryObj; split
  · simp
  · split
    · simp
    · exact writeRegionObj_keeps _ _ _ _

@[simp] theorem loseCacheLine_keeps (s : State) (n : Nat) :
    (loseCacheLine s n).pending = s.pending ∧ (loseCacheLine s n).power = s.power := by
  unfold loseCacheLine; (repeat' split) <;> simp

@[simp] theorem retireWay_keeps (s : State) (n : Nat) (readable : Bool) :
    (retireWay s n readable).pending = s.pending ∧ (retireWay s n readable).power = s.power := by
  unfold retireWay
  split
  · simp
  · rename_i l _
    split
    · simp
    · have h := (fillLine_still (a0 := s) (cause := .none) (l := l)) { s with mem := { s.mem with cache := spDel s.mem.cache n } } (by simp [Same])
      split <;> rename_i e <;> rw [e] at h <;> (try split) <;> simp_all [Same]

@[simp] theorem drainMq_keeps (s : State) (k : Chan) :
    (drainMq s k).pending = s.pending ∧ (drainMq s k).power = s.power := by
  simp [drainMq]

@[simp] theorem sampleMc_keeps (s : State) (k : Chan) :
    (sampleMc s k).pending = s.pending ∧ (sampleMc s k).power = s.power := by
  simp [sampleMc]

@[simp] theorem workOn_keeps (s : State) (k : Chan) :
    (workOn s k).pending = s.pending ∧ (workOn s k).power = s.power := by
  simp [workOn]

@[simp] theorem memoryTick_keeps (s : State) :
    (memoryTick s).pending = s.pending ∧ (memoryTick s).power = s.power := by
  simp [memoryTick]

@[simp] theorem resumeRun_keeps (s : State) (r : Region) :
    (resumeRun s r).pending = s.pending ∧ (resumeRun s r).power = s.power := by
  unfold resumeRun; dsimp only; (repeat' split) <;> simp

@[simp] theorem memoryWarm_keeps (s : State) :
    (memoryWarm s).pending = s.pending ∧ (memoryWarm s).power = s.power := by
  simp [memoryWarm]

@[simp] theorem memoryLoseStore_keeps (s : State) :
    (memoryLoseStore s).pending = s.pending ∧ (memoryLoseStore s).power = s.power := by
  simp [memoryLoseStore]

end Sys2Proof.Machine
end

