-- ==== Sys2Proof/Laws/KeepTrunk.lean ====
section
/-! SUPPORT. The trunks: what each operation leaves of the queue and of the power ladder. -/

namespace Sys2Proof.Machine

@[simp] theorem updTrunk_keeps (s : State) (t : Trunk) (f : TrunkSt → TrunkSt) :
    (updTrunk s t f).pending = s.pending ∧ (updTrunk s t f).power = s.power := by
  simp [updTrunk]

@[simp] theorem transportCtr_keeps (s : State) (t : Trunk) (k : Nat) :
    (transportCtr s t k).pending = s.pending ∧ (transportCtr s t k).power = s.power := by
  simp [transportCtr]

@[simp] theorem mgmtCtr_keeps (s : State) (t : Trunk) (k : Nat) (n : Nat) :
    (mgmtCtr s t k n).pending = s.pending ∧ (mgmtCtr s t k n).power = s.power := by
  simp [mgmtCtr]

@[simp] theorem raiseTrunk_keeps (s : State) (t : Trunk) (j : Nat) :
    (raiseTrunk s t j).pending = s.pending ∧ (raiseTrunk s t j).power = s.power := by
  simp [raiseTrunk]

@[simp] theorem protocolError_keeps (s : State) (t : Trunk) :
    (protocolError s t).pending = s.pending ∧ (protocolError s t).power = s.power := by
  simp [protocolError]

@[simp] theorem enterGrant_keeps (s : State) (t : Trunk) :
    (enterGrant s t).pending = s.pending ∧ (enterGrant s t).power = s.power := by
  simp [enterGrant]

@[simp] theorem enterDisabled_keeps (s : State) (t : Trunk) :
    (enterDisabled s t).pending = s.pending ∧ (enterDisabled s t).power = s.power := by
  simp [enterDisabled]

@[simp] theorem trunkDown_keeps (s : State) (t : Trunk) (cause : Nat) :
    (trunkDown s t cause).pending = s.pending ∧ (trunkDown s t cause).power = s.power := by
  simp [trunkDown]

@[simp] theorem trainingFailure_keeps (s : State) (t : Trunk) (code : Nat) :
    (trainingFailure s t code).pending = s.pending ∧ (trainingFailure s t code).power = s.power := by
  simp [trainingFailure]

@[simp] theorem promoteKey_keeps (s : State) (t : Trunk) :
    (promoteKey s t).pending = s.pending ∧ (promoteKey s t).power = s.power := by
  simp [promoteKey]

@[simp] theorem settleRekey_keeps (s : State) (t : Trunk) :
    (settleRekey s t).pending = s.pending ∧ (settleRekey s t).power = s.power := by
  simp [settleRekey]

@[simp] theorem settleTxKey_keeps (s : State) (t : Trunk) :
    (settleTxKey s t).pending = s.pending ∧ (settleTxKey s t).power = s.power := by
  simp [settleTxKey]

@[simp] theorem switchRx_keeps (s : State) (t : Trunk) (kp : Bool) :
    (switchRx s t kp).pending = s.pending ∧ (switchRx s t kp).power = s.power := by
  simp [switchRx]

@[simp] theorem applyCredit_keeps (s : State) (t : Trunk) (v : Nat) (value : BitVec 12) :
    (applyCredit s t v value).pending = s.pending ∧ (applyCredit s t v value).power = s.power := by
  simp [applyCredit]

@[simp] theorem applyAck_keeps (s : State) (t : Trunk) (a : W16) :
    (applyAck s t a).pending = s.pending ∧ (applyAck s t a).power = s.power := by
  simp [applyAck]

@[simp] theorem dropTf_keeps (s : State) (t : Trunk) (skip : Bool) :
    (dropTf s t skip).pending = s.pending ∧ (dropTf s t skip).power = s.power := by
  simp [dropTf]

@[simp] theorem takeTf_keeps (s : State) (t : Trunk) (w : TfWord) :
    (takeTf s t w).pending = s.pending ∧ (takeTf s t w).power = s.power := by
  unfold takeTf; (repeat' split) <;> simp

@[simp] theorem openTf_keeps (s : State) (t : Trunk) (w : TfWord) :
    (openTf s t w).pending = s.pending ∧ (openTf s t w).power = s.power := by
  simp [openTf]

@[simp] theorem acceptTf_keeps (t : Trunk) (s : State) (w : TfWord) :
    (acceptTf t s w).pending = s.pending ∧ (acceptTf t s w).power = s.power := by
  simp [acceptTf]

@[simp] theorem noteWait_keeps (t : Trunk) (s : State) (v : Nat) :
    (noteWait t s v).pending = s.pending ∧ (noteWait t s v).power = s.power := by
  simp [noteWait]

@[simp] theorem noteWaits_keeps (s : State) (t : Trunk) :
    (noteWaits s t).pending = s.pending ∧ (noteWaits s t).power = s.power := by
  simp [noteWaits]

@[simp] theorem groupSent_keeps (s : State) (t : Trunk) :
    (groupSent s t).pending = s.pending ∧ (groupSent s t).power = s.power := by
  simp [groupSent]

@[simp] theorem sendGroups_keeps (t : Trunk) (n : Nat) (s : State) :
    (sendGroups t n s).pending = s.pending ∧ (sendGroups t n s).power = s.power := by
  induction n generalizing s with
  | zero => simp [sendGroups]
  | succ n ih => unfold sendGroups; dsimp only; split <;> simp [ih]

@[simp] theorem emit_keeps (s : State) (t : Trunk) (us : List (Bool × Bytes)) :
    (emit s t us).pending = s.pending ∧ (emit s t us).power = s.power := by
  simp [emit]

@[simp] theorem retrainAndDown_keeps (s : State) (t : Trunk) (cause : Nat) (cmdId : W16) :
    (retrainAndDown s t cause cmdId).pending = s.pending ∧ (retrainAndDown s t cause cmdId).power = s.power := by
  unfold retrainAndDown; (repeat' split) <;> simp

@[simp] theorem sendEntry_keeps (s : State) (t : Trunk) (k : UnitKey) (e : ReplayEntry) :
    (sendEntry s t k e).pending = s.pending ∧ (sendEntry s t k e).power = s.power := by
  simp [sendEntry]

@[simp] theorem countFirst_keeps (s : State) (t : Trunk) (p : Nat) :
    (countFirst s t p).pending = s.pending ∧ (countFirst s t p).power = s.power := by
  simp [countFirst]

@[simp] theorem numberAndSend_keeps (s : State) (t : Trunk) (k : UnitKey) (v : Nat) (p : TxPayload) :
    (numberAndSend s t k v p).pending = s.pending ∧ (numberAndSend s t k v p).power = s.power := by
  simp [numberAndSend]

@[simp] theorem sendHeld_keeps (s : State) (t : Trunk) (k : UnitKey) (e : ReplayEntry) :
    (sendHeld s t k e).pending = s.pending ∧ (sendHeld s t k e).power = s.power := by
  simp [sendHeld]

@[simp] theorem sendAck_keeps (s : State) (t : Trunk) (k : UnitKey) :
    (sendAck s t k).pending = s.pending ∧ (sendAck s t k).power = s.power := by
  simp [sendAck]

@[simp] theorem sendCommand_keeps (s : State) (t : Trunk) (k : UnitKey) (c : LaneCmd) :
    (sendCommand s t k c).pending = s.pending ∧ (sendCommand s t k c).power = s.power := by
  simp [sendCommand]

@[simp] theorem sendUnit_keeps (s : State) (t : Trunk) (u : UnitChoice) :
    (sendUnit s t u).pending = s.pending ∧ (sendUnit s t u).power = s.power := by
  unfold sendUnit; (repeat' split) <;> simp

@[simp] theorem switchDone_keeps (s : State) (t : Trunk) (was : Nat) (c d : LaneChange) :
    (switchDone s t was c d).pending = s.pending ∧ (switchDone s t was c d).power = s.power := by
  simp [switchDone]

@[simp] theorem switchTxLanes_keeps (s : State) (t : Trunk) :
    (switchTxLanes s t).pending = s.pending ∧ (switchTxLanes s t).power = s.power := by
  unfold switchTxLanes; dsimp only; (repeat' split) <;> simp_all

@[simp] theorem switchRxLanes_keeps (s : State) (t : Trunk) :
    (switchRxLanes s t).pending = s.pending ∧ (switchRxLanes s t).power = s.power := by
  unfold switchRxLanes; dsimp only; (repeat' split) <;> simp_all

@[simp] theorem unitBoundary_keeps (s : State) (t : Trunk) :
    (unitBoundary s t).pending = s.pending ∧ (unitBoundary s t).power = s.power := by
  simp [unitBoundary]

@[simp] theorem dropVc1_keeps (s : State) (t : Trunk) (late : Nat → Nat → Bool) :
    (dropVc1 s t late).pending = s.pending ∧ (dropVc1 s t late).power = s.power := by
  simp [dropVc1]

@[simp] theorem lineError_keeps (s : State) (t : Trunk) :
    (lineError s t).pending = s.pending ∧ (lineError s t).power = s.power := by
  simp [lineError]

@[simp] theorem crcError_keeps (s : State) (t : Trunk) :
    (crcError s t).pending = s.pending ∧ (crcError s t).power = s.power := by
  simp [crcError]

@[simp] theorem startLaneReq_keeps (s : State) (t : Trunk) (mask : Byte) :
    (startLaneReq s t mask).pending = s.pending ∧ (startLaneReq s t mask).power = s.power := by
  simp [startLaneReq]

@[simp] theorem considerLanes_keeps (s : State) (t : Trunk) :
    (considerLanes s t).pending = s.pending ∧ (considerLanes s t).power = s.power := by
  unfold considerLanes; (repeat' split) <;> simp

@[simp] theorem judgeLaneReq_keeps (s : State) (t : Trunk) (c : LaneCmd) :
    (judgeLaneReq s t c).pending = s.pending ∧ (judgeLaneReq s t c).power = s.power := by
  simp [judgeLaneReq]

@[simp] theorem actOnCmd_keeps (s : State) (t : Trunk) (c : LaneCmd) :
    (actOnCmd s t c).pending = s.pending ∧ (actOnCmd s t c).power = s.power := by
  simp [actOnCmd]

@[simp] theorem acceptCmd_keeps (s : State) (t : Trunk) (c : LaneCmd) :
    (acceptCmd s t c).pending = s.pending ∧ (acceptCmd s t c).power = s.power := by
  simp [acceptCmd]

@[simp] theorem treatDeferred_keeps (s : State) (t : Trunk) :
    (treatDeferred s t).pending = s.pending ∧ (treatDeferred s t).power = s.power := by
  unfold treatDeferred; dsimp only; (repeat' split) <;> simp_all

@[simp] theorem ackCredits_keeps (s : State) (t : Trunk) (ccum : Nat) :
    (ackCredits s t ccum).pending = s.pending ∧ (ackCredits s t ccum).power = s.power := by
  simp [ackCredits]

@[simp] theorem receiveAck_keeps (s : State) (t : Trunk) (f : Bytes) :
    (receiveAck s t f).pending = s.pending ∧ (receiveAck s t f).power = s.power := by
  unfold receiveAck; dsimp only; (repeat' split) <;> simp_all

@[simp] theorem receiveCmd_keeps (s : State) (t : Trunk) (f : Bytes) :
    (receiveCmd s t f).pending = s.pending ∧ (receiveCmd s t f).power = s.power := by
  unfold receiveCmd; dsimp only; (repeat' split) <;> simp_all

@[simp] theorem receiveControl_keeps (s : State) (t : Trunk) (f : Bytes) :
    (receiveControl s t f).pending = s.pending ∧ (receiveControl s t f).power = s.power := by
  simp [receiveControl]

@[simp] theorem acceptPacket_keeps (s : State) (t : Trunk) (h : PacketHead) :
    (acceptPacket s t h).pending = s.pending ∧ (acceptPacket s t h).power = s.power := by
  simp [acceptPacket]

@[simp] theorem receiveExpected_keeps (s : State) (t : Trunk) (h : PacketHead) (hdr : Bytes) (body : Bytes) (tag : Bytes) :
    (receiveExpected s t h hdr body tag).pending = s.pending ∧ (receiveExpected s t h hdr body tag).power = s.power := by
  unfold receiveExpected; dsimp only; (repeat' split) <;> simp_all

@[simp] theorem receivePacket_keeps (s : State) (t : Trunk) (f : Bytes) :
    (receivePacket s t f).pending = s.pending ∧ (receivePacket s t f).power = s.power := by
  simp [receivePacket]

@[simp] theorem receiveUnit_keeps (t : Trunk) (s : State) (u : Option (Bool × Bytes)) :
    (receiveUnit t s u).pending = s.pending ∧ (receiveUnit t s u).power = s.power := by
  unfold receiveUnit; (repeat' split) <;> simp

@[simp] theorem countSymbol_keeps (t : Trunk) (w : Nat) (c : Nat) (s : State) (i : Nat) :
    (countSymbol t w c s i).pending = s.pending ∧ (countSymbol t w c s i).power = s.power := by
  unfold countSymbol; dsimp only; (repeat' split) <;> simp_all

@[simp] theorem receiveCodeword_keeps (t : Trunk) (w : Nat) (s : State) (c : Nat × List Sym) :
    (receiveCodeword t w s c).pending = s.pending ∧ (receiveCodeword t w s c).power = s.power := by
  unfold receiveCodeword; (repeat' split) <;> simp

@[simp] theorem receiveGroup_keeps (s : State) (t : Trunk) (lanes : List (List W64)) :
    (receiveGroup s t lanes).pending = s.pending ∧ (receiveGroup s t lanes).power = s.power := by
  simp [receiveGroup]

@[simp] theorem finishPresent_keeps (s : State) (t : Trunk) (p : RxPayload) :
    (finishPresent s t p).pending = s.pending ∧ (finishPresent s t p).power = s.power := by
  simp [finishPresent]

@[simp] theorem takeRx_keeps (s : State) (t : Trunk) (p : RxPayload) (n : Nat) :
    (takeRx s t p n).pending = s.pending ∧ (takeRx s t p n).power = s.power := by
  simp [takeRx]

@[simp] theorem presentRx_keeps (s : State) (t : Trunk) (ready : BitVec 4) (taken : Nat) :
    (presentRx s t ready taken).pending = s.pending ∧ (presentRx s t ready taken).power = s.power := by
  unfold presentRx; dsimp only; (repeat' split) <;> simp_all

@[simp] theorem failLane_keeps (s : State) (t : Trunk) (l : Nat) (locked : Bool) :
    (failLane s t l locked).pending = s.pending ∧ (failLane s t l locked).power = s.power := by
  simp [failLane]

@[simp] theorem arrayCtr_keeps (s : State) (array : Nat) (k : Nat) (n : Nat) :
    (arrayCtr s array k n).pending = s.pending ∧ (arrayCtr s array k n).power = s.power := by
  simp [arrayCtr]

@[simp] theorem lowerAlloc_keeps (t : Trunk) (r : State × Nat) (v : Nat) :
    (lowerAlloc t r v).1.pending = r.1.pending ∧ (lowerAlloc t r v).1.power = r.1.power := by
  simp [lowerAlloc]

@[simp] theorem shrinkAlloc_keeps (s : State) (t : Trunk) :
    (shrinkAlloc s t).pending = s.pending ∧ (shrinkAlloc s t).power = s.power := by
  simp [shrinkAlloc]

@[simp] theorem drawEpoch_keeps (n : Nat) (s : State) :
    ((drawEpoch n s).2).pending = s.pending ∧ ((drawEpoch n s).2).power = s.power := by
  induction n generalizing s with
  | zero => simp [drawEpoch]
  | succ n ih => unfold drawEpoch; dsimp only; split <;> simp [ih]

@[simp] theorem needEpoch_keeps (s : State) (t : Trunk) :
    (needEpoch s t).pending = s.pending ∧ (needEpoch s t).power = s.power := by
  simp [needEpoch]

@[simp] theorem enterAlign_keeps (s : State) (t : Trunk) :
    (enterAlign s t).pending = s.pending ∧ (enterAlign s t).power = s.power := by
  simp [enterAlign]

@[simp] theorem trainingGranted_keeps (s : State) (t : Trunk) :
    (trainingGranted s t).pending = s.pending ∧ (trainingGranted s t).power = s.power := by
  simp [trainingGranted]

@[simp] theorem trainingRevoked_keeps (s : State) (t : Trunk) :
    (trainingRevoked s t).pending = s.pending ∧ (trainingRevoked s t).power = s.power := by
  unfold trainingRevoked; (repeat' split) <;> simp

@[simp] theorem tryPropose_keeps (s : State) (t : Trunk) :
    (tryPropose s t).pending = s.pending ∧ (tryPropose s t).power = s.power := by
  unfold tryPropose; dsimp only; (repeat' split) <;> simp_all

@[simp] theorem acceptTs1_keeps (s : State) (t : Trunk) (f : Bytes) :
    (acceptTs1 s t f).pending = s.pending ∧ (acceptTs1 s t f).power = s.power := by
  unfold acceptTs1; dsimp only; (repeat' split) <;> simp

@[simp] theorem setSalts_keeps (s : State) (t : Trunk) :
    (setSalts s t).pending = s.pending ∧ (setSalts s t).power = s.power := by
  simp [setSalts]

@[simp] theorem enterConfirm_keeps (s : State) (t : Trunk) (mask : Byte) (f : Bytes) :
    (enterConfirm s t mask f).pending = s.pending ∧ (enterConfirm s t mask f).power = s.power := by
  simp [enterConfirm]

@[simp] theorem acceptTs2_keeps (s : State) (t : Trunk) (f : Bytes) :
    (acceptTs2 s t f).pending = s.pending ∧ (acceptTs2 s t f).power = s.power := by
  simp [acceptTs2]

@[simp] theorem settleEntries_keeps (s : State) (t : Trunk) (p : Ts1) :
    (settleEntries s t p).pending = s.pending ∧ (settleEntries s t p).power = s.power := by
  simp [settleEntries]

@[simp] theorem freshSession_keeps (s : State) (t : Trunk) (p : Ts1) (f2 : Bytes) :
    (freshSession s t p f2).pending = s.pending ∧ (freshSession s t p f2).power = s.power := by
  simp [freshSession]

@[simp] theorem sessionKeys_keeps (s : State) (t : Trunk) :
    (sessionKeys s t).pending = s.pending ∧ (sessionKeys s t).power = s.power := by
  simp [sessionKeys]

@[simp] theorem lanesAtStart_keeps (s : State) (t : Trunk) :
    (lanesAtStart s t).pending = s.pending ∧ (lanesAtStart s t).power = s.power := by
  simp [lanesAtStart]

@[simp] theorem enterUp_keeps (s : State) (t : Trunk) (f1 : Bytes) (f2 : Bytes) :
    (enterUp s t f1 f2).pending = s.pending ∧ (enterUp s t f1 f2).power = s.power := by
  simp [enterUp]

@[simp] theorem stepVc1_keeps (s : State) :
    (stepVc1 s).pending = s.pending ∧ (stepVc1 s).power = s.power := by
  simp [stepVc1]

@[simp] theorem bindTrunkKey_keeps (s : State) (k : W16) :
    (bindTrunkKey s k).pending = s.pending ∧ (bindTrunkKey s k).power = s.power := by
  simp [bindTrunkKey]

@[simp] theorem writeTrunkKey_keeps (t : Trunk) (sub : Nat) (k : W16) (s : State) :
    (writeTrunkKey t sub k s).1.pending = s.pending ∧ (writeTrunkKey t sub k s).1.power = s.power := by
  simp [writeTrunkKey]

@[simp] theorem releaseNext_keeps (t : Trunk) (s : State) :
    (releaseNext t s).1.pending = s.pending ∧ (releaseNext t s).1.power = s.power := by
  simp [releaseNext]

@[simp] theorem writeAlloc_keeps (t : Trunk) (sub : Nat) (data : Bytes) (s : State) :
    (writeAlloc t sub data s).1.pending = s.pending ∧ (writeAlloc t sub data s).1.power = s.power := by
  simp [writeAlloc]

@[simp] theorem writeTransportObj_keeps (t : Trunk) (sub : Nat) (data : Bytes) (s : State) :
    (writeTransportObj t sub data s).1.pending = s.pending ∧ (writeTransportObj t sub data s).1.power = s.power := by
  unfold writeTransportObj; (repeat' split) <;> simp

@[simp] theorem startRetrain_keeps (s : State) (t : Trunk) (cause : Nat) :
    (startRetrain s t cause).pending = s.pending ∧ (startRetrain s t cause).power = s.power := by
  simp [startRetrain]

@[simp] theorem writeTrunkControl_keeps (t : Trunk) (data : Bytes) (s : State) :
    (writeTrunkControl t data s).1.pending = s.pending ∧ (writeTrunkControl t data s).1.power = s.power := by
  simp [writeTrunkControl]

@[simp] theorem disabledOnly_keeps (t : Trunk) (sub : Nat) (ok : Bool) (data : Bytes) (s : State) :
    (disabledOnly t sub ok data s).1.pending = s.pending ∧ (disabledOnly t sub ok data s).1.power = s.power := by
  simp [disabledOnly]

@[simp] theorem writeMgmtObj_keeps (t : Trunk) (sub : Nat) (data : Bytes) (s : State) :
    (writeMgmtObj t sub data s).1.pending = s.pending ∧ (writeMgmtObj t sub data s).1.power = s.power := by
  unfold writeMgmtObj; (repeat' split) <;> simp

@[simp] theorem writeTrunkObj_keeps (idx : Nat) (sub : Nat) (data : Bytes) (s : State) :
    (writeTrunkObj idx sub data s).1.pending = s.pending ∧ (writeTrunkObj idx sub data s).1.power = s.power := by
  simp [writeTrunkObj]

@[simp] theorem trunkPathLost_keeps (s : State) (t : Trunk) :
    (trunkPathLost s t).pending = s.pending ∧ (trunkPathLost s t).power = s.power := by
  unfold trunkPathLost; (repeat' split) <;> simp

@[simp] theorem trunksLoseStore_keeps (s : State) :
    (trunksLoseStore s).pending = s.pending ∧ (trunksLoseStore s).power = s.power := by
  simp [trunksLoseStore]

end Sys2Proof.Machine
end

