-- ==== Sys2Proof/Laws/KeepTime.lean ====
section
/-! SUPPORT. Wake causes and the Time Unit: what each operation leaves of the queue and of the power ladder. -/

namespace Sys2Proof.Machine

@[simp] theorem stopListening_queue (s : State) :
    (stopListening s).pending = s.pending := by
  simp [stopListening]

@[simp] theorem driveReq_queue (s : State) (v : BitVec 3) :
    (driveReq s v).pending = s.pending := by
  simp [driveReq]

@[simp] theorem startExit_queue (s : State) (k : BitVec 3) :
    (startExit s k).pending = s.pending := by
  simp [startExit]

@[simp] theorem latchCause_queue (s : State) (b : Nat) (lo : Nat) (hi : Nat) :
    (latchCause s b lo hi).pending = s.pending := by
  unfold latchCause; dsimp only; (repeat' split) <;> simp_all

@[simp] theorem putDomain_keeps (s : State) (i : Fin 2) (d : Domain) :
    (putDomain s i d).pending = s.pending ∧ (putDomain s i d).power = s.power := by
  simp [putDomain]

@[simp] theorem setPin_keeps (s : State) (p : Nat) (x : OutPin) :
    (setPin s p x).pending = s.pending ∧ (setPin s p x).power = s.power := by
  simp [setPin]

@[simp] theorem aimPps_keeps (s : State) (p : Nat) :
    (aimPps s p).pending = s.pending ∧ (aimPps s p).power = s.power := by
  simp [aimPps]

@[simp] theorem noteClocks_keeps (s : State) :
    (noteClocks s).pending = s.pending ∧ (noteClocks s).power = s.power := by
  simp [noteClocks]

@[simp] theorem reaimPps_keeps (s : State) (p : Nat) :
    (reaimPps s p).pending = s.pending ∧ (reaimPps s p).power = s.power := by
  simp [reaimPps]

@[simp] theorem setTtEntry_keeps (s : State) (n : Nat) (e : TtEntry) :
    (setTtEntry s n e).pending = s.pending ∧ (setTtEntry s n e).power = s.power := by
  simp [setTtEntry]

@[simp] theorem stepEntry_keeps (old : Nat) (s : State) (n : Nat) :
    (stepEntry old s n).pending = s.pending ∧ (stepEntry old s n).power = s.power := by
  simp [stepEntry]

@[simp] theorem afterStep_keeps (old : Nat) (s : State) :
    (afterStep old s).pending = s.pending ∧ (afterStep old s).power = s.power := by
  simp [afterStep]

@[simp] theorem landOn_keeps (s : State) (b : Fin 2) (l : Nat) :
    (landOn s b l).pending = s.pending ∧ (landOn s b l).power = s.power := by
  simp [landOn]

@[simp] theorem switchTo_keeps (s : State) (b : Fin 2) :
    (switchTo s b).pending = s.pending ∧ (switchTo s b).power = s.power := by
  simp [switchTo]

@[simp] theorem selectedStep_keeps (s : State) (i : Fin 2) (old : Nat) :
    (selectedStep s i old).pending = s.pending ∧ (selectedStep s i old).power = s.power := by
  simp [selectedStep]

@[simp] theorem enterDomState_keeps (s : State) (i : Fin 2) (st : DomainState) :
    (enterDomState s i st).pending = s.pending ∧ (enterDomState s i st).power = s.power := by
  simp [enterDomState]

@[simp] theorem autoSelect_keeps (s : State) :
    (autoSelect s).pending = s.pending ∧ (autoSelect s).power = s.power := by
  simp [autoSelect]

@[simp] theorem stepDomain_keeps (s : State) (i : Fin 2) (delta : ℤ) :
    (stepDomain s i delta).pending = s.pending ∧ (stepDomain s i delta).power = s.power := by
  simp [stepDomain]

@[simp] theorem lockRun_keeps (s : State) (i : Fin 2) (theta : ℤ) :
    (lockRun s i theta).pending = s.pending ∧ (lockRun s i theta).power = s.power := by
  simp [lockRun]

@[simp] theorem servoSample_keeps (s : State) (i : Fin 2) (theta : ℤ) :
    (servoSample s i theta).pending = s.pending ∧ (servoSample s i theta).power = s.power := by
  simp [servoSample]

theorem selectUnforced_keeps (s : State) (b : Fin 2) :
    ∀ t, selectUnforced s b = some t → t.pending = s.pending ∧ t.power = s.power := by
  unfold selectUnforced; (repeat' split) <;> intro t h <;> cases h <;> simp

@[simp] theorem switchRefused_keeps (s : State) (b : Fin 2) :
    (switchRefused s b).pending = s.pending ∧ (switchRefused s b).power = s.power := by
  simp [switchRefused]

@[simp] theorem getD_pending (o : Option State) (d s : State) (h : ∀ t, o = some t → t.pending = s.pending) (hd : d.pending = s.pending) :
    (o.getD d).pending = s.pending := by
  cases o with
  | none => exact hd
  | some t => exact h t rfl
@[simp] theorem ttAct_queue (s : State) (n : Nat) (e : TtEntry) : (ttAct s n e).pending = s.pending := by
  unfold ttAct; dsimp only
  split <;> (try split) <;> (try simp) <;>
    exact getD_pending _ _ _ (fun t h => (selectUnforced_keeps _ _ _ h).1) (by simp)

@[simp] theorem runEntry_queue (s : State) (n : Nat) :
    (runEntry s n).pending = s.pending := by
  simp [runEntry]

@[simp] theorem endPulse_keeps (s : State) (p : Nat) :
    (endPulse s p).pending = s.pending ∧ (endPulse s p).power = s.power := by
  unfold endPulse; (repeat' split) <;> simp

@[simp] theorem runTimetable_queue (s : State) :
    (runTimetable s).pending = s.pending := by
  simp [runTimetable]

@[simp] theorem ppsOut_keeps (s : State) (p : Nat) :
    (ppsOut s p).pending = s.pending ∧ (ppsOut s p).power = s.power := by
  simp [ppsOut]

@[simp] theorem setPps_keeps (s : State) (j : Nat) (x : PpsIn) :
    (setPps s j x).pending = s.pending ∧ (setPps s j x).power = s.power := by
  simp [setPps]

@[simp] theorem edgeSample_keeps (j : Nat) (s : State) (i : Fin 2) (theta : Int) :
    (edgeSample j s i theta).pending = s.pending ∧ (edgeSample j s i theta).power = s.power := by
  simp [edgeSample]

@[simp] theorem ppsEdge_keeps (s : State) (j : Nat) (rising : Bool) :
    (ppsEdge s j rising).pending = s.pending ∧ (ppsEdge s j rising).power = s.power := by
  simp [ppsEdge]

@[simp] theorem setCap_keeps (s : State) (j : Nat) (x : Capture) :
    (setCap s j x).pending = s.pending ∧ (setCap s j x).power = s.power := by
  simp [setCap]

@[simp] theorem capLost_keeps (s : State) (j : Nat) :
    (capLost s j).pending = s.pending ∧ (capLost s j).power = s.power := by
  simp [capLost]

@[simp] theorem captureEdge_keeps (s : State) (j : Nat) (rising : Bool) :
    (captureEdge s j rising).pending = s.pending ∧ (captureEdge s j rising).power = s.power := by
  simp [captureEdge]

@[simp] theorem readStampFifo_keeps (s : State) :
    (readStampFifo s).1.pending = s.pending ∧ (readStampFifo s).1.power = s.power := by
  unfold readStampFifo; (repeat' split) <;> simp

@[simp] theorem readCapFifo_keeps (j : Nat) (s : State) :
    (readCapFifo j s).1.pending = s.pending ∧ (readCapFifo j s).1.power = s.power := by
  unfold readCapFifo; (repeat' split) <;> simp

@[simp] theorem writeDomControl_keeps (i : Fin 2) (v : W64) (s : State) :
    (writeDomControl i v s).1.pending = s.pending ∧ (writeDomControl i v s).1.power = s.power := by
  simp [writeDomControl]

@[simp] theorem writeOffset_keeps (i : Fin 2) (v : W64) (s : State) :
    (writeOffset i v s).1.pending = s.pending ∧ (writeOffset i v s).1.power = s.power := by
  simp [writeOffset]

@[simp] theorem domCommand_keeps (i : Fin 2) (v : Nat) (s : State) :
    (domCommand i v s).1.pending = s.pending ∧ (domCommand i v s).1.power = s.power := by
  simp [domCommand]

@[simp] theorem writeDomObj_keeps (i : Fin 2) (sub : Nat) (data : Bytes) (s : State) :
    (writeDomObj i sub data s).1.pending = s.pending ∧ (writeDomObj i sub data s).1.power = s.power := by
  unfold writeDomObj; (repeat' split) <;> simp

@[simp] theorem selCommand_keeps (v : Nat) (s : State) :
    (selCommand v s).1.pending = s.pending ∧ (selCommand v s).1.power = s.power := by
  unfold selCommand; dsimp only
  split
  · split
    · rename_i e; have := selectUnforced_keeps _ _ _ e; simp_all
    · simp
  · split <;> simp

@[simp] theorem writeSelObj_keeps (sub : Nat) (data : Bytes) (s : State) :
    (writeSelObj sub data s).1.pending = s.pending ∧ (writeSelObj sub data s).1.power = s.power := by
  unfold writeSelObj; (repeat' split) <;> simp

@[simp] theorem writeTtControl_keeps (n : Nat) (v : W32) (s : State) :
    (writeTtControl n v s).1.pending = s.pending ∧ (writeTtControl n v s).1.power = s.power := by
  simp [writeTtControl]

@[simp] theorem writeTtObj_keeps (n : Nat) (sub : Nat) (data : Bytes) (s : State) :
    (writeTtObj n sub data s).1.pending = s.pending ∧ (writeTtObj n sub data s).1.power = s.power := by
  unfold writeTtObj; (repeat' split) <;> simp

@[simp] theorem writePinObj_keeps (p : Nat) (sub : Nat) (data : Bytes) (s : State) :
    (writePinObj p sub data s).1.pending = s.pending ∧ (writePinObj p sub data s).1.power = s.power := by
  unfold writePinObj; (repeat' split) <;> simp

@[simp] theorem writeCapControl_keeps (j : Nat) (v : W64) (s : State) :
    (writeCapControl j v s).1.pending = s.pending ∧ (writeCapControl j v s).1.power = s.power := by
  simp [writeCapControl]

@[simp] theorem writeTimeObj_keeps (au : Auth) (idx : Nat) (sub : Nat) (data : Bytes) (s : State) :
    (writeTimeObj au idx sub data s).1.pending = s.pending ∧ (writeTimeObj au idx sub data s).1.power = s.power := by
  simp [writeTimeObj]

@[simp] theorem readTimeObj_keeps (au : Auth) (idx : Nat) (sub : Nat) (s : State) :
    (readTimeObj au idx sub s).1.pending = s.pending ∧ (readTimeObj au idx sub s).1.power = s.power := by
  have h : Same s (readTimeObj au idx sub s).1 := by
    unfold readTimeObj
    repeat' with_reducible refine same_ite ?_ ?_
    all_goals first
      | with_reducible exact same_refl s
      | exact readStampFifo_keeps s
      | exact readCapFifo_keeps _ s
  exact h

@[simp] theorem advanceTime_keeps (s : State) :
    (advanceTime s).pending = s.pending ∧ (advanceTime s).power = s.power := by
  simp [advanceTime]

@[simp] theorem timeWarm_keeps (s : State) :
    (timeWarm s).pending = s.pending ∧ (timeWarm s).power = s.power := by
  simp [timeWarm]

@[simp] theorem timeLost_keeps (s : State) :
    (timeLost s).pending = s.pending ∧ (timeLost s).power = s.power := by
  simp [timeLost]

end Sys2Proof.Machine
end

