-- ==== Sys2Proof/Laws/KeepPower.lean ====
section
/-! SUPPORT. Faults, grants, losses, power and resets: what each operation leaves of the queue and of the power ladder. -/

namespace Sys2Proof.Machine

@[simp] theorem countLasting_keeps (s : State) :
    (countLasting s).pending = s.pending ∧ (countLasting s).power = s.power := by
  simp [countLasting]

@[simp] theorem spareEvents_keeps (s : State) (a : Nat) (initial : Nat) (left : Nat) (detail : Nat) :
    (spareEvents s a initial left detail).pending = s.pending ∧ (spareEvents s a initial left detail).power = s.power := by
  simp [spareEvents]

@[simp] theorem loseSegment_keeps (s : State) (t : Trunk) (u : Nat) :
    (loseSegment s t u).pending = s.pending ∧ (loseSegment s t u).power = s.power := by
  unfold loseSegment; (repeat' split) <;> simp

@[simp] theorem loseReceived_keeps (s : State) (t : Trunk) (u : Nat) :
    (loseReceived s t u).pending = s.pending ∧ (loseReceived s t u).power = s.power := by
  unfold loseReceived; dsimp only; (repeat' split) <;> simp_all

@[simp] theorem loseQueued_keeps (s : State) (t : Trunk) (u : Nat) :
    (loseQueued s t u).pending = s.pending ∧ (loseQueued s t u).power = s.power := by
  unfold loseQueued; dsimp only; (repeat' split) <;> simp_all

@[simp] theorem loseFrameWord_keeps (s : State) (p : Nat) (row : Nat) :
    (loseFrameWord s p row).pending = s.pending ∧ (loseFrameWord s p row).power = s.power := by
  unfold loseFrameWord; dsimp only; (repeat' split) <;> simp_all

@[simp] theorem loseItem_keeps (s : State) (n : Nat) :
    (loseItem s n).pending = s.pending ∧ (loseItem s n).power = s.power := by
  simp [loseItem]

@[simp] theorem loseCopy_keeps (s : State) (row : Nat) :
    (loseCopy s row).pending = s.pending ∧ (loseCopy s row).power = s.power := by
  simp [loseCopy]

@[simp] theorem loseContent_keeps (s : State) (a : Nat) (row : Nat) (word : Nat) :
    (loseContent s a row word).pending = s.pending ∧ (loseContent s a row word).power = s.power := by
  unfold loseContent; (repeat' split) <;> simp

@[simp] theorem retireSlot_keeps (s : State) (k : W16) :
    (retireSlot s k).pending = s.pending ∧ (retireSlot s k).power = s.power := by
  simp [retireSlot]

@[simp] theorem clearRow_keeps (s : State) (a : Nat) (row : Nat) :
    (clearRow s a row).pending = s.pending ∧ (clearRow s a row).power = s.power := by
  simp [clearRow]

@[simp] theorem retireContent_keeps (s : State) (a : Nat) (u : Nat) (readable : Bool) :
    (retireContent s a u readable).pending = s.pending ∧ (retireContent s a u readable).power = s.power := by
  unfold retireContent; (repeat' split) <;> simp

@[simp] theorem retireUnit_keeps (s : State) (a : Nat) (u : Nat) (readable : Bool) :
    (retireUnit s a u readable).pending = s.pending ∧ (retireUnit s a u readable).power = s.power := by
  simp [retireUnit]

@[simp] theorem useSpare_keeps (s : State) (a : Nat) (row : Nat) :
    (useSpare s a row).pending = s.pending ∧ (useSpare s a row).power = s.power := by
  simp [useSpare]

@[simp] theorem repairRow_keeps (s : State) (a : Nat) (row : Nat) (readable : Bool) :
    (repairRow s a row readable).pending = s.pending ∧ (repairRow s a row readable).power = s.power := by
  simp [repairRow]

@[simp] theorem noteLasting_keeps (s : State) (a : Nat) (row : Nat) (word : Nat) (bits : List Nat) :
    (noteLasting s a row word bits).pending = s.pending ∧ (noteLasting s a row word bits).power = s.power := by
  simp [noteLasting]

@[simp] theorem lastingUncorrectable_keeps (s : State) (a : Nat) (row : Nat) (word : Nat) :
    (lastingUncorrectable s a row word).pending = s.pending ∧ (lastingUncorrectable s a row word).power = s.power := by
  simp [lastingUncorrectable]

@[simp] theorem transientError_keeps (s : State) (a : Nat) :
    (transientError s a).pending = s.pending ∧ (transientError s a).power = s.power := by
  simp [transientError]

@[simp] theorem secondAttempt_keeps (s : State) (a : Nat) (row : Nat) (word : Nat) (first : BitVec 79) (second : BitVec 79) :
    (secondAttempt s a row word first second).pending = s.pending ∧ (secondAttempt s a row word first second).power = s.power := by
  unfold secondAttempt; (repeat' split) <;> simp

@[simp] theorem setPipe_keeps (s : State) (k : Nat) (g : Nat) :
    (setPipe s k g).pending = s.pending ∧ (setPipe s k g).power = s.power := by
  simp [setPipe]

@[simp] theorem sparePipeEvents_keeps (s : State) (k : Nat) :
    (sparePipeEvents s k).pending = s.pending ∧ (sparePipeEvents s k).power = s.power := by
  simp [sparePipeEvents]

@[simp] theorem trunkOut_keeps (s : State) (t : Trunk) :
    (trunkOut s t).pending = s.pending ∧ (trunkOut s t).power = s.power := by
  unfold trunkOut; (repeat' split) <;> simp

@[simp] theorem pathOut_keeps (s : State) (g : Nat) (k : Nat) :
    (pathOut s g k).pending = s.pending ∧ (pathOut s g k).power = s.power := by
  simp [pathOut]

@[simp] theorem retirePipe_keeps (s : State) (k : Nat) :
    (retirePipe s k).pending = s.pending ∧ (retirePipe s k).power = s.power := by
  unfold retirePipe; (repeat' split) <;> simp

@[simp] theorem startBist_keeps (s : State) :
    (startBist s).1.pending = s.pending ∧ (startBist s).1.power = s.power := by
  simp [startBist]

@[simp] theorem bistGranted_keeps (s : State) :
    (bistGranted s).pending = s.pending ∧ (bistGranted s).power = s.power := by
  simp [bistGranted]

@[simp] theorem remarkRetired_keeps (s : State) :
    (remarkRetired s).pending = s.pending ∧ (remarkRetired s).power = s.power := by
  simp [remarkRetired]

@[simp] theorem coldArray_keeps (s : State) (a : Nat) :
    (coldArray s a).pending = s.pending ∧ (coldArray s a).power = s.power := by
  unfold coldArray; (repeat' split) <;> simp

@[simp] theorem bistRow_keeps (s : State) (f : Fin 46 × Nat) :
    (bistRow s f).pending = s.pending ∧ (bistRow s f).power = s.power := by
  simp [bistRow]

@[simp] theorem bistPipe_keeps (s : State) (k : Fin 24) :
    (bistPipe s k).pending = s.pending ∧ (bistPipe s k).power = s.power := by
  simp [bistPipe]

@[simp] theorem endBist_keeps (s : State) (result : BitVec 3) :
    (endBist s result).pending = s.pending ∧ (endBist s result).power = s.power := by
  simp [endBist]

@[simp] theorem completeBist_keeps (s : State) (rows : List (Fin 46 × Nat)) (pipes : List (Fin 24)) :
    (completeBist s rows pipes).pending = s.pending ∧ (completeBist s rows pipes).power = s.power := by
  simp [completeBist]

@[simp] theorem abandonBist_keeps (s : State) :
    (abandonBist s).pending = s.pending ∧ (abandonBist s).power = s.power := by
  unfold abandonBist; (repeat' split) <;> simp

@[simp] theorem spareGo_keeps (s : State) :
    (spareGo s).pending = s.pending ∧ (spareGo s).power = s.power := by
  simp [spareGo]

@[simp] theorem spareMakeDue_keeps (s : State) :
    (spareMakeDue s).pending = s.pending ∧ (spareMakeDue s).power = s.power := by
  simp [spareMakeDue]

@[simp] theorem spareGranted_keeps (s : State) :
    (spareGranted s).pending = s.pending ∧ (spareGranted s).power = s.power := by
  simp [spareGranted]

@[simp] theorem spareNotRun_keeps (s : State) :
    (spareNotRun s).pending = s.pending ∧ (spareNotRun s).power = s.power := by
  simp [spareNotRun]

@[simp] theorem spareDone_keeps (s : State) (failed : List (Fin 24)) :
    (spareDone s failed).pending = s.pending ∧ (spareDone s failed).power = s.power := by
  simp [spareDone]

@[simp] theorem bistCommand_keeps (data : Bytes) (s : State) :
    (bistCommand data s).1.pending = s.pending ∧ (bistCommand data s).1.power = s.power := by
  unfold bistCommand; (repeat' split) <;> simp

@[simp] theorem writeFaultObj_keeps (au : Auth) (idx : Nat) (sub : Nat) (data : Bytes) (s : State) :
    (writeFaultObj au idx sub data s).1.pending = s.pending ∧ (writeFaultObj au idx sub data s).1.power = s.power := by
  unfold writeFaultObj; (repeat' split) <;> simp

@[simp] theorem granted_keeps (s : State) (x1 : HeavyOp) :
    (granted s x1).pending = s.pending ∧ (granted s x1).power = s.power := by
  unfold granted; (repeat' split) <;> simp

@[simp] theorem deniedGrant_keeps (s : State) (x1 : HeavyOp) :
    (deniedGrant s x1).pending = s.pending ∧ (deniedGrant s x1).power = s.power := by
  unfold deniedGrant; (repeat' split) <;> simp

@[simp] theorem yieldGrant_keeps (s : State) (op : HeavyOp) :
    (yieldGrant s op).pending = s.pending ∧ (yieldGrant s op).power = s.power := by
  unfold yieldGrant; (repeat' split) <;> simp

@[simp] theorem issueInternal_keeps (s : State) :
    (issueInternal s).pending = s.pending ∧ (issueInternal s).power = s.power := by
  unfold issueInternal; (repeat' split) <;> simp

@[simp] theorem issueExternal_keeps (s : State) :
    (issueExternal s).pending = s.pending ∧ (issueExternal s).power = s.power := by
  unfold issueExternal; (repeat' split) <;> simp

@[simp] theorem writeGrantObj_keeps (sub : Nat) (data : Bytes) (s : State) :
    (writeGrantObj sub data s).1.pending = s.pending ∧ (writeGrantObj sub data s).1.power = s.power := by
  unfold writeGrantObj; (repeat' split) <;> simp

@[simp] theorem arbiterLost_keeps (s : State) :
    (arbiterLost s).pending = s.pending ∧ (arbiterLost s).power = s.power := by
  simp [arbiterLost]

@[simp] theorem serverLost_keeps (s : State) :
    (serverLost s).pending = s.pending ∧ (serverLost s).power = s.power := by
  simp [serverLost]

@[simp] theorem evaluateRetention_keeps (s : State) :
    (evaluateRetention s).pending = s.pending ∧ (evaluateRetention s).power = s.power := by
  simp [evaluateRetention]

@[simp] theorem ctlRestart_keeps (s : State) :
    (ctlRestart s).pending = s.pending ∧ (ctlRestart s).power = s.power := by
  simp [ctlRestart]

@[simp] theorem ctlLost_keeps (s : State) :
    (ctlLost s).pending = s.pending ∧ (ctlLost s).power = s.power := by
  simp [ctlLost]

@[simp] theorem pathLost_keeps (s : State) :
    (pathLost s).pending = s.pending ∧ (pathLost s).power = s.power := by
  simp [pathLost]

@[simp] theorem storeLost_keeps (s : State) :
    (storeLost s).pending = s.pending ∧ (storeLost s).power = s.power := by
  simp [storeLost]

@[simp] theorem losses_keeps (s : State) (k : Nat) :
    (losses s k).pending = s.pending ∧ (losses s k).power = s.power := by
  simp [losses]

@[simp] theorem followClockLost_keeps (s : State) :
    (followClockLost s).pending = s.pending ∧ (followClockLost s).power = s.power := by
  simp [followClockLost]

@[simp] theorem releaseDomains_queue (s : State) :
    (releaseDomains s).pending = s.pending := by
  simp [releaseDomains]

@[simp] theorem startFuse_keeps (s : State) :
    (startFuse s).pending = s.pending ∧ (startFuse s).power = s.power := by
  simp [startFuse]

@[simp] theorem fuseFailed_keeps (s : State) :
    (fuseFailed s).pending = s.pending ∧ (fuseFailed s).power = s.power := by
  simp [fuseFailed]

@[simp] theorem loadImage_keeps (s : State) (image : List W32) :
    (loadImage s image).pending = s.pending ∧ (loadImage s image).power = s.power := by
  simp [loadImage]

@[simp] theorem enterTest_queue (s : State) :
    (enterTest s).pending = s.pending := by
  simp [enterTest]

@[simp] theorem testMode_queue (s : State) :
    (testMode s).pending = s.pending := by
  simp [testMode]

@[simp] theorem reportS0_queue (s : State) (k : BitVec 3) :
    (reportS0 s k).pending = s.pending := by
  simp [reportS0]

@[simp] theorem instantiateThen_queue (s : State) (k : BitVec 3) :
    (instantiateThen s k).pending = s.pending := by
  simp [instantiateThen]

@[simp] theorem fuseEnded_queue (s : State) :
    (fuseEnded s).pending = s.pending := by
  unfold fuseEnded; dsimp only; (repeat' split) <;> simp_all

@[simp] theorem acceptFuseWord_queue (s : State) (d : W32) :
    (acceptFuseWord s d).pending = s.pending := by
  simp [acceptFuseWord]

@[simp] theorem levelCauses_queue (s : State) :
    (levelCauses s).pending = s.pending := by
  simp [levelCauses]

@[simp] theorem countStuck_queue (s : State) (i : Nat) :
    (countStuck s i).pending = s.pending := by
  simp [countStuck]

@[simp] theorem isolateFor_queue (s : State) (k : BitVec 3) :
    (isolateFor s k).pending = s.pending := by
  simp [isolateFor]

@[simp] theorem leaveCtl_queue (s : State) (k : BitVec 3) :
    (leaveCtl s k).pending = s.pending := by
  simp [leaveCtl]

@[simp] theorem startEntry_queue (s : State) (k : Nat) :
    (startEntry s k).pending = s.pending := by
  simp [startEntry]

@[simp] theorem refuseEntry_queue (s : State) (c : BitVec 4) :
    (refuseEntry s c).1.pending = s.pending := by
  simp [refuseEntry]

@[simp] theorem powerTarget_queue (data : Bytes) (s : State) :
    (powerTarget data s).1.pending = s.pending := by
  unfold powerTarget; dsimp only; (repeat' split) <;> simp_all

@[simp] theorem lockDividers_queue (s : State) :
    (lockDividers s).pending = s.pending := by
  simp [lockDividers]

@[simp] theorem bringUpDomains_queue (s : State) :
    (bringUpDomains s).pending = s.pending := by
  simp [bringUpDomains]

@[simp] theorem establish_queue (s : State) (k : BitVec 3) :
    (establish s k).pending = s.pending := by
  simp [establish]

@[simp] theorem wakeDomains_queue (s : State) (k : BitVec 3) :
    (wakeDomains s k).pending = s.pending := by
  simp [wakeDomains]

@[simp] theorem resumeEntry_queue (s : State) : (resumeEntry s).pending = s.pending := by
  unfold resumeEntry; (repeat' split) <;> simp

@[simp] theorem ackPower_queue (s : State) :
    (ackPower s).pending = s.pending := by
  unfold ackPower; dsimp only; (repeat' split) <;> simp_all

@[simp] theorem handshakeEvent_keeps (s : State) :
    (handshakeEvent s).pending = s.pending ∧ (handshakeEvent s).power = s.power := by
  simp [handshakeEvent]

@[simp] theorem recognise_queue (s : State) (i : Nat) :
    (recognise s i).pending = s.pending := by
  simp [recognise]

@[simp] theorem acceptWake_queue (s : State) (f : Bytes) :
    (acceptWake s f).pending = s.pending := by
  simp [acceptWake]

@[simp] theorem decideWake_queue (s : State) (f : Bytes) :
    (decideWake s f).pending = s.pending := by
  simp [decideWake]

@[simp] theorem decideOldest_queue (s : State) :
    (decideOldest s).pending = s.pending := by
  unfold decideOldest; (repeat' split) <;> simp

@[simp] theorem holdWake_queue (s : State) (f : Bytes) :
    (holdWake s f).pending = s.pending := by
  simp [holdWake]

@[simp] theorem wakeTick_queue (s : State) :
    (wakeTick s).pending = s.pending := by
  unfold wakeTick; (repeat' split) <;> simp

@[simp] theorem countBroken_queue (s : State) (r : WakeRun) :
    (countBroken s r).pending = s.pending := by
  unfold countBroken; (repeat' split) <;> simp

@[simp] theorem extendWake_queue (s : State) (ws : List MsgWord) (w : MsgWord) :
    (extendWake s ws w).1.pending = s.pending := by
  unfold extendWake; dsimp only; (repeat' split) <;> simp

@[simp] theorem takeWakeWord_queue (a : State × WakeRun) (w : MsgWord) :
    (takeWakeWord a w).1.pending = a.1.pending := by
  unfold takeWakeWord; (repeat' split) <;> simp

@[simp] theorem clearCauses_queue (data : Bytes) (s : State) :
    (clearCauses data s).1.pending = s.pending := by
  simp [clearCauses]

@[simp] theorem unmaskInputs_queue (data : Bytes) (s : State) :
    (unmaskInputs data s).1.pending = s.pending := by
  simp [unmaskInputs]

@[simp] theorem writeWakeKey_keeps (data : Bytes) (s : State) :
    (writeWakeKey data s).1.pending = s.pending ∧ (writeWakeKey data s).1.power = s.power := by
  simp [writeWakeKey]

@[simp] theorem writeWakeControl_queue (data : Bytes) (s : State) :
    (writeWakeControl data s).1.pending = s.pending := by
  simp [writeWakeControl]

@[simp] theorem writePowerObj_queue (sub : Nat) (data : Bytes) (s : State) :
    (writePowerObj sub data s).1.pending = s.pending := by
  unfold writePowerObj; (repeat' split) <;> simp

@[simp] theorem warmRestart_queue (s : State) (tableRunning : Bool) :
    (warmRestart s tableRunning).pending = s.pending := by
  unfold warmRestart; dsimp only; split <;> simp

@[simp] theorem armRecovery_queue (s : State) :
    (armRecovery s).pending = s.pending := by
  simp [armRecovery]

@[simp] theorem warmReset_queue (s : State) (tableRunning : Bool) :
    (warmReset s tableRunning).pending = s.pending := by
  unfold warmReset; dsimp only; (repeat' split) <;> simp

@[simp] theorem loseClock_queue (s : State) :
    (loseClock s).pending = s.pending := by
  simp [loseClock]

@[simp] theorem recoverClock_queue (s : State) :
    (recoverClock s).pending = s.pending := by
  unfold recoverClock; dsimp only; (repeat' split) <;> simp

@[simp] theorem badWindow_queue (s : State) :
    (badWindow s).pending = s.pending := by
  simp [badWindow]

@[simp] theorem goodWindow_queue (s : State) :
    (goodWindow s).pending = s.pending := by
  simp [goodWindow]

end Sys2Proof.Machine
end

