-- ==== Sys2Proof/Laws/KeepDictionary.lean ====
section
/-! SUPPORT. The event flags, sessions, the dictionary and the field network: what each operation leaves of the queue and of the power ladder. -/

namespace Sys2Proof.Machine

@[simp] theorem clearPending_keeps (line : Nat) (v : W32) (s : State) :
    (clearPending line v s).pending = s.pending ∧ (clearPending line v s).power = s.power := by
  simp [clearPending]

@[simp] theorem clearCause_keeps (src : Nat) (v : W32) (s : State) :
    (clearCause src v s).pending = s.pending ∧ (clearCause src v s).power = s.power := by
  simp [clearCause]

@[simp] theorem writeEventObj_keeps (au : Auth) (idx : Nat) (sub : Nat) (data : Bytes) (s : State) :
    (writeEventObj au idx sub data s).1.pending = s.pending ∧ (writeEventObj au idx sub data s).1.power = s.power := by
  unfold writeEventObj; (repeat' split) <;> simp

@[simp] theorem hello_keeps (data : Bytes) (s : State) :
    (hello data s).1.pending = s.pending ∧ (hello data s).1.power = s.power := by
  unfold hello; dsimp only; split <;> simp

@[simp] theorem proofFailed_keeps (s : State) :
    (proofFailed s).pending = s.pending ∧ (proofFailed s).power = s.power := by
  simp [proofFailed]

@[simp] theorem proof_keeps (data : Bytes) (s : State) :
    (proof data s).1.pending = s.pending ∧ (proof data s).1.power = s.power := by
  simp [proof]

@[simp] theorem closeSession_keeps (data : Bytes) (s : State) :
    (closeSession data s).1.pending = s.pending ∧ (closeSession data s).1.power = s.power := by
  simp [closeSession]

@[simp] theorem writeServiceObj_keeps (idx : Nat) (sub : Nat) (data : Bytes) (s : State) :
    (writeServiceObj idx sub data s).1.pending = s.pending ∧ (writeServiceObj idx sub data s).1.power = s.power := by
  unfold writeServiceObj; (repeat' split) <;> simp

@[simp] theorem readObj_keeps (au : Auth) (idx sub : Nat) (s : State) :
    (readObj au idx sub s).1.pending = s.pending ∧ (readObj au idx sub s).1.power = s.power := by
  have h : Same s (readObj au idx sub s).1 := by
    unfold readObj
    repeat' with_reducible refine same_ite ?_ ?_
    all_goals first
      | with_reducible exact same_refl s
      | exact drbgOutput_keeps s
      | exact readTimeObj_keeps au idx sub s
  exact h

@[simp] theorem writeObj_queue (au : Auth) (idx : Nat) (sub : Nat) (data : Bytes) (s : State) :
    (writeObj au idx sub data s).1.pending = s.pending := by
  simp [writeObj]

@[simp] theorem dictRead_keeps (au : Auth) (idx sub : Nat) (s : State) : (dictRead au idx sub s).1.pending = s.pending ∧ (dictRead au idx sub s).1.power = s.power := by
  have h := readObj_keeps au idx sub s
  unfold dictRead
  split
  · simp
  · split <;> rename_i e <;> rw [e] at h <;> simp_all

@[simp] theorem dictWrite_queue (au : Auth) (idx : Nat) (sub : Nat) (data : Bytes) (s : State) :
    (dictWrite au idx sub data s).1.pending = s.pending := by
  simp [dictWrite]

@[simp] theorem innerAccess_queue (s : State) (data : Bytes) : (innerAccess s data).1.pending = s.pending := by
  have hr := dictRead_keeps (.sealed (bit s.server.session.rights 0) (bit s.server.session.rights 1)) (beNat (slice data 8 2)) (byteAt data 10).toNat s
  have hw := dictWrite_queue (.sealed (bit s.server.session.rights 0) (bit s.server.session.rights 1)) (beNat (slice data 8 2)) (byteAt data 10).toNat (slice data 12 (byteAt data 11).toNat) s
  unfold innerAccess; dsimp only
  split
  · simp
  · split
    · split <;> rename_i e <;> rw [e] at hr <;> (try split) <;> simp_all
    · split
      · split
        · (repeat' split) <;> simp
        · split <;> rename_i e <;> rw [e] at hw <;> simp_all
      · simp

@[simp] theorem runSealed_queue (s : State) (data : Bytes) (k : KeyVal) (seq : W32) : (runSealed s data k seq).pending = s.pending := by
  unfold runSealed; dsimp only
  (repeat' split) <;> simp

@[simp] theorem tagFailed_keeps (s : State) :
    (tagFailed s).pending = s.pending ∧ (tagFailed s).power = s.power := by
  simp [tagFailed]

@[simp] theorem sealedRequest_queue (data : Bytes) (s : State) : (sealedRequest data s).1.pending = s.pending := by
  unfold sealedRequest; dsimp only
  (repeat' split) <;> simp

@[simp] theorem protocolFault_keeps (s : State) :
    (protocolFault s).pending = s.pending ∧ (protocolFault s).power = s.power := by
  simp [protocolFault]

@[simp] theorem refuseHost_keeps (au : Auth) (c : W32) (s : State) :
    (refuseHost au c s).1.pending = s.pending ∧ (refuseHost au c s).1.power = s.power := by
  simp [refuseHost]

@[simp] theorem dropCollection_keeps (s : State) :
    (dropCollection s).pending = s.pending ∧ (dropCollection s).power = s.power := by
  simp [dropCollection]

@[simp] theorem openCollection_keeps (idx : Nat) (sub : Nat) (w : W32) (s : State) :
    (openCollection idx sub w s).1.pending = s.pending ∧ (openCollection idx sub w s).1.power = s.power := by
  simp [openCollection]

@[simp] theorem refuseWord_keeps (au : Auth) (o : ObjInfo) (j : Nat) (w c : W32) (s : State) :
    (refuseWord au o j w c s).1.pending = s.pending ∧ (refuseWord au o j w c s).1.power = s.power := by
  simp [refuseWord]

@[simp] theorem putWords_queue (au : Auth) (idx sub size v : Nat) (s : State) :
    (putWords au idx sub size v s).1.pending = s.pending := by
  simp [putWords]

@[simp] theorem nextWord_queue (au : Auth) (idx : Nat) (sub : Nat) (o : ObjInfo) (j : Nat) (w : W32) (s : State) :
    (nextWord au idx sub o j w s).1.pending = s.pending := by
  unfold nextWord; dsimp only; (repeat' split) <;> simp

@[simp] theorem breakCollection_keeps (idx sub j : Nat) (s : State) :
    (breakCollection idx sub j s).pending = s.pending ∧ (breakCollection idx sub j s).power = s.power := by
  unfold breakCollection; (repeat' split) <;> simp

@[simp] theorem writeWord_queue (au : Auth) (idx : Nat) (sub : Nat) (j : Nat) (w : W32) (s : State) :
    (writeWord au idx sub j w s).1.pending = s.pending := by
  unfold writeWord; (repeat' split) <;> simp

@[simp] theorem refuseRead_keeps (au : Auth) (c : W32) (s : State) :
    (refuseRead au c s).1.pending = s.pending ∧ (refuseRead au c s).1.power = s.power := by
  simp [refuseRead]

@[simp] theorem peekObj_keeps (au : Auth) (idx sub : Nat) (s : State) :
    (peekObj au idx sub s).1.pending = s.pending ∧ (peekObj au idx sub s).1.power = s.power := by
  unfold peekObj; split <;> simp

@[simp] theorem removeRead_keeps (au : Auth) (idx sub : Nat) (ws : List W32) (s : State) :
    (removeRead au idx sub ws s).pending = s.pending ∧ (removeRead au idx sub ws s).power = s.power := by
  have h := readObj_keeps au idx sub s
  unfold removeRead
  split
  · rename_i e
    rw [e] at h
    split <;> simp_all
  · simp

@[simp] theorem readWord_keeps (au : Auth) (idx sub j : Nat) (s : State) :
    (readWord au idx sub j s).1.pending = s.pending ∧ (readWord au idx sub j s).1.power = s.power := by
  have h := peekObj_keeps au idx sub s
  unfold readWord
  split
  · simp
  · split
    · simp
    · split
      · simp
      · split
        · simp
        · split
          · dsimp only; split <;> simp
          · split <;> rename_i e <;> rw [e] at h <;> simp_all

@[simp] theorem noteAuthority_keeps (s : State) (sec : Bool) (priv : BitVec 2) :
    (noteAuthority s sec priv).pending = s.pending ∧ (noteAuthority s sec priv).power = s.power := by
  simp [noteAuthority]

@[simp] theorem mailboxEnd_keeps (s : State) (code : Option W32) (f : Mailbox → Mailbox) :
    (mailboxEnd s code f).pending = s.pending ∧ (mailboxEnd s code f).power = s.power := by
  simp [mailboxEnd]

@[simp] theorem mailboxRead_keeps (sec : Bool) (priv : BitVec 2) (s : State) :
    (mailboxRead sec priv s).pending = s.pending ∧ (mailboxRead sec priv s).power = s.power := by
  have h := dictRead_keeps (.host (mailboxAuth s sec priv).1 (mailboxAuth s sec priv).2) (targetIndex s) (targetSub s) s
  unfold mailboxRead; dsimp only
  split <;> rename_i e <;> rw [e] at h <;> simp_all

@[simp] theorem mailboxWrite_queue (sec : Bool) (priv : BitVec 2) (length : Nat) (s : State) :
    (mailboxWrite sec priv length s).pending = s.pending := by
  simp [mailboxWrite]

@[simp] theorem writeMailbox_queue (sec : Bool) (priv : BitVec 2) (a : Nat) (w : W32) (s : State) :
    (writeMailbox sec priv a w s).1.pending = s.pending := by
  simp [writeMailbox]

@[simp] theorem writeMailboxData_keeps (sec : Bool) (priv : BitVec 2) (j : Nat) (w : W32) (s : State) :
    (writeMailboxData sec priv j w s).1.pending = s.pending ∧ (writeMailboxData sec priv j w s).1.power = s.power := by
  simp [writeMailboxData]

@[simp] theorem writeWindow_queue (sec : Bool) (priv : BitVec 2) (a : Nat) (w : W32) (s : State) :
    (writeWindow sec priv a w s).1.pending = s.pending := by
  unfold writeWindow; dsimp only; (repeat' split) <;> simp_all

@[simp] theorem answerUsdo_keeps (s : State) (a : UsdoAnswer) :
    (answerUsdo s a).pending = s.pending ∧ (answerUsdo s a).power = s.power := by
  unfold answerUsdo; (repeat' split) <;> simp

@[simp] theorem setTransfer_keeps (s : State) (t : Option UsdoTransfer) :
    (setTransfer s t).pending = s.pending ∧ (setTransfer s t).power = s.power := by
  simp [setTransfer]

@[simp] theorem usdoWrite_queue (idx sub : Nat) (data : Bytes) (s : State) : (usdoWrite idx sub data s).1.pending = s.pending := by
  unfold usdoWrite; split <;> simp

@[simp] theorem finishDownload_queue (idx sub : Nat) (data : Bytes) (ok : UsdoAnswer) (s : State) :
    (finishDownload idx sub data ok s).pending = s.pending := by
  have h := usdoWrite_queue idx sub data s
  unfold finishDownload
  split <;> rename_i e <;> rw [e] at h <;> simp_all

@[simp] theorem dropTransfer_keeps (s : State) :
    (dropTransfer s).pending = s.pending ∧ (dropTransfer s).power = s.power := by
  simp [dropTransfer]

@[simp] theorem initiateBusy_keeps (s : State) :
    (initiateBusy s).pending = s.pending ∧ (initiateBusy s).power = s.power := by
  simp [initiateBusy]

@[simp] theorem sendSegment_keeps (idx : W16) (sub : Byte) (rest : Bytes) (s : State) :
    (sendSegment idx sub rest s).pending = s.pending ∧ (sendSegment idx sub rest s).power = s.power := by
  simp [sendSegment]

@[simp] theorem serveUsdo_queue (req : UsdoReq) (s : State) : (serveUsdo req s).pending = s.pending := by
  unfold serveUsdo
  split
  · split
    · simp
    · split
      · simp
      · split <;> simp
  · split
    · dsimp only; split
      · simp
      · split <;> simp
    · simp
  · rename_i idx sub
    have h := dictRead_keeps .dn idx.toNat sub.toNat s
    split
    · simp
    · split <;> rename_i e <;> rw [e] at h
      · dsimp only; split <;> simp_all
      · simp_all
  · split <;> simp
  · simp
  · simp

@[simp] theorem takeRequest_queue (req : UsdoReq) (s : State) :
    (takeRequest req s).pending = s.pending := by
  simp [takeRequest]

@[simp] theorem dnTick_queue (s : State) : (dnTick s).pending = s.pending := by
  unfold dnTick; (repeat' split) <;> simp

@[simp] theorem holdInput_keeps (s : State) (p : Nat) :
    (holdInput s p).pending = s.pending ∧ (holdInput s p).power = s.power := by
  unfold holdInput; dsimp only; (repeat' split) <;> simp_all

@[simp] theorem endPulseHp_keeps (s : State) :
    (endPulseHp s).pending = s.pending ∧ (endPulseHp s).power = s.power := by
  simp [endPulseHp]

@[simp] theorem holdS0_keeps (s : State) :
    (holdS0 s).pending = s.pending ∧ (holdS0 s).power = s.power := by
  simp [holdS0]

@[simp] theorem tick_queue (s : State) :
    (tick s).pending = s.pending := by
  simp [tick]

end Sys2Proof.Machine
end

