-- ==== Sys2Proof/WellFormed.lean ====
section
/-! DEFINITION. The shape a command's operands have when they come from the block's ports: what a wire bundle or a flit
can carry at all. Values that the engine itself judges (a refused length, a structural error of Table 2.2) are well
formed: their command has a meaning. -/

namespace Sys2Proof

/-- A received group: 85 lane words of each active lane (R301, R302). -/
def lanesWf (lanes : List (List (BitVec 64))) : Bool :=
  decide (1 ≤ lanes.length) && decide (lanes.length ≤ 8) && lanes.all (fun l => decide (l.length = 85))

/-- A flit is 32 bytes (R300, Table 10.6). -/
def flitWf (flit : Bytes) : Bool := decide (flit.length = 32)

/-- The operands can arrive at the boundary. -/
def Instr.wf : Instr → Bool
  | .coldReset => true
  | .warmReset _ => true
  | .testModeEntry => true
  | .clockMonitorWindow _ => true
  | .aonClockFault => true
  | .fuseRead _ _ _ _ => true
  | .fuseTimeout => true
  | .txFrame _ words => !words.isEmpty
  | .rxFrame _ words => !words.isEmpty
  | .frameGapTimeout _ _ => true
  | .inputUnderrun _ _ => true
  | .frameRelease _ _ => true
  | .lateBinding _ => true
  | .rxVerdict _ => true
  | .frameSettle _ _ => true
  | .portStuck _ _ => true
  | .periodBoundary _ => true
  | .portControlWrite _ _ _ => true
  | .portDisable _ _ => true
  | .contextEnable _ _ => true
  | .associationInstall _ _ _ => true
  | .associationClear _ _ _ => true
  | .tableInsert _ _ => true
  | .tableDelete _ _ => true
  | .tableRead _ _ => true
  | .tableReplace _ _ => true
  | .descriptorWrite _ _ _ => true
  | .learningRequest => true
  | .classifierSecond => true
  | .shadowPassStart => true
  | .shadowPassEnd _ => true
  | .rebuild _ _ => true
  | .rebuildSwitch => true
  | .stagingOpen _ _ => true
  | .stagingWordWrite _ _ _ => true
  | .commit _ => true
  | .abort _ => true
  | .stagingTimeout => true
  | .invalidate _ _ => true
  | .staleWalk => true
  | .zeroizeSlot _ _ => true
  | .zeroizeMainBank _ => true
  | .zeroizeRetentionBank _ => true
  | .zeroizeBothBanks _ => true
  | .bankOverwriteDone => true
  | .derivationStart _ => true
  | .derivationTargetCommit => true
  | .remaskPeriodExpiry => true
  | .remaskingSweep => true
  | .drbgInstantiate _ _ => true
  | .drbgReseed _ => true
  | .reseedInterval => true
  | .entropySample _ => true
  | .entropyAbsent => true
  | .drbgOutputRead _ => true
  | .nativeResponse _ => true
  | .compatibilityReport _ => true
  | .publicKey _ => true
  | .extend _ _ => true
  | .memoryRead _ _ _ => true
  | .memoryWrite _ _ _ _ _ => true
  | .mcResponse _ _ _ _ => true
  | .mcTimeout _ _ => true
  | .renormalisation _ => true
  | .renormalisationCommit _ => true
  | .cacheEviction _ _ => true
  | .regionEnable _ _ _ => true
  | .regionDisable _ _ => true
  | .initialise _ _ => true
  | .initialisationComplete _ => true
  | .reseed _ _ _ _ => true
  | .reseedComplete _ => true
  | .rekey _ _ => true
  | .rekeyComplete _ => true
  | .tfTxPayload _ words => !words.isEmpty
  | .payloadNumbering _ _ => true
  | .unitBoundary _ => true
  | .ackFlitDue _ => true
  | .replayTimerExpiry _ => true
  | .groupReceived _ lanes => lanesWf lanes
  | .tfRxPresent _ _ _ => true
  | .trunkReceiveStuck _ => true
  | .trunkKeyWrite _ _ _ _ => true
  | .releaseNextKey _ _ => true
  | .trunkEnable _ _ => true
  | .trunkDisable _ _ => true
  | .retrain _ _ => true
  | .ts1Received _ flit => flitWf flit
  | .ts2Received _ flit => flitWf flit
  | .confirmDrained _ => true
  | .ts3Received _ flit => flitWf flit
  | .lstatReceived _ flit => flitWf flit
  | .laneAlignment _ _ _ => true
  | .sessionStart _ => true
  | .trainTimeout _ => true
  | .backoffExpiry _ => true
  | .errorWindow _ => true
  | .laneUnlock _ _ => true
  | .laneFifoFault _ _ _ => true
  | .standbyLaneAdd _ => true
  | .laneSwitch _ _ => true
  | .creditTimeout _ => true
  | .trunkCreditStarved _ _ => true
  | .trunkPeriodBoundary _ => true
  | .offsetWrite _ _ _ => true
  | .ppsInEdge _ => true
  | .sampleTimeout _ => true
  | .domainSet _ _ => true
  | .domainStep _ _ => true
  | .clearServo _ _ => true
  | .selectDomain _ _ => true
  | .forceDomain _ _ => true
  | .revert => true
  | .timetableArm _ _ => true
  | .timetableDisarm _ _ => true
  | .timetableRun => true
  | .pulseEnd _ => true
  | .ppsOutPulse _ => true
  | .captureEdge _ _ => true
  | .timeStampFifoRead _ => true
  | .captureFifoRead _ _ => true
  | .powerStateRequest _ _ => true
  | .stateExitRequest _ => true
  | .powerAck _ => true
  | .powerHandshakeFault _ => true
  | .wakeDecision _ => true
  | .wakeInEdge _ _ => true
  | .wakeInputStuck _ => true
  | .chatterWindow => true
  | .wakeFrame words => !words.isEmpty
  | .tokenRefill => true
  | .wakeCauseClear _ _ => true
  | .wakeInUnmask _ _ => true
  | .wakeKeyWrite _ _ => true
  | .grantIssue => true
  | .pgGrantRise => true
  | .grantWaitExpiry _ => true
  | .pgTimeout => true
  | .grantHoldExpiry _ => true
  | .grantRevocation => true
  | .sramSecondAttempt _ _ _ _ _ => true
  | .scrubPeriod => true
  | .pipelineParityMismatch _ _ => true
  | .fullBist _ => true
  | .bistComplete _ _ => true
  | .sparePipelineBist _ => true
  | .spareBistDue => true
  | .spareBistRun _ => true
  | .s0Second => true
  | .eventClear _ _ _ _ => true
  | .registerWrite _ _ _ _ => true
  | .mailboxRead _ _ => true
  | .mailboxWrite _ _ _ => true
  | .dnRxMessage _ _ _ words => !words.isEmpty
  | .usdoDownload _ => true
  | .usdoUpload _ => true
  | .usdoAbort => true
  | .transferTimeout => true
  | .hello _ _ => true
  | .proof _ _ => true
  | .sealedRequest _ _ => true
  | .sessionClose _ => true
  | .sessionIdleTimeout => true
  | .challengeTimeout => true
  | .lockedEnd => true
  | .aonClockReturn => true
  | .pgGrantFall => true
  | .tfTxGapTimeout _ => true

end Sys2Proof
end

