-- ==== Sys2Proof/Tests/Slice0.lean ====
section
/-! SUPPORT. The smoke of well-formedness, worked examples of the manual, and for every statement with hypotheses a
concrete state and operands that meet them, clause by clause. -/

set_option Elab.async false

namespace Sys2Proof.Tests
open Sys2Proof.Machine

/-! ### States to stand on -/

/-- A secure host master of privilege 3. -/
def top : Master := .host true 3

/-- S0, every domain On, long after bring-up. -/
def base : State :=
  { State.reset with now := 10 ^ 13, power := { Power.default with bringUp := .done, dividerLock := true, pdIso := 0 }
                     keys := { Keys.default with lifecycle := 3, fuseLoaded := true } }

/-- The same with a DRBG that serves. -/
def served : State := setDrbg base { base.keys.drbg with phase := .ready }

/-- The same with the Device Root Secret loaded. -/
def rooted : State := setKeys served { served.keys with drs := some 5 }

def isOk (r : State × Except W32 Bytes) : Bool :=
  match r.2 with
  | .ok _ => true
  | .error _ => false

/-- A LIVE slot of the main bank. -/
def liveSlot (u : Usage) : KeySlot := { KeySlot.default with state := .live, usage := u, masked := 1 }

def withSlot (s : State) (k : W16) (x : KeySlot) : State := setSlot s k x

/-! ### Well-formedness: every check refuses a term -/

theorem wf_txFrame : (Instr.txFrame 0 []).wf = false := by decide
theorem wf_rxFrame : (Instr.rxFrame 31 []).wf = false := by decide
theorem wf_groupReceived_none : (Instr.groupReceived 0 []).wf = false := by decide
theorem wf_groupReceived_short : (Instr.groupReceived 1 [[0]]).wf = false := by decide
theorem wf_groupReceived_many : (Instr.groupReceived 1 (List.replicate 9 (List.replicate 85 0))).wf = false := by decide +kernel
theorem wf_groupReceived_good : (Instr.groupReceived 1 [List.replicate 85 0]).wf = true := by decide +kernel
theorem wf_tfTxPayload : (Instr.tfTxPayload 1 []).wf = false := by decide
theorem wf_ts1Received : (Instr.ts1Received 0 (List.replicate 31 0)).wf = false := by decide
theorem wf_ts2Received : (Instr.ts2Received 0 (List.replicate 33 0)).wf = false := by decide
theorem wf_ts3Received : (Instr.ts3Received 0 []).wf = false := by decide
theorem wf_lstatReceived : (Instr.lstatReceived 1 [0x13]).wf = false := by decide
theorem wf_wakeFrame : (Instr.wakeFrame []).wf = false := by decide
theorem wf_dnRxMessage : (Instr.dnRxMessage 0 false 0 []).wf = false := by decide

/-! ### Witnesses: the host and field-network side -/

theorem witness_RefusedWritesLeaveTheObject :
    objectWrite base (.invalidate top 5) = some (top, 0x3802, 1, slotOpBytes 1 5) ∧ accepts top State.reset = false ∧
    accepts top { base with server := { base.server with hpRvalid := true } } = false ∧ accepts .dn State.reset = false ∧
    objectWrite base (.hello .dn []) = some (.dn, 0x2004, 1, []) ∧ accepts .dn base = true ∧ accepts top base = true ∧
    checkAccess (authOf top) true 0x3802 1 5 = some errLength ∧
    checkAccess .dn true 0x2004 1 0 = some errLength ∧ indexExists 0x2100 = true ∧ (objInfo 0x2100 1).isSome = true ∧
    classS 0x3802 1 = true ∧ indexExists 0x3802 = true ∧ (objInfo 0x3802 1).isSome = true ∧ (objInfo 0x2003 1).isSome = true := by
  decide +kernel

theorem witness_ReservedBitsAreIgnoredAndCounted :
    objectWrite base (.portControlWrite top 31 (BitVec.allOnes 64)) = some (top, 0x2820, 1, wordBytes (BitVec.allOnes 64)) ∧
    accepts top base = true ∧ accepts .dn base = true ∧ strayBits 0x2820 1 (wordBytes (BitVec.allOnes 64)) = true := by
  decide +kernel

theorem witness_RaiseRecordsTheSource :
    ctlOn base = true ∧ (224 < 256 ∧ 65535 < 65536) ∧ (enableWord base (224 / 32)).getLsbD (224 % 32) = true := by
  decide +kernel

theorem witness_AlwaysOnRaisesAreHeld :
    ctlOn State.reset = false ∧ aonSource 193 = true ∧ aonSource 255 = false ∧
    ({ Events.default with held := [(226, ⟨0xFFFF, 1⟩)] } : Events).held = [(226, ⟨0xFFFF, 1⟩)] := by
  decide +kernel

theorem witness_EventClearClearsWhatIsWritten :
    hostWrites true 3 0x2400 8 (wordBytes (1 : W32)) base = true ∧ hostWrites true 3 0x2400 1 (wordBytes (0xFFFFFFFF : W32)) base = true ∧
    hostWrites true 3 0x2410 1 (wordBytes (1 : W32)) base = true ∧ hostWrites true 3 0x2411 1 (wordBytes (1 : W32)) base = true ∧
    hostWrites true 3 0x2412 1 (wordBytes (1 : W32)) base = true := by
  decide +kernel

/-- The page register shows an index. -/
def paged (idx : W16) : State := setServer base { base.server with page := idx }

theorem witness_HostWindowWritesWords :
    hpReady base = true ∧ base.server.mailbox.busy = false ∧ 4 * (0x20A0 : BitVec 14).toNat = 0x8000 + 128 * 5 ∧
    (objInfo (paged 0x2100).server.page.toNat 5).map ObjInfo.size = some 4 ∧
    4 * (0x2020 : BitVec 14).toNat = 0x8000 + 128 * 1 ∧ 4 * (0x2021 : BitVec 14).toNat = 0x8000 + 128 * 1 + 4 ∧
    (objInfo (paged 0x2801).server.page.toNat 1).map ObjInfo.size = some 8 ∧ checkAccess (.host true 3) true 0x2801 1 8 = none ∧
    (paged 0x2801).server.collection = none ∧ hpReady (paged 0x2801) = true ∧
    (setServer (paged 0x2801) { (paged 0x2801).server with collection := some ⟨0x2801, 1, [7]⟩ }).server.collection = some ⟨0x2801, 1, [7]⟩ ∧
    1 < ceilDiv 8 4 ∧ ((objInfo 0x2801 1).map (fun o => wordStray o 1 0) = some false) ∧
    ((objInfo 0x2801 1).map (fun o => wordStray o 1 0xFFFFFFFF) = some true) ∧
    (({ index := 0x2801, sub := 1, words := [7, 7] } : Collection).words.length ≠ 1) ∧
    0x10 ≤ 4 * (4 : BitVec 14).toNat ∧ 4 * (63 : BitVec 14).toNat < 0x100 := by
  decide +kernel

/-- A snapshot of the local time stands. -/
def snapped : State := takeSnapshot 0x4400 4 (List.replicate 14 1) (paged 0x4400)

theorem witness_HostWindowWritesWords_reads :
    hpReady (paged 0x4400) = true ∧ 4 * (0x2080 : BitVec 14).toNat = 0x8000 + 128 * 4 ∧
    (objInfo (paged 0x4400).server.page.toNat 4).map ObjInfo.size = some 14 ∧ checkAccess (.host true 3) false 0x4400 4 0 = none ∧
    removesOnRead 0x4400 4 = false ∧ isOk (readObj (.host true 3) 0x4400 4 (paged 0x4400)) = true ∧
    4 * (0x2081 : BitVec 14).toNat = 0x8000 + 128 * 4 + 4 * 1 ∧ 1 + 1 < ceilDiv 14 4 ∧ hpReady snapped = true ∧
    (objInfo snapped.server.page.toNat 4).map ObjInfo.size = some 14 ∧
    (spFind snapped.server.snapshots (oa snapped.server.page.toNat 4)).isSome = true := by
  decide +kernel

/-- The mailbox points at an object. -/
def aimed (target : W32) : State := setServer base { base.server with mailbox := { base.server.mailbox with target := target } }

theorem witness_MailboxServesOneObject :
    hpReady (aimed 0x210005) = true ∧ targetIndex (aimed 0x210005) = 0x2100 ∧ targetSub (aimed 0x210005) = 5 ∧
    isOk (dictRead (.host true 3) 0x2100 5 (aimed 0x210005)) = true ∧
    isOk (dictRead (.host true 3) (targetIndex (aimed 0)) (targetSub (aimed 0)) (aimed 0)) = false := by
  decide +kernel

def queued8 : State := setServer base { base.server with rxQueue := List.replicate 8 [], txQueue := List.replicate 8 .downloadDone }

/-- Sixteen words, marked from the first to the last. -/
def msg16 : List MsgWord := (List.range 16).map (fun i => { data := 0, first := decide (i = 0), last := decide (i = 15) })

theorem witness_FieldMessagesAreQueuedOrDropped :
    serverReady base = true ∧ base.server.rxQueue.length < 8 ∧ messageWhole (64 : BitVec 7).toNat msg16 = true ∧
    messageWhole (64 : BitVec 7).toNat (msg16.take 15) = false ∧ messageWhole (65 : BitVec 7).toNat msg16 = false ∧
    ctlOn queued8 = true ∧ queued8.server.txQueue = .downloadDone :: List.replicate 7 .downloadDone ∧ queued8.power.entryWait = false ∧
    messageWhole 0 [{ data := 0, first := true, last := true }] = true ∧
    identifierMatches (usdoRxId base) 0x600 false = false ∧ identifierMatches (usdoRxId (setReg base 0x1200 1 0x600)) 0x600 false = true ∧
    serverReady State.reset = false ∧ 8 ≤ queued8.server.rxQueue.length := by
  decide +kernel

/-- The USDO server takes messages for identifier 0x600; a transfer may be open. -/
def usdo (x : Option UsdoTransfer) : State :=
  let s := setReg base 0x1200 1 0x600
  setServer s { s.server with transfer := x, transferSince := 0 }

theorem witness_UsdoServesOneTransfer :
    usdoServed base = false ∧ 8 ≤ queued8.server.txQueue.length ∧ usdoServed (usdo none) = true ∧ (usdo none).server.txQueue.length < 8 ∧
    (usdo none).server.transfer = none ∧ 176 ≤ 176 ∧
    (usdo (some (.download 0x2100 5 4 [0]))).server.transfer = some (.download 0x2100 5 4 [0]) ∧
    ([0] : Bytes).length + ([0, 0, 0] : Bytes).length = 4 ∧ isOk (dictRead .dn 0x2100 5 (usdo none)) = true ∧
    (usdo (some (.upload 0x2100 5 []))).server.transfer.isSome = true ∧ ctlOn (usdo (some (.upload 0x2100 5 []))) = true ∧
    elapsed (usdo (some (.upload 0x2100 5 []))) 0 (msCycles (regN (usdo none) 0x2003 1) + 1) = true ∧
    elapsed (usdo none) (10 ^ 13) (msCycles (regN (usdo none) 0x2003 1) + 1) = false := by
  decide +kernel

/-- A session in a state. -/
def inSession (st : SessionState) : State :=
  setSession rooted { Session.default with state := st, clientId := 0x0102, rights := 3, ks := some 7 }

theorem witness_HelloOpensAChallenge :
    serverReady rooted = true ∧ (zeros 12).length = 12 ∧ rooted.server.session.state = .idle ∧ drsUsable rooted = true ∧
    drbgServes rooted = true ∧ (inSession .opened).server.session.state = .opened ∧ drsUsable served = false ∧ drbgServes base = false := by
  decide +kernel

/-- The right proof, and one byte string that it is not. -/
theorem witness_ProofOpensOrFailsTheSession (m : Bytes) :
    serverReady (inSession .challenged) = true ∧ (cmac256 7 m).length = 16 ∧ (inSession .challenged).server.session.state = .challenged ∧
    (inSession .idle).server.session.state ≠ .challenged ∧ ∃ d : Bytes, d.length = 16 ∧ d ≠ cmac256 7 m := by
  have h : (cmac256 7 m).length = 16 := by simp [cmac256, toBE]
  refine ⟨by decide +kernel, h, by decide +kernel, by decide +kernel, ?_⟩
  by_cases g : cmac256 7 m = zeros 16
  · exact ⟨List.replicate 16 1, by decide, by rw [g]; decide⟩
  · exact ⟨zeros 16, by decide, fun e => g e.symm⟩

/-- The body of a sealed request of client 0x0102 with one inner byte and a sequence number. -/
def sealedBody (seq : Byte) : Bytes := [1, 1, 1, 2, 0, 0, 0, seq, 0, 0, 0, 0]

theorem witness_SealedRequestsRunOnceInOrder (k : KeyVal) (b : Bytes) (h : b = sealedBody 0 ∨ b = sealedBody 1 ∨ b = sealedBody 2) :
    serverReady (inSession .opened) = true ∧ (inSession .opened).server.session.state = .opened ∧
    (inSession .idle).server.session.state ≠ .opened ∧ (inSession .opened).server.session.lastSeq = 0 ∧
    slice (b ++ cmac256 k b) 2 2 = wordBytes (inSession .opened).server.session.clientId ∧
    (b ++ cmac256 k b).length = 28 ∧ (byteAt (b ++ cmac256 k b) 11).toNat = 0 ∧
    cmac256 k ((b ++ cmac256 k b).take (12 + 0)) = (b ++ cmac256 k b).drop (12 + 0) ∧
    BitVec.ofNat 32 (beNat (slice (sealedBody 1) 4 4)) = (inSession .opened).server.session.lastSeq + 1 := by
  have l : (cmac256 k b).length = 16 := by simp [cmac256, toBE]
  have lb : b.length = 12 := by rcases h with h | h | h <;> subst h <;> rfl
  refine ⟨by decide +kernel, by decide +kernel, by decide +kernel, by decide +kernel, ?_, by simp [l, lb], ?_, ?_, by decide +kernel⟩
  · rcases h with h | h | h <;> subst h <;> rfl
  · rcases h with h | h | h <;> subst h <;> rfl
  · rw [List.take_append_of_le_length (by omega), List.drop_append_of_le_length (by omega)]
    rw [List.take_of_length_le (by omega), List.drop_of_length_le (by omega)]; rfl

theorem witness_SessionEndsByCloseOrTime :
    hpReady (inSession .opened) = true ∧ (inSession .opened).server.session.state = .opened ∧
    (inSession .challenged).server.session.state = .challenged ∧ (inSession .locked).server.session.state = .locked ∧
    (inSession .idle).server.session.state ≠ .opened := by
  decide +kernel

/-! ### Witnesses: clocks, fuses, resets, power -/

/-- CLOCK_LOST stands; a warm reset may have asked for recovery. -/
def lost (due : Bool) : State :=
  setPower base { base.power with clockLost := true, recoveryDue := due, outRun := 2, pdIso := 0b111110 }

theorem witness_ClockMonitorJudgesWindows :
    monitorOn base = true ∧ base.power.clockLost = false ∧ base.power.outRun = 0 ∧ 2332032 ≤ (2332032 : W32).toNat ∧
    (2355468 : W32).toNat ≤ 2355468 ∧ (2332031 : W32).toNat < 2332032 ∧ 2355468 < (2355469 : W32).toNat ∧
    1 ≤ (setPower base { base.power with outRun := 1 }).power.outRun ∧
    monitorOn (setPower base { base.power with pwrReq := 4 }) = false := by
  decide +kernel

theorem witness_ClockLostEndsAfterWarmReset :
    monitorOn (lost true) = true ∧ (lost true).power.clockLost = true ∧ windowBad 2332032 = false ∧ (lost false).power.recoveryDue = false ∧
    (lost true).power.bringUp = .done ∧ (lost true).power.present = 0 ∧ (lost true).power.transition = .idle ∧
    (lost true).power.recoveryDue = true ∧ (lost true).power.pwrReq = 0 ∧ (lost true).power.pwrAck = 0 ∧
    (setPower base { base.power with aonFault := true }).power.aonFault = true ∧
    inS0 (setPower base { base.power with aonFault := true }) = true ∧ base.power.aonFault = false := by
  decide +kernel

/-- The fuse words are being read; the word before failed or not. -/
def fusing (word : Nat) (rep : Bool) : State :=
  setKeys base { base.keys with fuse := { FuseLoad.default with running := true, word := word, repeated := rep } }

/-- fz_ack has not yet fallen after the last word. -/
def draining (c : Nat) : State := setKeys base { base.keys with fuse := { FuseLoad.default with drain := some c } }

theorem witness_FuseWordsAreReadTwice :
    (fusing 62 false).keys.fuse.running = true ∧ ctlOn (fusing 0 true) = true ∧ (fusing 62 false).keys.fuse.word < 63 ∧
    (0 : W32) ≠ 1 ∧ (fusing 63 true).keys.fuse.repeated = true ∧ (fusing 0 false).keys.fuse.repeated = false ∧
    elapsed (fusing 0 false) (fusing 0 false).keys.fuse.since (ctlCycles 4096) = true ∧
    elapsed { fusing 0 false with now := 5 } (fusing 0 false).keys.fuse.since (ctlCycles 4096) = false ∧ (draining 7).keys.fuse.running = false ∧ ctlOn (draining 7) = true ∧
    (draining 7).keys.fuse.drain = some 7 ∧ elapsed (draining 7) 7 (ctlCycles 4096) = true ∧
    elapsed { draining 7 with now := 8 } 7 (ctlCycles 4096) = false ∧
    base.keys.fuse.running = false ∧ base.keys.fuse.drain = none ∧ (fusing 0 true).power.drbgAfterFuses = false := by
  decide +kernel

/-- A fuse image with 128 ones in its first eight words and lifecycle 2 or 3. -/
def image (lifecycle : W32) : List W32 :=
  List.replicate 8 0xFFFF0000 ++ [0, 0, 0x42, lifecycle, 0, 1, 3] ++ List.replicate 49 0

def bringing : State :=
  setPower (fusing 0 false) { base.power with bringUp := .h5 }

theorem witness_AWholeImageIsLoaded :
    (image 0xFFF).length = 64 ∧ bringing.keys.fuse = { FuseLoad.default with running := true, since := 0 } ∧ ctlOn bringing = true ∧
    bringing.power.bringUp = .h5 ∧ bringing.power.tmPending = false ∧ bringing.power.tmHonoured = false ∧
    lifecycleOf ((image 0xFFF).getD 11 0) = 2 ∧ lifecycleOf ((image 0x3FFFF).getD 11 0) = 3 ∧
    64 ≤ fuseBits (image 0xFFF) 0 8 ∧ fuseBits (image 0xFFF) 0 8 ≤ 192 := by
  decide +kernel

def inLife (n : Nat) : State := setKeys base { base.keys with lifecycle := n }

theorem witness_TestModeZeroizesOrIsIgnored :
    (setPower base { base.power with tmHonoured := true }).power.tmHonoured = true ∧ base.power.tmHonoured = false ∧
    base.power.bringUp = .done ∧ base.power.transition = .idle ∧ base.keys.fuse.running = false ∧ ctlOn base = true ∧
    (fusing 0 false).power.transition = .idle ∧ (fusing 0 false).keys.fuse.running = true ∧ State.reset.power.transition = .idle ∧
    (setPower base { base.power with transition := .fuses 3 }).power.transition = .fuses 3 ∧ (inLife 0).keys.lifecycle = 0 ∧
    (inLife 1).keys.lifecycle = 1 ∧ (inLife 4).keys.lifecycle = 4 ∧ (inLife 3).keys.lifecycle = 3 ∧ State.reset.power.bringUp ≠ .done := by
  decide +kernel

/-- A settled state of the ladder. -/
def inState (k : BitVec 3) : State := setPower base { base.power with present := k, pwrReq := k, pwrAck := k, wakeFrReady := true }
/-- A transition of the ladder whose handshake waits. -/
def moving (tr : Transition) (present req : BitVec 3) : State :=
  setPower base { base.power with present := present, pwrReq := req, transition := tr }

theorem witness_ResetsRestartWhatTheyReset :
    inS0 base = true ∧ base.power.clockLost = false ∧ (lost true).power.clockLost = true ∧ ctlOn base = true ∧
    State.reset.power.clockLost = false ∧ State.reset.power.bringUp ≠ .done ∧ bringing.power.clockLost = false ∧
    (inState 4).power.pwrAck = (inState 4).power.pwrReq ∧ (inState 1).power.bringUp = .done ∧
    (inState 4).power.transition = .idle ∧ 1 ≤ (inState 1).power.present.toNat ∧ (inState 4).power.present.toNat ≤ 4 ∧
    (inState 4).power.aonFault = false ∧ State.reset.power.bringUp = .h1 ∧
    (setPower base { base.power with bringUp := .h2 }).power.bringUp = .h2 ∧ bringing.power.bringUp = .h5 := by
  decide +kernel

/-- An entry to S4 waits for the answers to requests. -/
def waitingEntry (s : State) : State := setPower s { s.power with transition := .entering 4, entryWait := true }

/-- Port 0 runs. -/
def portOn : State := setReg base 0x2801 1 (setField (reg base 0x2801 1) 2 0 1)

theorem witness_PowerEntryIsCheckedAndStarted :
    hostWrites true 3 0x2100 1 [1] base = true ∧ entryRefusal base 1 = none ∧ hostWrites true 3 0x2100 1 [5] base = true ∧
    entryRefusal base 5 = none ∧ entryRefusal (inState 1) 1 = some 1 ∧ (inState 1).power.present ≠ 0 ∧
    portEnabled portOn 0 = true ∧ entryRefusal portOn 3 = some 2 ∧ hostWrites true 3 0x2100 1 [6] base = true ∧
    answered base = true ∧ answered queued8 = false ∧ hostWrites true 3 0x2100 1 [3] queued8 = true ∧ entryRefusal queued8 3 = none ∧
    (waitingEntry base).power.transition = .entering 4 ∧ (waitingEntry base).power.entryWait = true ∧
    (inState 1).power.pwrAck = (inState 1).power.pwrReq ∧ base.power.pwrAck = base.power.pwrReq := by
  decide +kernel

theorem witness_ExitRequestStartsTheExit :
    hostWrites true 3 0x2100 1 [0] (inState 1) = true ∧ (inState 1).power.present = 1 ∧ (inState 1).power.transition = .idle ∧
    hostWrites true 3 0x2100 1 [0] (inState 2) = true ∧ base.power.present ≠ 1 ∧ base.power.present ≠ 2 ∧
    hostWrites true 3 0x2100 1 [0] base = true ∧ hostWrites true 3 0x2100 1 [0] (moving (.exiting 2) 2 0) = true ∧
    (moving (.exiting 2) 2 0).power.transition ≠ .idle ∧ (inState 1).power.pwrAck = (inState 1).power.pwrReq ∧
    (setPower (inState 2) { (inState 2).power with pwrAck := 5 }).power.pwrAck ≠ (inState 2).power.pwrReq ∧
    hostWrites true 3 0x2100 1 [0] (setPower (inState 2) { (inState 2).power with pwrAck := 5 }) = true := by
  decide +kernel

/-- The fuses are read at the end of an exit, after which the DRBG is instantiated. -/
def fused (k : BitVec 3) : State := setPower base { base.power with transition := .fuses k, drbgAfterFuses := true }

theorem witness_PowerAckEstablishesTheState :
    (7 : BitVec 3) ≠ base.power.pwrReq ∧ (setPower base { base.power with bringUp := .h2 }).power.bringUp = .h2 ∧
    (moving (.entering 4) 0 4).power.transition = .entering 4 ∧ (moving (.entering 4) 0 4).power.pwrReq = 4 ∧
    (moving (.entering 4) 0 4).power.wakeDue = false ∧
    (setPower base { (moving (.entering 1) 0 1).power with wakeDue := true }).power.wakeDue = true ∧
    (moving (.exiting 1) 1 0).power.transition = .exiting 1 ∧ (moving (.exiting 1) 1 0).power.pwrReq = 0 ∧
    (moving (.exiting 4) 4 0).power.clockLost = false ∧ (moving (.exiting 3) 3 0).power.transition = .exiting 3 ∧
    (moving (.entering 4) 0 4).power.entryWait = false ∧ (moving (.entering 4) 0 4).power.bringUp = .done ∧
    (waitingEntry base).power.bringUp = .done ∧ (waitingEntry base).power.entryWait = true ∧ (fused 3).power.transition = .fuses 3 ∧
    (fused 3).power.bringUp = .done ∧ (fused 3).power.tmPending = false ∧ (fused 3).power.drbgAfterFuses = true := by
  decide +kernel

theorem witness_HandshakeFaultsAreRaisedOnce :
    (5 : BitVec 3) ≠ (moving (.entering 4) 0 4).power.pwrReq ∧ (5 : BitVec 3) ≠ (moving (.entering 4) 0 4).power.pwrAck ∧
    (0 : BitVec 3) = (moving (.entering 4) 0 4).power.pwrAck ∧ awaitsAck (moving (.entering 4) 0 4) = true ∧
    elapsed (moving (.entering 4) 0 4) 0 (msCycles (regN base 0x2100 3)) = true ∧
    (moving (.entering 4) 0 4).power.handshakeRaised = false ∧
    (setPower base { (moving (.entering 4) 0 4).power with handshakeRaised := true }).power.handshakeRaised = true ∧
    awaitsAck base = false := by
  decide +kernel

/-- Every wake cause enabled, wake_in active high. -/
def waking (s : State) : State := setReg s 0x2100 4 0x1FFF

theorem witness_FirstCauseIsTheWakeDecision :
    (waking (inState 1)).power.bringUp = .done ∧ (waking (inState 1)).power.aonFault = false ∧
    wakeEnabled (waking (inState 1)) 9 = true ∧ wakeEnabled (waking (inState 3)) 10 = true ∧ wakeEnabled (waking (inState 4)) 11 = true ∧
    wakeInCause (setPower (waking (inState 4)) { (inState 4).power with wakeInLevel := 0xF }) 3 = true ∧
    (waking (inState 4)).power.transition = .idle ∧ (waking (moving (.entering 3) 0 3)).power.transition = .entering 3 ∧
    (waking (moving (.exiting 2) 2 0)).power.transition ∈ [.exiting 2, .fuses 2, .entropy 2] ∧
    (waking (fused 3)).power.transition ∈ [.exiting 3, .fuses 3, .entropy 3] ∧ (waking (inState 4)).power.pwrAck = (inState 4).power.pwrReq ∧
    wakeOut (waking base) = false ∧ wakeState (inState 2).power < 3 ∧ 4 < wakeState (inState 5).power ∧
    wakeInCause base 0 = false ∧ wakeEnabled (setReg base 0x2100 4 0) 9 = false ∧ wakeEnabled (setReg base 0x2100 4 0) 10 = false ∧
    wakeEnabled (setReg base 0x2100 4 0) 11 = false := by
  decide +kernel

/-- wake_in[0] is active since cycle 0, with a count of 5 edges this second. -/
def wired (mask : Byte) : State :=
  setPower (waking base) { base.power with wakeInLevel := 1, stuckFrom := [(0, 0)], chatter := [(0, 255)], wakeInMask := mask }

theorem witness_WakeInputsAreSupervised :
    inS0 base = true ∧ base.power.wakeInLevel.getLsbD 0 = false ∧ base.power.wakeInLevel.getLsbD 0 ≠ true ∧
    true = bit (reg (waking base) 0x2100 4) (4 + 3) ∧ wakeEnabled (waking base) 3 = true ∧
    field (reg (waking base) 0x2100 0x1C) 23 16 < spGet natZero (wired 0).power.chatter 0 + 1 ∧
    spGet natZero base.power.chatter 0 + 1 ≤ field (reg (waking base) 0x2100 0x1C) 23 16 ∧
    false ≠ bit (reg (waking base) 0x2100 4) 4 ∧ spFind (wired 0).power.stuckFrom 0 = some 0 ∧ wakeActive (wired 0) 0 = true ∧
    (wired 0).power.wakeInMask.getLsbD 0 = false ∧ spFind base.power.stuckFrom 3 = none ∧ (wired 1).power.wakeInMask.getLsbD 0 = true ∧
    hostWrites true 3 0x2100 0x1D [0xFF] base = true ∧
    hostWrites true 3 0x2100 0x1D [1] (setPower (wired 1) { (wired 1).power with present := 2 }) = true ∧
    wakeInCause (setPower (wired 1) { (wired 1).power with present := 2, wakeInMask := (1 : Byte) &&& ~~~(1 : Byte) }) 0 = true := by
  decide +kernel

/-- A wake frame of Table 12.5 for destination 0 and source 0, with a sequence number and a tag byte. -/
def wakeBytes (seq tag : Byte) : Bytes := zeros 12 ++ [0x88, 0xB5, 1, 0] ++ zeros 7 ++ [seq] ++ zeros 8 ++ [tag] ++ zeros 7

/-- The Wake Matcher holds `n` frames, with a retention key at 0x8000, source 0 allowed and ethertype 0x88B5. -/
def listening (n : Nat) (tokens : Nat) : State :=
  let s := setSlot (setReg (setReg (setReg (setReg (inState 1) 0x2100 6 0x8000) 0x2100 8 0x88B5) 0x2100 9 1) 0x2100 4 0x100) 0x8000
    (liveSlot .mac)
  setPower s { s.power with tokens := tokens, wakeHeld := List.replicate n { bytes := [], since := 0 } }

theorem witness_WakeFramesAreDecidedInOrder :
    wakeFormatOk base (wakeBytes 1 0) = false ∧ wakeFormatOk (listening 0 0) (wakeBytes 1 0) = true ∧
    beNat (slice (wakeBytes 0 0) 16 8) ≤ regN (listening 0 0) 0x2100 (0x0A + 0) ∧
    regN (listening 0 0) 0x2100 (0x0A + 0) < beNat (slice (wakeBytes 1 0) 16 8) ∧
    wakeKeyUsable (setSlot (listening 0 0) 0x8000 KeySlot.default) = false ∧ wakeKeyUsable (listening 0 0) = true ∧
    (listening 0 0).power.tokens = 0 ∧ 1 ≤ (listening 0 4).power.tokens ∧ wakeEnabled (listening 0 4) 8 = true ∧
    (listening 0 4).power.bringUp = .done ∧ (listening 0 4).power.aonFault = false ∧ (listening 0 4).power.transition = .idle ∧
    1 ≤ (listening 0 4).power.present.toNat ∧ base.power.wakeFrReady = false ∧ (inState 1).power.wakeFrReady = true ∧
    (setPower (listening 0 4) { (listening 0 4).power with aonFault := true }).power.aonFault = true ∧
    2 ≤ (listening 2 4).power.wakeHeld.length ∧ (listening 1 4).power.wakeHeld.length < 2 := by
  decide +kernel

/-- So many words of a wake frame. -/
def wakeWords (n : Nat) : List MsgWord := (List.range n).map (fun i => { data := 0, first := decide (i = 0), last := decide (i + 1 = n) })

/-- Frames of any length are marked from the first word to the last, and one word without marks is a run without a first. -/
theorem witness_WakeFramesAreDecidedInOrder_words :
    (∀ n i w, (wakeWords n)[i]? = some w → w.first = decide (i = 0) ∧ w.last = decide (i + 1 = (wakeWords n).length)) ∧
    (wakeWords 16).length = 16 ∧ 16 < (wakeWords 17).length ∧
    ∀ i w, ([{ data := 0, first := false, last := true }] : List MsgWord)[i]? = some w →
      w.first = false ∧ (i + 1 < ([{ data := 0, first := false, last := true }] : List MsgWord).length → w.last = false) := by
  refine ⟨fun n i w h => ?_, rfl, by decide, fun i w h => ?_⟩
  · simp only [wakeWords, List.getElem?_map, Option.map_eq_some_iff] at h
    obtain ⟨j, hj, rfl⟩ := h
    obtain ⟨hi, e⟩ := List.getElem?_eq_some_iff.mp hj
    simp only [List.getElem_range] at e
    simp [wakeWords, e]
  · cases i with
    | zero => simp only [List.getElem?_cons_zero, Option.some.injEq] at h; subst h; simp
    | succ i => simp at h

/-- The right tag and a wrong one, behind any 32 bytes. -/
theorem witness_WakeFramesAreDecidedInOrder_tags (s : State) (b : Bytes) (h : b.length = 32) :
    wakeTag s (b ++ wakeTag s b) = slice (b ++ wakeTag s b) 32 8 ∧ ∃ x : Bytes, x.length = 8 ∧ wakeTag s (b ++ x) ≠ slice (b ++ x) 32 8 := by
  have same : ∀ x, wakeTag s (b ++ x) = wakeTag s b := fun x => by
    simp only [wakeTag, List.take_append_of_le_length (Nat.le_of_eq h.symm), List.take_of_length_le (Nat.le_of_eq h)]
  have cut : ∀ x : Bytes, x.length = 8 → slice (b ++ x) 32 8 = x := fun x hx => by
    simp [slice, List.drop_append_of_le_length (Nat.le_of_eq h.symm), List.drop_of_length_le (Nat.le_of_eq h),
      List.take_of_length_le (Nat.le_of_eq hx)]
  have l : (wakeTag s b).length = 8 := by simp [wakeTag, cmac256, toBE]
  refine ⟨by rw [same, cut _ l], ?_⟩
  by_cases g : wakeTag s b = zeros 8
  · exact ⟨List.replicate 8 1, by decide, by rw [same, cut _ (by decide), g]; decide⟩
  · exact ⟨zeros 8, by decide, by rw [same, cut _ (by decide)]; exact g⟩

theorem witness_WakeTokensKeysAndCauses :
    hostWrites true 3 0x2100 5 (wordBytes (0x3FF : W32)) base = true ∧ hostWrites true 3 0x2100 6 (toBE 2 0x8000) (listening 0 4) = true ∧
    wakeEnabled (listening 0 4) 8 = true ∧ wakeEnabled (setReg (listening 0 4) 0x2100 4 0) 8 = false ∧
    hostWrites true 3 0x2100 6 (toBE 2 0x4000) base = true ∧ refInRange 0x8000 = true ∧ refRetention 0x8000 = true ∧
    effState (setReg (listening 0 4) 0x2100 4 0) 0x8000 = .live ∧ (slotOf (listening 0 4) 0x8000).usage = .mac ∧
    retentionChain (listening 0 4) 4 0x8000 = true ∧ bindSaturated (listening 0 4) 0x8000 = false ∧ wakeKey base ≠ 0x8000 ∧
    refInRange (wakeKey (listening 0 4)) = true := by
  decide +kernel

/-! ### Witnesses: the frame path -/

/-- A direction of port 0, which runs. -/
def withDir (side : Side) (d : ShimDir) : State := setDir portOn 0 side d

def fullWord : FrameWord := { data := 0, sop := false, eop := false, nbytes := 8, err := false }
/-- A word that completes 64 bytes of a MAC control frame when 56 zero bytes with EtherType 0x8808 stand before it. -/
def controlHead : Bytes := zeros 12 ++ [0x88, 0x08] ++ zeros 42

def frameOf (bs : Bytes) : QFrame := { newFrame base 0 with bytes := bs, arrival := stampsNow { base with now := 0 } 0 }
def feeding (f : QFrame) : ShimDir :=
  { ShimDir.default with frames := [f], inp := some { len := 56, words := 7, since := 0, lastWord := 0, held := 0, live := true } }

theorem witness_FrameWordsFeedTheOpenFrame :
    inputReady base 0 .fi = false ∧ inputReady portOn 0 .fi = true ∧ inputReady portOn 0 .wi = true ∧
    (dirOf portOn 0 .wi).inp = none ∧ (dirOf portOn 0 .fi).stuck = false ∧ 64 ≤ maxFrame portOn 0 ∧
    maxFrame portOn 0 ≤ freeSpace portOn 0 .wi ∧
    inputReady (withDir .wi (feeding (frameOf controlHead))) 0 .wi = true ∧ fullWord.nbytes = 8 ∧
    (dirOf (withDir .wi (feeding (frameOf controlHead))) 0 .wi).skipping = false ∧ 56 + 8 ≤ 16384 ∧
    (dirOf (withDir .wi (feeding (frameOf controlHead))) 0 .wi).frames = [] ++ [frameOf controlHead] ∧
    (frameOf controlHead).phase = .waiting ∧ (frameOf controlHead).late = none ∧ (frameOf controlHead).disp = .waiting ∧ (frameOf controlHead).lenPending = false ∧
    (frameOf (zeros 8)).complete = false ∧ (frameOf (zeros 8)).bytes.length + 8 < 64 ∧ (frameOf controlHead).bytes.length = 56 ∧
    etherType (controlHead ++ wordBytes fullWord.data) = 0x8808 ∧ ctlOn portOn = true := by
  decide +kernel

/-- An unprotected frame, complete or not, in a phase. -/
def plainIn (ph : FramePhase) (whole : Bool) : QFrame :=
  { frameOf (zeros 64) with disp := .plain, phase := ph, complete := whole
                            egress := if isBegun { frameOf [] with phase := ph } then some (stampsNow { base with now := 0 } 0) else none }

theorem witness_FramesAreReleasedAndSettledInOrder :
    pathOn portOn = true ∧ portEnabled portOn 0 = true ∧ (dirOf (withDir .fi (feeding (plainIn .waiting true))) 0 .fi).frames =
      [plainIn .waiting true] ∧ (plainIn .waiting true).phase = .waiting ∧ (plainIn .waiting true).egress = none ∧
    (outWord (withDir .fi (feeding (plainIn (.begun 5) true))) 0 .fi).isSome = true ∧
    outWord (withDir .fi (feeding { plainIn (.begun 5) true with sent := 8 })) 0 .fi = none ∧ processed (plainIn (.begun 5) true) = true ∧
    (plainIn (.begun 5) true).complete = true ∧ processed (plainIn .waiting true) = true ∧
    releaseFrom portOn 0 (plainIn .waiting true) ≤ portOn.now ∧ portOn.now < releaseFrom portOn 0
      { plainIn .waiting true with arrival := stampsNow base 0 } ∧
    (plainIn (.begun 5) true).phase = .begun 5 ∧ (plainIn (.begun 5) true).egress = some (stampsNow { base with now := 0 } 0) ∧
    (plainIn (.begun 5) true).late = none ∧
    ({ plainIn .discarded true with disp := .waiting, tallies := [.port 15] } : QFrame).tallies = [.port 15] ∧
    (plainIn .closed true).phase = .closed ∧ outputDone .fi (plainIn (.begun 5) true) = true ∧
    outputDone .wi (plainIn (.begun 5) false) = false := by
  decide +kernel

/-- A periodic context 3 of port 0 with a period of 1,000,000 ns. -/
def periodic (s : State) : State :=
  setContext s 3 { Context.default with enable := true, periodic := true, period := 1000000 }

/-- Local time a little past its first second. -/
def late : State := setTime portOn { portOn.time with d0 := { portOn.time.d0 with clk := secUnit + nsUnit } }

/-- A frame of a context of the last period has not left. -/
def overdue (c : Option Nat) : State :=
  setDir (periodic late) 0 .fi { ShimDir.default with frames := [{ plainIn .waiting true with ctx := c }] }

theorem witness_LateFramesAreEnded :
    (dirOf (withDir .wi (feeding (plainIn .waiting false))) 0 .wi).inp =
      some { len := 56, words := 7, since := 0, lastWord := 0, held := 0, live := true } ∧ pathOn portOn = true ∧ ctlOn portOn = true ∧
    0 + 4096 < portOn.now ∧ ({ portOn with now := 4096 } : State).now ≤ 0 + 4096 ∧
    missed portOn 0 { len := 56, words := 7, since := 0, lastWord := 0, held := 0, live := true } = true ∧
    missed portOn 0 { len := 56, words := 7, since := 0, lastWord := 0, held := 0, live := false } = false ∧
    portEnabled portOn 0 = true ∧ isOpen (plainIn (.begun 5) true) = true ∧ presentedSince portOn 0 (plainIn (.begun 5) true) = some 5 ∧
    5 + stallLimit portOn 0 < portOn.now ∧ ({ portOn with now := 5 } : State).now ≤ 5 + stallLimit portOn 0 ∧
    (dirOf (withDir .fi (feeding (plainIn (.begun 5) true))) 0 .fi).stuck = false ∧ (dirOf (overdue (some 3)) 0 .fi).frames = [{ plainIn .waiting true with ctx := some 3 }] ∧
    (context (overdue (some 3)) 3).rx = false ∧ (context (overdue (some 3)) 3).port.toNat = 0 ∧ pathOn (overdue (some 3)) = true ∧ ctlOn (overdue none) = true ∧
    (context (periodic late) 3).periodic = true ∧ (context (periodic late) 3).period ≠ 0 ∧
    earlier 3 (lastBoundaryNs 1000000 0 (localNs late)) late.time.epochL { plainIn .waiting true with ctx := some 3 } = true ∧
    earlier 3 (lastBoundaryNs 1000000 0 (localNs late)) late.time.epochL (plainIn .waiting true) = false := by
  decide +kernel

/-- A plan on slot A of context 3, for packet number `pn`. -/
def planOn (pn : W64) : CipherPlan :=
  { ctx := 3, owner := 3, slot := .A, an := 0, conf := false, klen := true, key := 1, h := 0, iv := 0, pn := pn, sci := 0, sc := false,
    late := false, slotKept := true }

/-- Addresses and a SecTAG, then the ICV. -/
def macsec (icv : Nat) : Bytes := zeros 12 ++ [0x88, 0xE5, 0, 0, 0, 0, 0, 1] ++ toBE 16 icv

/-- The receive context of the plan, with a policy for the port. -/
def judging (policy : Nat) (pnEnd : Bool) : State :=
  setContext (setReg portOn 0x2801 1 (setField (setField (reg portOn 0x2801 1) 4 3 policy) 5 5 1)) 3
    { Context.default with rx := true, enable := true, a := { Assoc.default with state := .current, pnEnd := pnEnd } }

theorem witness_ReceivedFramesAreJudged :
    pathOn (judging 2 false) = true ∧ awaitsVerdict { frameOf (macsec 0) with disp := .protect (planOn 1) } = true ∧
    validateFrames (judging 2 false) 0 = 2 ∧ replayProtect (judging 2 true) 0 = true ∧ finalLate (judging 2 true) 0 (planOn 1) = true ∧
    finalLate (judging 2 false) 0 (planOn 1) = false ∧ (planOn 1).slotKept = true ∧
    (assocOf (context (judging 2 false) 3) .A).state = .current ∧ (assocOf (context (judging 2 false) 3) .A).nextPn.toNat ≤ (1 : W64).toNat ∧
    (1 : W64).toNat < 2 ^ 64 - 1 ∧ (1 : W64).toNat < (context (judging 2 false) 3).watermark.toNat := by
  decide +kernel

theorem witness_ReceivedFramesAreJudged_bad : icvGood (planOn 1) 0 (macsec 0) = false := by decide +kernel

theorem witness_LateBindingYieldsTheFinalFrame :
    14 ≤ (zeros 14).length ∧ ∀ l ∈ [({ pos := 12, value := [1, 2] } : LateField)], 12 ≤ l.pos ∧ l.pos + l.value.length ≤ (zeros 14).length := by
  decide

theorem witness_PortControlIsWrittenWhileStopped :
    hostWrites true 3 (0x2801 + 31) 1 (wordBytes (reg base 0x2820 1)) base = true ∧ portRate base 31 = 0 ∧
    portControlBad base 31 (reg base 0x2820 1) = none ∧ hostWrites true 3 (0x2801 + 0) 1 (wordBytes (setField (reg base 0x2801 1) 4 3 3)) base = true ∧
    portControlBad base 0 (setField (reg base 0x2801 1) 4 3 3) = some errRange ∧ portRate portOn 0 ≠ 0 ∧
    hostWrites true 3 0x2801 1 (wordBytes (reg portOn 0x2801 1)) portOn = true ∧ reg portOn 0x2801 1 ≠ setField (portControl portOn 0) 2 0 0 ∧
    hostWrites true 3 0x2801 1 (wordBytes (setField (portControl portOn 0) 2 0 0)) portOn = true := by
  decide +kernel

/-- Context 8191 is selected, with an association in slot A in a state, and slot 0 of the main bank is LIVE. -/
def selected (st : AssocState) (on : Bool) : State :=
  withSlot (setContext (setReg base 0x3000 1 8191) 8191 { Context.default with enable := on, a := { Assoc.default with state := st } }) 0
    (liveSlot .data)

theorem witness_ContextsAndAssociationsAreSetUp :
    hostWrites true 3 0x3001 1 (wordBytes (1 : W64)) (selected .empty false) = true ∧ regN (selected .empty false) 0x3000 1 = 8191 ∧
    (context (selected .empty false) 8191).enable = false ∧ bit (1 : W64) 0 = true ∧ (context (selected .empty false) 8191).retired = false ∧
    enableOk (selected .empty false) 8191 (controlWrite (context (selected .empty false) 8191) 1) = true ∧ field (1 : W64) 8 7 < 2 ∧
    enableOk (selected .empty false) 8191 (controlWrite (context (selected .empty false) 8191) 0x201) = false ∧
    hostWrites true 3 0x3001 1 (wordBytes (0x201 : W64)) (selected .empty false) = true ∧
    hostWrites true 3 0x3001 (slotSub .A) (wordBytes (setField (0 : W64) 4 2 1)) (selected .empty true) = true ∧
    hostWrites true 3 0x3001 (slotSub .B) (wordBytes (setField (0 : W64) 4 2 1)) (selected .empty true) = true ∧
    refInRange 0 = true ∧ installOk (selected .empty true) (context (selected .empty true) 8191) .A 0 0 = true ∧
    (assocOf (context (selected .current true) 8191) .A).state ≠ .empty ∧
    hostWrites true 3 0x3001 (slotSub .A) (wordBytes (setField (0 : W64) 4 2 0)) (selected .stopped true) = true ∧
    clearAllowed (context (selected .stopped true) 8191) (assocOf (context (selected .stopped true) 8191) .A) = true ∧
    (assocOf (context (selected .current true) 8191) .A).state = .current ∧ (context (selected .current true) 8191).rx = false ∧
    (context (selected .current true) 8191).enable = true := by
  decide +kernel

/-- Is this choice a packet number? -/
def isNumbered : Choice → Bool
  | .numbered _ _ => true
  | _ => false

/-- An association numbers a frame, also with the last packet number. -/
def numbering (pn : W64) : State :=
  let s := setContext (selected .current true) 8191
    { Context.default with enable := true, a := { Assoc.default with state := .current, nextPn := pn } }
  setKeys s { s.keys with before := none }

theorem witness_PacketNumbersAreUsedOnce :
    isNumbered (chooseTx (numbering 1) 8191).2 = true ∧ isNumbered (chooseTx (numbering (BitVec.allOnes 64)) 8191).2 = true ∧
    2 ^ 64 - 1 < 2 ^ 64 ∧ 2 ^ 32 - 1 < 2 ^ 32 ∧ (recoverPn (2 ^ 32 - 1) 0).2 = false ∧ (recoverPn (2 ^ 64 - 1) 0).2 = true := by
  decide +kernel

theorem witness_ReceivedFramesAreJudged_good : icvGood (planOn 1) 0 (macsec 268268897966971946283633655726667694100) = true := by
  decide +kernel

/-! ### Witnesses: keys, random values, attestation -/

def words (v : W32) : List (Option W32) := List.replicate 8 (some v)
/-- The Staging Interface holds a value and a check word for slot 5. -/
def staged (value : List (Option W32)) (check : Option W32) : State :=
  let s := setKeys served { served.keys with staging := some ⟨5, .data, value, check, 0⟩ }
  withSlot s 5 { KeySlot.default with state := .staged }

/-- The check word of eight words of 1. -/
def check1 : W32 := crc04 (wordBytes (stagedValue ⟨5, .data, words 1, none, 0⟩))

theorem witness_StagingTakesAKeyToLive :
    hpReady served = true ∧ hpReady (staged (words 1) none) = true ∧ hpReady base = true ∧ (0x3FFFF : W32).toNat < 2 ^ 18 ∧ (3 : BitVec 2) = 3 ∧ (0 : BitVec 2) ≠ 3 ∧ 2 ^ 18 ≤ (0x40000 : W32).toNat ∧
    (0x2FFFF : W32).toNat < 3 * 2 ^ 16 ∧ (0x20005 : W32).extractLsb' 0 16 = 5 ∧ served.keys.staging = none ∧
    stagingRefusal served 5 = none ∧ stagingRefusal served 0x803F = none ∧ stagingRefusal served 0xFFFF = some 14 ∧
    (staged (words 1) none).keys.staging = some ⟨5, .data, words 1, none, 0⟩ ∧ drbgServes (staged (words 1) none) = true ∧
    commitFailure ⟨5, .data, words 1, some check1, 0⟩ = none ∧ commitFailure ⟨5, .data, words 0, none, 0⟩ = some 9 ∧
    (slotOf (staged (words 1) none) 5).state = .staged ∧ drbgServes base = false ∧ base.keys.staging = none ∧
    elapsed (staged (words 1) none) 0 (msCycles 10) = true ∧ ctlOn (staged (words 1) none) = true ∧
    elapsed (staged (words 1) none) (10 ^ 13) (msCycles 10) = false := by
  decide +kernel

/-- A child of slot 6, whose generation is `g`, in slot 5. -/
def child (g : W16) : KeySlot := { liveSlot .data with hasParent := true, parent := 6, parentGen := g }
def orphan : State := setKeys served { served.keys with slots := [(5, child 1)] }

theorem witness_SlotsAreInvalidatedAndZeroized :
    hostWrites true 3 0x3802 1 (slotOpBytes 1 5) (withSlot served 5 (liveSlot .mac)) = true ∧ served.keys.slotBusy = false ∧
    refInRange 5 = true ∧ refInRange 0x803F = true ∧ effState (withSlot served 5 (liveSlot .mac)) 5 = .live ∧ effState served 5 ≠ .live ∧
    hostWrites true 3 0x3802 1 (slotOpBytes 2 5) served = true ∧ (slotOf (withSlot served 5 (liveSlot .mac)) 5).state ≠ .empty ∧
    (slotOf (withSlot served 5 (liveSlot .mac)) 5).state ≠ .retired ∧ (slotOf served 5).state = .empty ∧
    (slotOf (withSlot served 5 { KeySlot.default with state := .retired }) 5).state = .retired ∧
    hostWrites true 3 0x3802 1 (slotOpBytes 3 0) served = true ∧ hostWrites true 3 0x3802 1 (slotOpBytes 4 0) served = true ∧
    hostWrites true 3 0x3802 1 (slotOpBytes 5 0) served = true ∧ orphan.keys.slots = [((5 : W16).toNat, child 1)] ∧
    (child 1).state = .live ∧ effState orphan 5 = .stale := by
  decide +kernel

/-- A derivation of `n` DATA keys from the Device Root Secret into slots 16 on. -/
def deriving_ (n : Nat) : State :=
  setReg (setReg (setReg (setReg rooted 0x3804 2 1) 0x3804 3 16) 0x3804 4 (tagDATA.setWidth 64)) 0x3804 7 (BitVec.ofNat 64 n)
def batchOf (src : Bool) (n i : Nat) : Batch :=
  { source := src, parent := 6, first := 16, count := n, next := i, purpose := 1, label := zeros 12, context := zeros 24 }
def inBatch (src : Bool) (n i : Nat) : State :=
  let s := setKeys rooted { rooted.keys with batch := some (batchOf src n i) }
  { s with grants := { s.grants with held := [{ op := .derivation, step := 4, since := 0, external := false }] } }

theorem witness_DerivationsFillTheirTargets :
    hostWrites true 3 0x3804 8 [1] (deriving_ 2) = true ∧ deriveRefusal (deriving_ 2) = none ∧ deriveRefusal (deriving_ 1) = none ∧
    2 ≤ deriveCount (deriving_ 2) ∧ deriveRefusal base = some 6 ∧ (inBatch true 2 0).keys.batch = some (batchOf true 2 0) ∧
    (batchOf true 2 1).next + 1 = (batchOf true 2 1).count ∧ (batchOf true 2 0).next + 1 < (batchOf true 2 0).count ∧
    grantHeld (inBatch true 2 0) .derivation = true ∧ drbgServes (inBatch true 2 0) = true ∧
    effState (withSlot (inBatch false 2 0) 6 (liveSlot .derive)) 6 = .live ∧ effState (inBatch false 2 0) 6 ≠ .live ∧
    base.keys.batch = none := by
  decide +kernel

/-- A remask is due and holds its grant. -/
def remasking (missed : Nat) (overdue : Bool) : State :=
  let s := setKeys served { served.keys with remaskDue := true, remaskMissed := missed, remaskOverdue := overdue }
  { s with grants := { s.grants with held := [{ op := .remask, step := 3, since := 0, external := false }] } }

theorem witness_RemaskingChangesNoKey :
    (remasking 1 false).keys.remaskDue = true ∧ grantHeld (remasking 1 false) .remask = true ∧ drbgServes (remasking 1 false) = true ∧
    served.keys.remaskDue = false ∧ drbgReady served = true ∧ elapsed served served.keys.remaskStart (msCycles (regN served 0x3806 1)) = true ∧
    (remasking 1 false).keys.drbg.requests + sweepRequests (remasking 1 false) ≤ 2 ^ 20 ∧
    2 ^ 20 < (setDrbg served { served.keys.drbg with requests := 2 ^ 20 + 1 }).keys.drbg.requests ∧
    ctlOn served = true ∧ 4 ≤ (remasking 3 false).keys.remaskMissed + 1 ∧ (remasking 3 false).keys.remaskOverdue = false ∧
    (remasking 2 false).keys.remaskMissed + 1 < 4 ∧ (remasking 3 true).keys.remaskOverdue = true ∧ drbgReady base = false := by
  decide +kernel

/-- The DRBG collects, with so many bits and a run of equal samples. -/
def collecting (ph : DrbgPhase) (bits run : Nat) : State :=
  setDrbg base { Drbg.default with phase := ph, entropyBits := bits, repeated := some (7, run) }

theorem witness_TheDrbgCollectsAndServes :
    hostWrites true 3 0x3808 2 [1] base = true ∧ base.keys.drbg.phase = .uninstantiated ∧ served.keys.drbg.phase ≠ .uninstantiated ∧
    hostWrites true 3 0x3808 2 [2] served = true ∧ served.keys.drbg.phase = .ready ∧ (collecting .reseeding 0 1).keys.drbg.phase = .reseeding ∧
    drbgReady base = false ∧ ctlOn base = true ∧ (collecting .instantiating 0 3).keys.drbg.repeated = some (7, 3) ∧
    (collecting .reseeding 0 2).keys.drbg.repeated = some (7, 2) ∧
    (collecting .reseeding 0 2).keys.drbg.entropyBits + regN (collecting .reseeding 0 2) 0x3808 1 < 256 ∧
    384 ≤ (collecting .instantiating 384 2).keys.drbg.entropyBits + regN base 0x3808 1 ∧
    (collecting .instantiating 0 1).keys.drbg.sampleSeen = false ∧ (collecting .instantiating 0 1).keys.drbg.absentRaised = false ∧
    (setPower (collecting .instantiating 384 2) { base.power with transition := .entropy 4 }).power.transition = .entropy 4 ∧
    hostReads true 3 0x3808 4 served = true ∧ drbgServes served = true ∧ drbgServes base = false := by
  decide +kernel

/-- An attestation request runs, restarted `n` times, with its grant and `h` held extends. -/
def attesting (k : AttestKind) (n h : Nat) : State :=
  let s := setAttest rooted { rooted.attest with running := some ⟨k, n, cfgInput rooted⟩, held := List.replicate h (zeros 33) }
  { s with grants := { s.grants with held := [{ op := .signing, step := 6, since := 0, external := false }] } }

/-- A nonce is there. -/
def nonced : State := setAttest rooted { rooted.attest with nonce := List.replicate 16 1, keyReady := true }

theorem witness_AttestationAnswersItsRequests :
    hostWrites true 3 0x3A01 2 [1] nonced = true ∧ hostWrites true 3 0x3A01 2 [2] nonced = true ∧ hostWrites true 3 0x3A01 2 [3] nonced = true ∧
    requestRefusal nonced .native = none ∧ requestRefusal nonced .report = none ∧ requestRefusal nonced .publicKey = none ∧
    requestRefusal (attesting .native 0 0) .native = some 1 ∧ requestRefusal rooted .native = some 3 ∧
    (attesting .native 2 0).keys.drs = some 5 ∧ (attesting .native 2 0).attest.running.map AttestReq.restarts = some 2 ∧
    (attesting .native 2 0).attest.held = [] ∧ grantHeld (attesting .report 3 0) .signing = true ∧ rooted.attest.running = none ∧
    hostWrites true 3 0x3A02 9 (zeros 33) rooted = true ∧ hostWrites true 3 0x3A02 9 (7 :: zeros 32) rooted = true ∧
    (byteAt (7 :: zeros 32) 0).toNat < 8 ∧ (attesting .native 0 7).attest.held.length < 8 ∧ 8 ≤ (attesting .native 0 8).attest.held.length := by
  decide +kernel

/-- CFG covers what it covered when the request began, or something else. -/
theorem witness_AttestationAnswersItsRequests_covered :
    (attesting .native 2 0).attest.running = some ⟨.native, 2, cfgInput (attesting .native 2 0)⟩ ∧
    (setAttest rooted { rooted.attest with running := some ⟨.report, 1, []⟩ }).attest.running = some ⟨.report, 1, []⟩ ∧
    ([] : Bytes) ≠ cfgInput (setAttest rooted { rooted.attest with running := some ⟨.report, 1, []⟩ }) := by
  refine ⟨rfl, rfl, fun h => ?_⟩
  have l := congrArg List.length h
  simp [cfgInput, toBE] at l

/-! ### Witnesses: the classifier -/

/-- A TX_FLOW key and a Station key. -/
def flow : Bytes := 0x01 :: zeros 15
def mac : Bytes := [0, 1, 0, 0, 0, 0, 0, 2]
/-- A Prefix key of family 4 and length 8. -/
def net : Bytes := [0x04, 0, 8, 0, 10] ++ zeros 15

/-- The host's access record names a key, with a result. -/
def keyed (key : Bytes) (r : W32) (s : State) : State :=
  setCls s { s.cls with hostRegs := { s.cls.hostRegs with
    key := (List.range 3).map (fun i => BitVec.ofNat 64 (beNat (slice (fitTo 24 key) (8 * i) 8))), result := r } }

/-- The same keys stand in their tables; descriptor 0 holds prefixes of length 8 in bank 0. -/
def described : State := setReg base 0x3403 1 0x4208
def filled : State := setCls described { described.cls with
  stream := [(streamUnit 0 flow, ⟨flow, 0x01000000⟩)]
  station := [((stationWays base mac).getD 0 0, ⟨mac, 0x00810000, 5⟩)]
  pfxEntries := [(prefixUnit 0 1 net * 4, ⟨net, 0⟩)], filters := [] }

theorem witness_TableCommandsActOnTheTables :
    hostWrites true 3 0x3400 1 (tableOpBytes 1 .stream) (keyed flow 0 base) = true ∧
    hostWrites true 3 0x3400 1 (tableOpBytes 2 .station) (keyed mac 0 filled) = true ∧
    hostWrites true 3 0x3400 1 (tableOpBytes 3 .stream) (keyed flow 0 filled) = true ∧
    hostWrites true 3 0x3400 1 (tableOpBytes 4 .pfx) (keyed net 0 filled) = true ∧
    (setCls filled { filled.cls with rebuild := some ⟨0, 1, 1⟩ }).cls.rebuild.isSome = true ∧
    (keyed flow 0 base).cls.hostRegs.key.flatMap wordBytes = fitTo 24 flow ∧ keyClean .stream (fitTo 24 flow) = true ∧
    keyClean .stream (fitTo 24 [0x03]) = false ∧ entryOk base .stream flow 0 = true ∧ entryOk base .stream flow 0x00010000 = false ∧
    findEntry filled .stream flow = some (streamUnit 0 flow) ∧ flow ∉ tableKeys base .stream ∧
    ((List.range 4).map (fun w => streamUnit w flow)).find? (streamFree base) = some (streamUnit 0 flow) ∧
    freeStation base mac = some ((stationWays base mac).getD 0 0) ∧ findEntry base .stream flow = none ∧
    entryOk filled .stream flow 0 = true ∧ (tableKeys filled .station).count mac = 1 ∧ streamUnit 0 flow < 65536 := by
  decide +kernel

/-- A rebuild of descriptor 0 into bank 1 holds its grant. -/
def rebuilding (s : State) : State :=
  let s1 := setCls s { s.cls with rebuild := some ⟨0, 1, 1⟩ }
  { s1 with grants := { s1.grants with held := [{ op := .rebuild, step := 8, since := 0, external := false }] } }
/-- The bucket that the key would take in bank 1 is retired. -/
def retiredBucket : State := setFaults (rebuilding filled)
  { filled.faults with retired := [(5 * 2 ^ 32 + prefixUnit 1 1 net, true)] }

theorem witness_PrefixTablesAreDescribedAndRebuilt :
    hostWrites true 3 0x3403 (15 + 1) (wordBytes (0x4208 : W32)) base = true ∧ base.cls.rebuild = none ∧
    bit (descriptor filled 0) 9 = true ∧ keyOfDesc (descriptor filled 0) net = true ∧ 32 < field (33 : W64) 7 0 ∧
    hostWrites true 3 0x3404 1 (wordBytes (0x110 : W32)) filled = true ∧ (0x110 : W32).toNat / 256 % 32 = 1 ∧
    (rebuilding filled).cls.rebuild = some ⟨0, 1, 1⟩ ∧ grantHeld (rebuilding filled) .rebuild = true ∧
    filled.cls.pfxEntries.filter (fun e => keyOfDesc (descriptor filled 0) e.2.key) = filled.cls.pfxEntries ∧
    ((filled.cls.pfxEntries.map (fun e => e.2.key)).Nodup) ∧ retiredUnit (rebuilding filled) 5 (prefixUnit 1 1 net) = false ∧
    retiredUnit retiredBucket 5 (prefixUnit 1 1 net) = true ∧ grantHeld base .rebuild = false := by
  decide +kernel

/-- A learning request for the MAC address of the Station key, from a port. -/
def learning (p : Port) (r : Option W32) : State :=
  let s := setCls base { base.cls with learnQ := [⟨mac.drop 2, 1, p⟩] }
  match r with
  | some v => setCls s { s.cls with station := [((stationWays base mac).getD 0 0, ⟨mac, v, 0⟩)] }
  | none => s

theorem witness_LearningAgingAndShadowPasses :
    base.cls.learnQ = [] ∧ base.cls.learnStopped = false ∧
    (setCls base { base.cls with learnStopped := true }).cls.learnStopped = true ∧ base.power.bringUp = .done ∧ domainOn base 4 = true ∧
    domainOn State.reset 4 = false ∧ bit (0x00010000 : W32) 21 = false ∧ bit (0x00010000 : W32) 22 = false ∧ (learning 31 none).cls.learnQ = [⟨mac.drop 2, 1, 31⟩] ∧ toBE 2 (1 : BitVec 12).toNat ++ mac.drop 2 = mac ∧
    findStation (learning 31 none) mac = none ∧ freeStation (learning 31 none) mac = some ((stationWays base mac).getD 0 0) ∧
    learnedCount (learning 31 none) < regN (learning 31 none) 0x3402 3 ∧ regN (setReg base 0x3402 3 0) 0x3402 3 ≤ learnedCount base ∧
    field (reg (setReg base 0x3401 32 0) 0x3401 (31 + 1)) 31 16 ≤ 0 ∧
    spGet natZero (learning 31 none).cls.learned 31 < field (reg (setReg base 0x3401 32 0x10000) 0x3401 (31 + 1)) 31 16 ∧
    findStation (learning 1 (some 0x00810000)) mac = some ((stationWays base mac).getD 0 0) ∧ field (0x00810000 : W32) 20 16 = 1 ∧
    field (0x00810000 : W32) 20 16 ≠ 0 ∧ bit (0x00200000 : W32) 21 = true ∧ bit (0x00400000 : W32) 22 = true ∧
    bit (0x00810000 : W32) 23 = true ∧ bit (0x00010000 : W32) 23 = false ∧ pathOn base = true ∧
    elapsed base base.cls.secondStart 1200000000 = true ∧ pathOn State.reset = false ∧ base.cls.passRunning.getLsbD 0 = false ∧
    (setCls base { base.cls with passRunning := 4 }).cls.passRunning.getLsbD (tableIndex .pfx) = true ∧
    signature base .pfx = toBE 4 0 ++ zeros 8 ∧ base.cls.expected.getD 2 [] = zeros 12 := by
  decide +kernel

/-! ### Witnesses: memory -/

/-- Region 0 in mode 3 on channel 0: 64 lines at 0, tags at line 1000, counters at line 2000, key in slot 5. -/
def guarded (st : RegionState) : State :=
  let s := setReg (setReg (setReg (setReg (setReg served 0x3C01 1 0x103) 0x3C01 3 4096) 0x3C01 4 64000) 0x3C01 5 128000) 0x3C01 6 5
  setRegionDyn (withSlot s 5 { liveSlot .data with txu := true, bindings := 1 }) 0 { RegionDyn.default with state := st }

/-- A read passes through to mc_ on channel 1, outstanding under identifier 0. -/
def reading : State := setMemChan served 1 { MemChan.default with
  ops := [{ newOp .read 7 3 none with seq := 0 }], mc := [⟨0, 0, 7, false, 0, 0, 0, true⟩], nextSeq := 1 }

theorem witness_MemoryRequestsAreDecodedAndPassed :
    (∃ c ∈ regionsOf (guarded .active), inMetadata c 1000 = true) ∧ (∀ c ∈ regionsOf (guarded .active), inMetadata c 64 = false) ∧
    (regionsOf (guarded .active)).filter (fun x => inSpan 63 x.base x.lines) = [regionCfg (guarded .active) 0] ∧
    regionsOf served = [] ∧ mqReady State.reset 0 = false ∧ memChan (guarded .active) 0 = MemChan.default ∧ pathOn (guarded .active) = true ∧
    decodeLine (guarded .active) 1 63 = .refused (some 0) ∧ decodeLine (guarded .uninit) 0 0 = .region 0 ∧
    (regionDyn (guarded .uninit) 0).old = [] ∧ (regionDyn (guarded .writeLocked) 0).state = .writeLocked ∧ decodeLine (guarded .writeLocked) 0 0 = .region 0 ∧
    MemChan.default.mcReady = true ∧ (regionDyn (guarded .uninit) 0).state = .uninit ∧ decodeLine served 1 (2 ^ 34 - 1) = .through ∧
    (1 : BitVec 2) ≠ 0 ∧ (∀ q ∈ (memChan reading 1).mc, q.id ≠ (1 : BitVec 10).toNat) ∧
    memChan reading 1 = { MemChan.default with ops := [{ newOp .read 7 3 none with seq := 0 }], mc := [⟨0, 0, 7, false, 0, 0, 0, true⟩], nextSeq := 1 } ∧
    elapsed reading 0 (usCycles (regN reading 0x3C00 (1 + 1))) = true ∧ elapsed reading (10 ^ 13) (usCycles (regN reading 0x3C00 (1 + 1))) = false := by
  decide +kernel

def lineAt (a : Nat) (k : LineKind) (dirty : Bool) (d : BitVec 512) : Nat × CacheLine :=
  (cacheSet a * 16, { addr := a, region := 0, kind := k, dirty := dirty, data := d })

/-- Region 0 is ACTIVE with the counter node and the tags of its first lines in the cache. -/
def cachedIn (node : BitVec 512) (dirty : Bool) : State :=
  let s := guarded .active
  let a := lineAt (nodeAddr (regionCfg s 0) 1 0) (.node 1 0) false node
  let b := lineAt (dataTagAddr (regionCfg s 0) 0) (.dataTags 0) dirty 0
  { s with mem := { s.mem with cache := spPut (spPut [] a.1 a.2) b.1 b.2 } }

/-- A read of line 0 waits for its data, after so many failed attempts. -/
def verifying (once : List Nat) : State :=
  setMemChan (cachedIn 0 false) 0 { MemChan.default with
    ops := [{ newOp .read 0 3 (some 0) with seq := 0, once := once }], mc := [⟨0, 0, 0, false, 0, 0, 0, true⟩], nextSeq := 1 }

/-- A renormalisation of node 0 of level 1 has written its children. -/
def renorming (level : Nat) : State :=
  setMemChan (cachedIn 0 false) 0 { MemChan.default with
    ops := [{ newOp (.renorm level 0) 0 0 (some 0) with cipher := some 0 }], nextSeq := 1 }

theorem witness_ProtectedLinesAreVerifiedAndCounted :
    pathOn (cachedIn 0 false) = true ∧ memChan (cachedIn 0 false) 0 = MemChan.default ∧ (regionCfg (cachedIn 0 false) 0).mode = 3 ∧
    decodeLine (cachedIn 0 false) 0 0 = .region 0 ∧ (0 : BitVec 34).toNat = (regionCfg (cachedIn 0 false) 0).base + 0 ∧
    (regionDyn (cachedIn 0 false) 0).state = .active ∧ groupCount (cachedIn 0 false) 4 ≠ 0 ∧
    poisonedLine (setRegionDyn (cachedIn 0 false) 0 { RegionDyn.default with state := .active, poisoned := true }) 0 0 = true ∧
    poisonedLine (cachedIn 0 false) 0 0 = false ∧ (regionDyn (cachedIn 0 false) 0).nextBound = false ∧
    keyUsable (cachedIn 0 false) (regionCfg (cachedIn 0 false) 0).key = true ∧
    cached (cachedIn 0 false) (nodeAddr (regionCfg (guarded .active) 0) 1 (0 / 64)) = some (lineAt 2000 (.node 1 0) false 0).2 ∧
    cached (cachedIn 0 false) (dataTagAddr (regionCfg (guarded .active) 0) 0) = some (lineAt 1000 (.dataTags 0) false 0).2 ∧
    dataTagAddr (regionCfg (guarded .active) 0) 0 ≠ nodeAddr (regionCfg (guarded .active) 0) 1 0 ∧ nodeMinor 0 (0 % 64) ≠ 127 ∧
    nodeMinor (setMinor 0 0 127) 0 = 127 ∧ nodeMajor (setMinor 0 0 127) ≠ BitVec.allOnes 64 ∧
    nodeMajor (BitVec.allOnes 512) = BitVec.allOnes 64 ∧ nodeMinor (BitVec.allOnes 512) 0 = 127 ∧
    (memChan (verifying []) 0).ops = [{ newOp .read 0 3 (some 0) with seq := 0, once := [] }] ∧
    (memChan (verifying [0]) 0).mc = [⟨0, 0, 0, false, 0, 0, 0, true⟩] ∧ 0 ∈ ([0] : List Nat) ∧
    keyUsable (verifying []) (lineKey (verifying []) (regionCfg (verifying []) 0) 0) = true ∧
    (∀ x ∈ (verifying []).mem.cache, x.2.addr ≠ 0) ∧ pathOn State.reset = false ∧ (memChan served 0).ops = [] := by
  decide +kernel

theorem witness_ProtectedLinesAreVerifiedAndCounted_lines :
    (memChan (renorming 1) 0).ops = [{ newOp (.renorm 1 0) 0 0 (some 0) with cipher := some 0 }] ∧
    (∀ w ∈ ({ newOp (.renorm 1 0) 0 0 (some 0) with cipher := some 0 } : MemOp).children,
      w.1 ∈ ({ newOp (.renorm 1 0) 0 0 (some 0) with cipher := some 0 } : MemOp).done) ∧
    1 ≤ levelsOf (regionCfg (renorming 1) 0).lines ∧ levelsOf (regionCfg (renorming 2) 0).lines < 2 ∧
    cached (renorming 1) (nodeAddr (regionCfg (renorming 1) 0) 1 0) = some (lineAt 2000 (.node 1 0) false 0).2 ∧
    spFind served.mem.cache (2047 * 16 + 15) = none ∧ spFind (cachedIn 0 false).mem.cache (cacheSet 2000 * 16) ≠ none ∧
    cachePlace (cachedIn 0 true) 1000 = some (cacheSet 1000 * 16) ∧
    spFind (cachedIn 0 true).mem.cache (cacheSet 1000 * 16) = some (lineAt 1000 (.dataTags 0) true 0).2 ∧
    cacheSet 1000 < 2048 ∧ memChan (cachedIn 0 true) 0 = MemChan.default ∧ chanOf (regionCfg (cachedIn 0 true) 0) = 0 := by
  decide +kernel

/-- A full write of line 0 waits, with the counter entry of the line at 127. -/
def spent : State :=
  setMemChan (cachedIn (setMinor 0 0 127) false) 0 { MemChan.default with
    ops := [{ newOp (.write 5 (BitVec.allOnes 64)) 0 3 (some 0) with seq := 0 }], nextSeq := 1 }

/-- The dirty counter node of level 1 with its tag line, and with its parent node where the region has two levels. -/
def nodeDirty (wide : Bool) : State :=
  let s := if wide then setReg (setReg (setReg (guarded .active) 0x3C01 3 524288) 0x3C01 4 640000) 0x3C01 5 1280000 else guarded .active
  let c := regionCfg s 0
  let a := lineAt (nodeAddr c 1 0) (.node 1 0) true 0
  let b := lineAt (nodeTagAddr c 1 0) (.nodeTags 1 0) false 0
  let p := lineAt (nodeAddr c 2 0) (.node 2 0) false 0
  { s with mem := { s.mem with cache := spPut (spPut (if wide then spPut [] p.1 p.2 else []) a.1 a.2) b.1 b.2 } }

theorem witness_ProtectedLinesAreVerifiedAndCounted_renormalisation :
    pathOn spent = true ∧ memChan spent 0 = { MemChan.default with
      ops := [{ newOp (.write 5 (BitVec.allOnes 64)) 0 3 (some 0) with seq := 0 }], nextSeq := 1 } ∧
    (regionCfg spent 0).mode = 3 ∧ chanOf (regionCfg spent 0) = 0 ∧ (0 : BitVec 34).toNat = (regionCfg spent 0).base + 0 ∧
    (regionDyn spent 0).state = .active ∧ (regionDyn spent 0).old = [] ∧ (regionDyn spent 0).run = none ∧ poisonedLine spent 0 0 = false ∧
    lineDead spent (regionCfg spent 0) 0 = false ∧ keyUsable spent (lineKey spent (regionCfg spent 0) 0) = true ∧
    cached spent (nodeAddr (regionCfg spent 0) 1 (0 / 64)) = some (lineAt 2000 (.node 1 0) false (setMinor 0 0 127)).2 ∧
    nodeMinor (setMinor 0 0 127) (0 % 64) = 127 ∧ nodeMajor (setMinor 0 0 127) ≠ BitVec.allOnes 64 ∧
    lineDead (cachedIn 0 false) (regionCfg (cachedIn 0 false) 0) 0 = false ∧ (regionDyn (renorming 1) 0).old = [] ∧
    chanOf (regionCfg (verifying []) 0) = 0 ∧ (regionDyn (verifying []) 0).old = [] ∧ (memChan (verifying []) 0).withheld = [] := by
  decide +kernel

theorem witness_ProtectedLinesAreVerifiedAndCounted_nodes (wide : Bool) (s : State) (n : Nat) (h : s = nodeDirty wide) (hn : n = nodeAddr (regionCfg s 0) 1 0) :
    pathOn s = true ∧ cachePlace s n = some (cacheSet n * 16) ∧
    spFind s.mem.cache (cacheSet n * 16) = some (lineAt n (.node 1 0) true 0).2 ∧ 0 < n ∧
    (regionDyn s 0).old = [] ∧ chanOf (regionCfg s 0) = 0 ∧ memChan s 0 = MemChan.default ∧
    (if wide then 1 < levelsOf (regionCfg s 0).lines ∧
        cached s (nodeAddr (regionCfg s 0) (1 + 1) (0 / 64)) = some (lineAt (nodeAddr (regionCfg s 0) 2 0) (.node 2 0) false 0).2
      else levelsOf (regionCfg s 0).lines ≤ 1 ∧ nodeMinor (regionDyn s 0).root 0 ≠ 127) ∧
    nodeDead s (regionCfg s 0) 1 0 = false ∧ keyUsable s (nodeKey s (regionCfg s 0) 1 0) = true ∧
    cached s (nodeTagAddr (regionCfg s 0) 1 0) = some (lineAt (nodeTagAddr (regionCfg s 0) 1 0) (.nodeTags 1 0) false 0).2 ∧
    nodeTagAddr (regionCfg s 0) 1 0 ≠ n ∧ nodeAddr (regionCfg s 0) (1 + 1) (0 / 64) ≠ n ∧
    nodeAddr (regionCfg s 0) (1 + 1) (0 / 64) ≠ nodeTagAddr (regionCfg s 0) 1 0 ∧ nodeMinor 0 (0 % 64) ≠ 127 := by
  subst hn h
  cases wide <;> decide +kernel

/-- Region 0 is described but not enabled, and its key is unused. -/
def ready : State := withSlot (setReg (guarded .disabled) 0x3C01 1 3) 5 (liveSlot .data)

/-- A command of region 0 runs at an item. -/
def commanded (k : SweepKind) (item : Nat) : State :=
  setRegionDyn (guarded .active) 0 { RegionDyn.default with state := .active, run := some { kind := k, item := item, major := 1, resumed := false, newTag := none } }

/-- Region 0 closes while a request waits. -/
def busyRegion : State := setMemChan (guarded .active) 0 { MemChan.default with ops := [newOp .read 0 3 (some 0)], nextSeq := 1 }

/-- Slot 6 is a key to move to. -/
def rekeyable (st : RegionState) : State := setReg (withSlot (guarded st) 6 (liveSlot .data)) 0x3C01 7 6

theorem witness_RegionsAreEnabledAndRunTheirCommands :
    hostWrites true 3 (regionIdx 0) 1 (wordBytes (setBit (3 : W64) 8 true)) ready = true ∧ bit (reg (guarded .active) (regionIdx 0) 1) 8 = true ∧
    bit (reg ready (regionIdx 0) 1) 8 = false ∧ enableRegionOk ready 0 (setBit 3 8 true) = true ∧
    enableRegionOk base 7 0x103 = false ∧ hostWrites true 3 (regionIdx 7) 1 (wordBytes (0x103 : W64)) base = true ∧
    hostWrites true 3 (regionIdx 0) 1 (wordBytes (setBit (reg (guarded .active) (regionIdx 0) 1) 8 false)) (guarded .active) = true ∧
    (regionDyn (commanded .rekey 0) 0).run.isSome = true ∧ (∀ o ∈ (memChan (guarded .active) 0).ops, o.region ≠ some 0) ∧
    (∃ o ∈ (memChan busyRegion (chanOf (regionCfg busyRegion 0))).ops, o.region = some 0 ∧ isRequest o = true) ∧
    (regionCfg (guarded .active) 0).mode ≠ 1 ∧ refInRange (regionCfg (guarded .active) 0).key = true ∧
    (regionDyn (guarded .active) 0).old = [] ∧ pathOn (guarded .active) = true := by
  decide +kernel

theorem witness_RegionsAreEnabledAndRunTheirCommands_runs :
    hostWrites true 3 (regionIdx 0) 8 (toBE 4 1) (guarded .uninit) = true ∧ hostWrites true 3 (regionIdx 0) 8 (toBE 4 2) (rekeyable .active) = true ∧
    hostWrites true 3 (regionIdx 0) 8 (toBE 4 (3 + 1 * 8 + 0 * 256)) (guarded .active) = true ∧
    reseeding (commanded (.reseed 1 0) 0) 0 = true ∧ reseeding (rekeyable .active) 0 = false ∧ (regionDyn (guarded .uninit) 0).run = none ∧
    (regionCfg (guarded .uninit) 0).mode = 3 ∧ (regionDyn (guarded .active) 0).state = .active ∧
    regionKeyOk (guarded .active) 3 (regionCfg (guarded .active) 0).nextKey = false ∧
    regionKeyOk (rekeyable .writeLocked) 3 (regionCfg (rekeyable .writeLocked) 0).nextKey = true ∧
    nodeExists (regionCfg (guarded .active) 0) 1 0 = true ∧ nodeExists (regionCfg (guarded .active) 0) 2 0 = false ∧
    nodeExists (regionCfg (guarded .active) 0) 1 1 = false ∧ (regionDyn (guarded .active) 0).ceiling ≠ BitVec.allOnes 64 ∧
    (regionDyn (setRegionDyn (guarded .active) 0 { RegionDyn.default with state := .active, ceiling := BitVec.allOnes 64 }) 0).ceiling =
      BitVec.allOnes 64 ∧
    runItems (regionCfg (commanded .rekey 64) 0) { kind := .rekey, item := 64, major := 1, resumed := false, newTag := none } ≤ 64 ∧
    runItems (regionCfg (commanded .initialise 100) 0) { kind := .initialise, item := 100, major := 1, resumed := false, newTag := none } ≤ 100 ∧
    runItems (regionCfg (commanded (.reseed 1 0) 100) 0) { kind := .reseed 1 0, item := 100, major := 1, resumed := false, newTag := none } ≤ 100 ∧
    pathOn (commanded .rekey 64) = true ∧ (regionDyn (commanded .rekey 64) 0).run.isSome = true ∧
    63 < runItems (regionCfg (commanded .rekey 63) 0) { kind := .rekey, item := 63, major := 1, resumed := false, newTag := none } := by
  decide +kernel

/-! ### Witnesses: trunks -/

/-- Trunk 0 with its key in slot 5, enabled on all lanes. -/
def onKey (x : TrunkSt) : State :=
  let s := withSlot (setReg (setReg served 0x4001 2 5) 0x4005 1 0x1FF) 5 { liveSlot .data with txu := true, bindings := 1 }
  setTrunk s 0 x

/-- A session on lane 0 in which nothing is due. -/
def quiet : TrunkSt :=
  { TrunkSt.default with state := .up, active := 1, rxActive := 1, sender := .run, lastAck := 10 ^ 13, creditStart := 10 ^ 13, windowStart := 0
                         epoch := 1, cr := [(0, 100), (1, 100), (2, 100), (3, 100)], aLast := some 0, lccLast := some 0 }

def tfWord (err : Bool) : TfWord := { data := 0, sop := true, eop := true, nbytes := 32, vc := 1, dst := 9, err := err }
def payload32 : TxPayload := { dst := 9, payload := zeros 32, acceptedAt := 0, acceptedIn := 0 }
def heldEntry (r : Nat) : ReplayEntry :=
  { esn := 0, vc := 1, dst := 9, r := r, sent := true, settled := true, charge := 1, payload := zeros 32, lost := false }
def replaying (r : Nat) : TrunkSt := { quiet with n := 1, entries := [heldEntry r], sender := .replay, replayPtr := 0, timerStart := some 0 }
def sending : TrunkSt := { quiet with txQ := [(1, [payload32])], n := 2 ^ 64 - 2, u := 2 ^ 64 - 2, replayPtr := 2 ^ 64 - 2 }

theorem witness_TrunkPayloadsAreNumberedAndReplayed :
    pathOn (onKey quiet) = true ∧ trunkUp (onKey quiet) 0 = true ∧ (trunk (onKey quiet) 0).tfOpen = none ∧ (tfWord true).eop = true ∧
    1 ≤ (tfWord false).nbytes.toNat ∧ (tfWord false).nbytes.toNat ≤ 32 ∧ 32 ≤ ((wordBytes (tfWord false).data).take 32).length ∧
    queueUnits (trunk (onKey quiet) 0) 1 (32 * (0 + 1)) ≤ queueCapacity (onKey quiet) 0 1 ∧
    (trunk (onKey { quiet with tfOpen := some ⟨1, 9, [], 0, 0, 0⟩ }) 0).tfOpen = some ⟨1, 9, [], 0, 0, 0⟩ ∧ 0 + 4096 < (onKey quiet).now ∧
    (trunk (onKey quiet) 0).changing = [] ∧ (trunk (onKey quiet) 0).commands = [] ∧ (txKey (onKey quiet) 0).isSome = true ∧
    maySwitchTx (onKey quiet) 0 = false ∧ ackIsDue (onKey { quiet with ackDue := true }) 0 = true ∧ quiet.sender ≠ .keyHalt ∧
    quiet.lineOut.length + 1 < 20 * widthOf quiet.active ∧ ackIsDue (onKey sending) 0 = false ∧ sending.n ≤ sending.replayPtr ∧
    freshWinner (onKey sending) 0 = some 1 ∧ txQueue sending 1 = [payload32] ∧ sending.n + 1 < 2 ^ 64 ∧
    ackIsDue (onKey (replaying 14)) 0 = false ∧ (replaying 14).sender = .replay ∧ nextReplay (replaying 14) = some (heldEntry 14) ∧
    (replaying 14).lineOut.length + ceilDiv ((heldEntry 14).payload.length + 32) 32 < 20 * widthOf quiet.active ∧ (heldEntry 15).r = 15 ∧
    pathOn State.reset = false ∧ (trunk base 1).state ≠ .up := by
  decide +kernel

theorem witness_TrunkPayloadsAreNumberedAndReplayed_units (k : UnitKey) (iv : BitVec 96) (hdr : Bytes) (h : hdr.length = 12) :
    sending.lineOut.length + (packetUnits (packetBytes k iv hdr false (zeros 32))).length < 20 * widthOf sending.active := by
  have l : (packetUnits (packetBytes k iv hdr false (zeros 32))).length = 2 := by
    simp [packetUnits, packetBytes, fitTo, zeros, ctrCrypt, xorBytes, toBE, h, ceilDiv, flitsOf, keystream]
  rw [l]; decide

/-- VC1 has a period of 1,000,000 ns, and local time is a little past its first second. -/
def trunkLate : State :=
  let s := setReg (onKey { quiet with txQ := [(1, [payload32])], headSince := [(2, some 0)], timerStart := some 0 }) 0x4005 10 1000000
  setTime s { s.time with d0 := { s.time.d0 with clk := secUnit + nsUnit } }

theorem witness_TrunkPayloadsAreNumberedAndReplayed_timers :
    (trunk trunkLate 0).timerStart = some 0 ∧ elapsed trunkLate 0 (usCycles (regN trunkLate 0x4001 5)) = true ∧
    elapsed trunkLate (10 ^ 13) (usCycles (regN trunkLate 0x4001 5)) = false ∧ (trunk trunkLate 0).sender ≠ .keyHalt ∧
    spGet sinceNone (trunk trunkLate 0).headSince 2 = some 0 ∧ vc1Period trunkLate 0 ≠ 0 ∧ vc1Period base 0 = 0 ∧
    (trunk trunkLate 0).tfOpen = none ∧
    (∃ p ∈ txQueue (trunk trunkLate 0) 1, p.acceptedAt < lastBoundaryNs (vc1Period trunkLate 0) (vc1Phase trunkLate 0) (localNs trunkLate)) := by
  decide +kernel

def rxPay (v : BitVec 2) : RxPayload := { vc := v, src := 9, payload := zeros 32 }
def laneChange : LaneChange :=
  { own := true, mask := 3, cmdId := 0, txAt := 0, rxAt := 0, txDone := false, rxDone := false, sent := true }

theorem witness_TrunkReceiversAcceptInOrder :
    trunkUp (onKey quiet) 0 = true ∧ (rxKey (onKey quiet) 0 false).isSome = true ∧ 32 ≤ (zeros 2048).length ∧ (zeros 2048).length ≤ 2048 ∧
    nodeId (onKey quiet) 0 = nodeId base 0 ∧ chargeOf 32 ≤ roomOf (onKey quiet) 0 0 ∧
    ((0 : W16) - BitVec.ofNat 16 (trunk (onKey quiet) 0).e).toNat = 0 ∧ ((0x8000 : W16) - BitVec.ofNat 16 quiet.e).toNat = 32768 ∧
    (trunk (onKey quiet) 0).changing = [] ∧ ([] : List (List (BitVec 10))).length ≠ widthOf quiet.rxActive ∧
    widthOf quiet.rxActive = 1 ∧ quiet.deferred = none ∧ (∀ l, l < 8 → (laneOf quiet l).failed = false ∧ (laneOf quiet l).degraded = false) ∧
    ({ quiet with presenting := some (rxPay 3) } : TrunkSt).presenting = some (rxPay 3) ∧ (8 : BitVec 4).getLsbD (rxPay 3).vc.toNat = true ∧
    quiet.presenting = none ∧ (∀ v, v < 4 → (15 : BitVec 4).getLsbD v = true → rxQueue quiet v = []) ∧
    [1, 2, 0, 3].find? (fun u => (15 : BitVec 4).getLsbD u && !(rxQueue { quiet with rxQ := [(2, [rxPay 2])] } u).isEmpty) = some 2 ∧
    rxQueue { quiet with rxQ := [(2, [rxPay 2])] } 2 = [rxPay 2] ∧ (rxPay 2).vc.toNat = 2 ∧
    elapsed (onKey { quiet with creditStart := 0 }) 0 (usCycles (mgmtN (onKey quiet) 0 6)) = true ∧
    elapsed (onKey quiet) quiet.creditStart (usCycles (mgmtN (onKey quiet) 0 6)) = false ∧
    elapsed (onKey quiet) quiet.windowStart (usCycles (mgmtN (onKey quiet) 0 4)) = true ∧
    elapsed (onKey quiet) (10 ^ 13) (usCycles (mgmtN (onKey quiet) 0 4)) = false := by
  decide +kernel

/-- A lane that carries no marker, and one whose first word is lane 0's. -/
def plainLane : List W64 := List.replicate 85 0
def markedLane : List W64 := laneMarker 0 :: List.replicate 84 0

theorem witness_TrunkReceiversAcceptInOrder_codewords :
    markedLanes quiet.rxActive [plainLane] = 0 ∧ [plainLane].length = widthOf quiet.rxActive ∧
    [markedLane].length ≤ 2 * markedLanes quiet.rxActive [markedLane] ∧ [markedLane].length = widthOf quiet.rxActive ∧
    quiet.rxStarted = false ∧ ({ quiet with rxStarted := true } : TrunkSt).rxStarted = true ∧ quiet.state = .up ∧ quiet.changing = [] ∧
    rxWords (rxPay 3) ≤ 0 + 1 ∧ 0 + 0 < rxWords (rxPay 3) ∧ quiet.rxStall = none ∧
    ({ quiet with rxStall := some 4 } : TrunkSt).rxStall.isSome = true := by
  decide +kernel

theorem witness_TrunkReceiversAcceptInOrder_lanes :
    (trunk base 0).state = .disabled ∧ (trunk (onKey quiet) 0).state ≠ .disabled ∧ (laneMask (onKey quiet) 0).getLsbD 7 = true ∧
    (laneMask (setReg (onKey quiet) 0x4005 1 3) 0).getLsbD 7 = false ∧ quiet.active.getLsbD 0 = true ∧
    widthOf quiet.active ≤ minWidth (onKey quiet) 0 ∧ quiet.partnerGood = 0 ∧ (∀ j, j < 8 → (laneOf quiet j).failed = false) ∧
    quiet.lineOut = [] ∧ quiet.retrainLeft = 0 ∧ widthOf quiet.active < widthMax (onKey quiet) 0 ∧
    (spareLanes (onKey { quiet with partnerGood := 2, lanes := [(1, { Lane.default with locked := true, aligned := true, goodSince := some 0 })] }) 0).head? =
      some 1 ∧
    elapsed (onKey quiet) 0 (msCycles 1) = true ∧ ({ quiet with changing := [laneChange] } : TrunkSt).changing = [laneChange] ∧
    quiet.sender ≠ .keyHalt ∧ (txKey (onKey quiet) 0).isSome = true ∧ ownChange quiet = none ∧ widthOf (nextSet quiet) < widthMax (onKey quiet) 0 ∧
    (ownChange { quiet with changing := [laneChange] }).isSome = true ∧ widthMax (onKey quiet) 0 ≤ widthOf (nextSet { quiet with active := 0xFF }) ∧
    laneChange.own = true ∧ laneChange.sent = true ∧ ({ laneChange with sent := false } : LaneChange).sent = false ∧
    ({ laneChange with own := false } : LaneChange).own = false ∧ laneChange.txDone = false ∧ laneChange.rxDone = false ∧ laneChange.txAt = quiet.txGroup ∧ laneChange.rxAt = quiet.rxGroup ∧
    ({ laneChange with rxDone := true } : LaneChange).rxDone = true ∧ ({ laneChange with txAt := 5 } : LaneChange).txAt ≠ quiet.txGroup := by
  decide +kernel

/-- A training flit of a kind from node 9. -/
def flit (kind flags : Byte) : Bytes := closeFlit ([kind, flags, 0, 9, 1, 1, 1] ++ zeros 21)
/-- The same from the trunk's own node. -/
def echo : Bytes := closeFlit ([0x10, 1, 0, 0, 1, 1, 1] ++ zeros 21)
/-- Training, with lane 0 aligned. -/
def training (st : TrunkState) : TrunkSt :=
  { TrunkSt.default with state := st, epoch := 1, ts1Partner := some (flit 0x10 1), ts2Partner := some (flit 0x11 0)
                         ts3Own := flit 0x12 0, ts3Since := some 0, ts3Good := true, laneSet := 1
                         lanes := [(0, { Lane.default with locked := true, aligned := true })] }

theorem witness_TrunksTrainIntoASession :
    hostWrites true 3 (0x4001 + 0) (keySub .key) (wordBytes (6 : W16)) (withSlot (onKey quiet) 6 (liveSlot .data)) = true ∧
    hostWrites true 3 (0x4001 + 1) (keySub .nextKey) (wordBytes (6 : W16)) (withSlot base 6 (liveSlot .data)) = true ∧
    (trunk (onKey { quiet with txOnNext := true }) 0).txOnNext = true ∧ refInRange 0x4001 = false ∧ refRetention 0x8000 = true ∧
    keyUsable base 6 = false ∧ keyUsable (withSlot base 6 (liveSlot .data)) 6 = true ∧ (slotOf (withSlot base 6 (liveSlot .data)) 6).txu = false ∧
    (slotOf (withSlot base 6 (liveSlot .data)) 6).bindings < 32767 ∧ (reg base 0x4002 3).setWidth 16 ≠ (6 : W16) ∧
    hostWrites true 3 0x4001 0x0B [1] base = true ∧ hostWrites true 3 (0x4005 + 1) 1 (controlBytes base 1 true) base = true ∧
    hostWrites true 3 0x4005 1 (controlBytes (onKey quiet) 0 false) (onKey quiet) = true ∧ (trunk base 1).state = .disabled ∧
    trunkEnabled (onKey quiet) 0 = true ∧ trunkEnabled base 0 = false ∧ (txKey (onKey quiet) 0).isSome = true ∧
    txKey (withSlot (onKey quiet) 5 KeySlot.default) 0 = none ∧ hostWrites true 3 (0x4005 + 0) 0x0C [1] (onKey quiet) = true := by
  decide +kernel

theorem witness_TrunksTrainIntoASession_flits :
    flitAccepted 0x10 (zeros 32) = false ∧ flitAccepted 0x10 (flit 0x10 1) = true ∧ flitAccepted 0x11 (flit 0x11 0) = true ∧
    flitAccepted 0x12 (flit 0x12 0) = true ∧ flitAccepted 0x13 (flit 0x13 0) = true ∧ (trunk (onKey (training .backoff)) 0).state = .backoff ∧
    beNat (slice echo 2 2) = (nodeId (onKey (training .align)) 0).toNat ∧ flitAccepted 0x10 echo = true ∧
    beNat (slice (flit 0x10 1) 2 2) ≠ (nodeId (onKey (training .align)) 0).toNat ∧ refInRange (trunkKey (onKey (training .align)) 0) = true ∧
    bit (byteAt (flit 0x10 1) 1) 0 = true ∧ drbgServes (onKey (training .align)) = true ∧
    minWidth (onKey (training .align)) 0 ≤ widthOf (lanesMask ((maskLanes (laneMask (onKey (training .align)) 0 &&& rxGood (training .align) &&&
      byteAt (flit 0x10 1) 4)).take (Nat.min (widthMax (onKey (training .align)) 0) (byteAt (flit 0x10 1) 5).toNat))) ∧
    refInRange (trunkKey base 0) = false ∧ bit (byteAt (flit 0x11 0) 1) 0 = (training .exchange).useNext ∧
    (nodeId (onKey (training .exchange)) 0).toNat < beNat (slice (flit 0x10 1) 2 2) ∧
    (∀ l ∈ maskLanes (byteAt (flit 0x11 0) 4), (laneOf (training .exchange) l).aligned = true) ∧
    bit (byteAt (flit 0x11 1) 1) 0 ≠ (training .exchange).useNext := by
  decide +kernel

theorem witness_TrunksTrainIntoASession_states :
    rxDrained (training .confirm) = true ∧ (training .confirm).ts3Own ≠ [] ∧ (training .confirm).pauseSince = none ∧
    (sessionKey (onKey (training .confirm)) 0).isSome = true ∧ (training .confirm).ts3Since = some 0 ∧ (training .confirm).ts3Good = true ∧
    elapsed (onKey (training .confirm)) 0 1013 = true ∧
    elapsed (onKey (training .align)) (training .align).trainStart (usCycles (mgmtN (onKey quiet) 0 7) + (training .align).trainPaused) = true ∧
    ({ training .align with pauseSince := some 0 } : TrunkSt).pauseSince.isSome = true ∧ (training .align).pauseSince = none ∧
    ({ training .confirm with ts3Since := none, pauseSince := some 3 } : TrunkSt).pauseSince = some 3 ∧
    rxDrained { training .confirm with rxQ := [(0, [rxPay 0])] } = false ∧ (training .align).partnerUnbound = false ∧
    ({ training .align with partnerUnbound := true } : TrunkSt).partnerUnbound = true ∧
    refInRange (trunkKey (onKey (training .align)) 0) = true ∧
    elapsed (onKey (training .backoff)) 0 (usCycles (Nat.min (16 * 2 ^ Nat.min ((training .backoff).failures - 1) 16) (mgmtN (onKey quiet) 0 8))) =
      true ∧
    ({ training .align with ts1Partner := none } : TrunkSt).ts1Partner = none ∧ (laneMask (onKey (training .align)) 0).getLsbD 7 = true ∧
    (laneOf (training .align) 7).aligned = false := by
  decide +kernel

/-! ### Witnesses: the Time Unit -/

/-- Domain 0 is enabled with a source and in a state; automatic selection is off. -/
def clocked (src : Nat) (st : DomainState) : State :=
  let s := setReg (setReg base 0x4400 1 0x10000) 0x4401 1 (BitVec.ofNat 64 (1 + 2 * src))
  setTime s { s.time with d0 := { s.time.d0 with state := st, run := 254, lastSample := 0 } }

/-- An edge came in on pps_in[1] in a cycle. -/
def edged (c : Nat) : State := setPps (clocked 2 .locked) 1 { lastEdge := some c, last := 0 }

theorem witness_ServoSamplesSteerTheDomain :
    hostWrites true 3 (0x4401 + 0) 0x0A (wordBytes (0 : W64)) (clocked 0 .acquiring) = true ∧ bit (reg (clocked 0 .free) 0x4400 1) 0 = false ∧
    domEnabled (clocked 0 .free) 0 = true ∧ domSource (clocked 0 .free) 0 = 0 ∧ domEnabled (clocked 0 .free) 1 = false ∧
    domSource (clocked 1 .free) 0 ≠ 0 ∧ (0 : W64).toInt.natAbs < domReg (clocked 0 .free) 0 6 * 65536 ∧
    domReg (clocked 0 .free) 0 6 * 65536 ≤ (0x7FFFFFFFFFFFFFFF : W64).toInt.natAbs ∧
    domReg (clocked 0 .free) 0 8 ≤ satInc 255 (domainOf (clocked 0 .acquiring).time 0).run ∧
    (0 : W64).toInt.natAbs ≤ domReg (clocked 0 .free) 0 7 * 65536 ∧ (clocked 0 .locked).time.sel = 0 ∧
    (domainOf (clocked 0 .locked).time (otherDomain 0)).state ≠ .locked ∧ (domainOf (clocked 0 .locked).time 0).state = .locked ∧
    hostWrites true 3 (0x4401 + 1) 0x0E [1] base = true ∧ hostWrites true 3 (0x4401 + 1) 0x0E [2] base = true ∧
    hostWrites true 3 (0x4401 + 1) 0x0E [3] base = true ∧ timeOn State.reset = false ∧ timeOn (edged 0) = true ∧
    (edged (10 ^ 13 - 59)).now < 10 ^ 13 - 59 + 60 ∧ 10 ^ 13 - 60 + 60 ≤ (edged 0).now ∧ domEnabled (edged 0) 0 = true ∧
    domSource (edged 0) 0 = 1 + 1 ∧ domEnabled (edged 0) (otherDomain 0) = false ∧ isOutlier (edged 0) (domainOf (edged 0).time 0) = false ∧
    isOutlier (edged 0) { domainOf (edged 0).time 0 with lastEdge := some 0 } = true ∧
    (edgeTheta (viewOf (edged 0) 0) (regN (edged 0) 0x4449 1)).natAbs < domReg (edged 0) 0 6 * 65536 := by
  decide +kernel

/-- Domain 1 is LOCKED at a clock value; the automatic rules are on with revert to it. -/
def follower (clk : Nat) : State :=
  let s := setReg base 0x4400 1 0x10007
  setTime s { s.time with d1 := { s.time.d1 with state := .locked, clk := clk, lockedSince := 0 } }

/-- Timetable entry 255 of the host, as one entry armed or idle. -/
def entryOf (period : W32) (at_ : W64) (st : TtState) (action : Nat) : TtEntry :=
  { ttDefault 0 with timeS := at_, period := period, state := st, due := at_.toNat * 1000000000, control := BitVec.ofNat 32 (2 * action) }
def timetabled (e : TtEntry) : State :=
  let s := setReg late 0x4600 1 255
  setTime s { s.time with timetable := [(255, e)] }

theorem witness_LocalTimeSelectsSchedulesAndCaptures :
    hostWrites true 3 0x4400 2 [1] base = true ∧ hostWrites true 3 0x4400 2 [4] (follower 0) = true ∧ base.time.sel = 0 ∧ base.time.sel ≠ 1 ∧
    (domainOf base.time 1).state ≠ .locked ∧ (domainOf (follower 0).time 1).state = .locked ∧
    (((domainOf (follower 0).time 1).clk : Int) - localTime (follower 0).time).natAbs < domReg (follower 0) 1 6 * nsUnit ∧
    domReg (follower secUnit) 1 6 * nsUnit ≤ (((domainOf (follower (2 * secUnit)).time 1).clk : Int) - localTime (follower 0).time).natAbs ∧
    bit (reg (follower 0) 0x4400 1) 0 = true ∧ bit (reg (follower 0) 0x4400 1) 1 = true ∧ bit (reg (follower 0) 0x4400 1) 2 = true ∧
    elapsed (follower 0) 0 (secCycles (field (reg (follower 0) 0x4400 1) 31 16)) = true ∧
    hostWrites true 3 0x4601 4 (wordBytes (0x3 : W32)) (timetabled (entryOf 0 1 .idle 1)) = true ∧
    hostWrites true 3 0x4601 4 (wordBytes (0x1E : W32)) (timetabled (entryOf 0 1 .idle 1)) = true ∧ 6 < field (0x1E : W32) 4 1 ∧
    hostWrites true 3 0x4601 4 (wordBytes (0 : W32)) (timetabled (entryOf 0 1 .armed 1)) = true ∧ field (0 : W32) 4 1 = 0 ∧
    1 ≤ field (0x1E000002 : W32) 4 1 ∧ field (0x1E000002 : W32) 4 1 ≤ 6 ∧
    hostWrites true 3 0x4601 4 (wordBytes (0x2 : W32)) (timetabled (entryOf 0 1 .armed 1)) = true ∧
    ttTime (entryOf 0 1 .idle 1) * nsUnit ≤ readTime late ∧ readTime late < ttTime (entryOf 0 2 .idle 1) * nsUnit ∧
    (entryOf 1000 0 .idle 1).period ≠ 0 := by
  decide +kernel

theorem witness_LocalTimeSelectsSchedulesAndCaptures_pins :
    timeOn late = true ∧ (∀ k, k < 8 → (pinOf (timetabled (entryOf 0 1 .armed 1)) (4 + k)).pulseEnd = none) ∧
    ttDue (timetabled (entryOf 0 1 .armed 1)) (entryOf 0 1 .armed 1) = true ∧ ttDue (timetabled (entryOf 0 2 .armed 1)) (entryOf 0 2 .armed 1) = false ∧
    field (entryOf 0 1 .armed 1).control 4 1 = 1 ∧ field (entryOf 0 1 .armed 2).control 4 1 = 2 ∧ field (entryOf 0 1 .armed 3).control 4 1 = 3 ∧
    field (entryOf 0 1 .armed 4).control 4 1 = 4 ∧ field (entryOf 0 1 .armed 5).control 4 1 = 5 ∧
    wakeEnabled (timetabled (entryOf 0 1 .armed 5)) 12 = false ∧ (pinOf late 3).pulseEnd = none ∧ pinEnabled late 3 = false ∧
    pinEnabled (setReg late 0x4453 1 1) 3 = true ∧ (pinOf late 3).nextAt ≤ readTime late ∧
    readTime late < (pinOf (setPin late 3 { OutPin.default with nextAt := 2 * secUnit }) 3).nextAt ∧ steppedNow late = false ∧
    (capOf (setCap base 7 { fifo := [], lastEdge := some (10 ^ 13 - 59) }) 7).lastEdge = some (10 ^ 13 - 59) ∧
    base.now < 10 ^ 13 - 59 + 60 ∧ edgeSelected base 7 true = false ∧
    edgeSelected (setReg base 0x4447 1 3) 7 false = true ∧ (capOf base 7).fifo.length < 16 ∧
    16 ≤ (capOf (setCap base 7 { fifo := List.replicate 16 (zeros 16), lastEdge := none }) 7).fifo.length ∧
    hostReads true 3 0x4404 2 base = true ∧ base.time.fifo = [] ∧
    (setTime base { base.time with fifo := [zeros 32] }).time.fifo = [zeros 32] ∧ hostReads true 3 (0x4440 + 7) 3 base = true ∧
    (capOf (setCap base 7 { fifo := [zeros 16], lastEdge := none }) 7).fifo = [zeros 16] := by
  decide +kernel

/-! ### Witnesses: grants, faults, self-test -/

def askFor (op : HeavyOp) : GrantReq := { op := op, step := stepOf op, since := 0, noTimeout := false }
def grantsAre (g : Grants) : State := setGrants base g
def gaveOut (op : HeavyOp) (ext : Bool) : GrantHeld := { op := op, step := stepOf op, since := 0, external := ext }

theorem witness_GrantsAreIssuedAndGivenUp :
    arbiterOpen State.reset = false ∧ arbiterOpen (grantsAre { Grants.default with internalQ := [askFor .remask] }) = true ∧
    (grantsAre { Grants.default with withdrawn := true }).grants.withdrawn = true ∧ Grants.default.withdrawn = false ∧
    Grants.default.pgGrant = false ∧ ctlOn State.reset = false ∧
    usedOther Grants.default + (askFor .remask).step + 4 ≤ regN base 0x4A00 1 ∧ (askFor .rebuild).step = stepOf .rebuild ∧
    regN base 0x4A00 1 < usedOther { Grants.default with held := [gaveOut (.regionOp 0) false, gaveOut (.regionOp 1) false] } + 4 + 4 ∧
    (askFor .spareBist).step ≠ Grants.default.pgStep.toNat ∧ ({ Grants.default with pgStep := 0x3C } : Grants).pgStep.toNat = (askFor .fullBist).step ∧
    ctlOn base = true ∧ Grants.default.pgReq = false ∧
    ({ Grants.default with pgReq := true, handshake := some (askFor .fullBist) } : Grants).handshake = some (askFor .fullBist) ∧
    ([askFor (.training 1)] ++ ([] : List GrantReq)).find? (fun q => q.op == .training 1) = some (askFor (.training 1)) ∧
    (askFor (.regionOp 7)).noTimeout = false ∧ elapsed base (askFor .remask).since (msCycles (regN base 0x4A00 3)) = true ∧
    elapsed base (10 ^ 13) (msCycles (regN base 0x4A00 3)) = false ∧ elapsed base 0 (msCycles (regN base 0x4A00 4)) = true ∧
    (grantsAre { Grants.default with held := [gaveOut .remask true], pgGrant := true, pgReq := true }).grants.held = [gaveOut .remask true] ∧
    elapsed base (gaveOut .signing false).since (msCycles (regN base 0x4A00 2)) = true ∧ (gaveOut .remask true).external = true ∧
    (grantsAre { Grants.default with pgGrant := true }).grants.pgGrant = true ∧ elapsed base (10 ^ 13) (msCycles (regN base 0x4A00 2)) = false := by
  decide +kernel

/-- A word of zeros with bit errors. -/
def hurt (ps : List Nat) : BitVec 79 := flipBits (sramEncode 0) ps

def noSpares : State := setFaults base { base.faults with sparesUsed := [(3, 16), (6, 16)] }
def onePipe : State := setFaults base { base.faults with pipelines := [0, 1, 2, 3, 4] ++ List.replicate 19 6 }
def noSparePipe : State :=
  setFaults base { base.faults with pipelines := [0, 0, 0, 0, 1, 1, 1, 1, 2, 2, 2, 3, 3, 3, 4, 4, 4, 4, 4, 4, 4, 4, 6, 6] }

theorem witness_SramFaultsAreRepairedOrRetired :
    arrayOn State.reset 3 = false ∧ arrayOn base 44 = true ∧ (arrayShape 44).1 ≤ 12288 ∧ 12287 < (arrayShape 44).1 ∧ 0 < (arrayShape 44).2 ∧
    retiredUnit base 44 (unitAt base 44 12287) = false ∧ sramDecode (hurt []) = .clean 0 ∧ sramDecode (hurt [0]) = .corrected 0 [0] ∧
    sramDecode (hurt [78]) = .corrected 0 [78] ∧ lastingMask base 3 0 0 = 0 ∧
    2 ≤ field (reg (setReg base 0x4800 4 0x20001) 0x4800 4) 17 16 ∧ field (reg (setReg base 0x4800 4 0x10001) 0x4800 4) 17 16 ≤ 1 ∧
    0 < sparesLeft base 3 ∧ sparesLeft noSpares 3 = 0 ∧ sparesLeft base 1 = 0 ∧ noSpares.faults.pipelines.length = 24 ∧
    domainOn State.reset 5 = false ∧ pipeGroup base 23 = 5 ∧ pipeGroup base 0 < 5 ∧ domainOn base 5 = true ∧ pipesOf base 5 = [22, 23] ∧
    pipesOf noSparePipe 5 = [] ∧ ([4, 2, 3, 0, 1].find? (fun y => decide (1 < groupCount noSparePipe y))) = some 4 ∧
    pipesOf onePipe 5 = [] ∧ (∀ x ∈ [4, 2, 3, 0, 1], groupCount onePipe x ≤ 1) ∧ groupCount onePipe (pipeGroup onePipe 4) = 1 ∧
    onePipe.faults.pipelines.length = 24 := by
  decide +kernel

theorem witness_SelfTestsRunUnderTheirGrants :
    hostWrites true 3 0x5F00 1 [1] base = true ∧ bistAllowed base = true ∧ bistAllowed (onKey quiet) = false ∧ base.faults.bist ≠ .running ∧
    (setFaults base { base.faults with bist := .running }).faults.bist = .running ∧ (6 : Fin 46).val ≠ 1 ∧ (6 : Fin 46).val ≠ 45 ∧
    0 < (arrayShape 6).1 ∧ 0 < sparesLeft base 6 ∧ sparesLeft noSpares 6 = 0 ∧ base.faults.retired = [] ∧
    spFind noSpares.faults.retired (6 * 2 ^ 32 + unitAt noSpares 6 0) = none ∧ hostWrites true 3 0x5F00 1 [2] base = true ∧
    base.power.bringUp = .done ∧ elapsed base base.faults.spareStart (secCycles (regN base 0x5F00 3)) = true ∧
    (setFaults base { base.faults with spareDue := true }).faults.spareDue = true ∧ base.faults.spareDue = false ∧ base.faults.spareBist = .none ∧
    hostWrites true 3 0x5F00 1 [2] (inState 1) = true ∧ inS0 (inState 1) = false ∧ inS0 base = true ∧ State.reset.power.bringUp ≠ .done ∧
    (setFaults base { base.faults with spareBist := .running }).faults.spareBist = .running ∧ pipeGroup base 22 = 5 ∧
    (∀ k ∈ [(0 : Fin 24)], pipeGroup base k.val ≠ 5) := by
  decide +kernel

/-! ### Worked values -/

/-- FIPS 197, appendix C.3 and C.1. -/
theorem test_aes256 : aes256 0x000102030405060708090a0b0c0d0e0f101112131415161718191a1b1c1d1e1f 0x00112233445566778899aabbccddeeff =
    0x8ea2b7ca516745bfeafc49904b496089 := by decide +kernel
theorem test_aes128 : aes128 0x000102030405060708090a0b0c0d0e0f 0x00112233445566778899aabbccddeeff = 0x69c4e0d86a7b0430d8cdb78070b4c55a := by
  decide +kernel

/-- FIPS 180-4: the digest of "abc". -/
theorem test_sha256 : sha256 [0x61, 0x62, 0x63] =
    wordBytes (0xba7816bf8f01cfea414140de5dae2223b00361a396177a9cb410ff61f20015ad : BitVec 256) := by decide +kernel

/-- SP 800-38B, appendix D.3: the empty message. -/
theorem test_cmac : cmac256 0x603deb1015ca71be2b73aef0857d77811f352c073b6108d72d9810a30914dff4 [] =
    wordBytes (0x028962f61b7bf89efc6b551f4667d983 : BitVec 128) := by decide +kernel

/-- The product of the GCM specification's second test case. -/
theorem test_gmul : gmul 0x66e94bd4ef8a2c3b884cfa59ca342b2e 0x0388dace60b6a392f328c2b971b2fe78 = 0x5e2ec746917062882c85b0685353deb7 := by
  decide +kernel

/-- Reset keeps the ladder legal (Table 0.4). -/
theorem test_reset_ladder : legalLadder State.reset.power := 
  ⟨by decide, by decide, by decide, by decide, trivial⟩

/-- A step takes the front of the queue (R9: no port is ready before bring-up is done, so the write has no effect). -/
theorem test_step_front :
    (match step { State.reset with pending := [.revert, .grantIssue] } with
      | .next t => decide (t = { State.reset with pending := [.grantIssue] })
      | _ => false) = true := by
  decide +kernel

/-- On an empty queue the clocks start (Table 15.1, H1). -/
theorem test_tick_bring_up : (match step State.reset with | .next t => decide (t.power.bringUp = .h2) && t.power.dividerLock | _ => false) = true := by
  decide +kernel

end Sys2Proof.Tests
end

/-! PROOF. Every command that is a write of one object answers the dictionary write of that object. -/

namespace Sys2Proof.Machine

/-! ### Where the dictionary leads the write of an object (Table 14.9) -/

/-- The meaning of a write is looked up at the value without its reserved bits, in the cycle of the access. -/
theorem commandWrite_congr {m : Master} {idx sub : Nat} {data : Bytes} {f g : Bytes → State → Ack} {s : State}
    (h : ∀ x, x.now = s.now → f (ownBits idx sub data) x = g (ownBits idx sub data) x) :
    commandWrite m idx sub data f s = commandWrite m idx sub data g s := by
  have hx := h (if strayBits idx sub data then bump s 0x2002 3 else s) (by split <;> rfl)
  simp only [commandWrite, writeAccess, hx]

theorem writeObj_port (au : Auth) (p : Port) : writeObj au (0x2801 + p.val) 1 = writePortObj (0x2801 + p.val) 1 := by
  funext d x
  rw [writeObj, if_neg (by omega), if_neg (by omega), if_neg (by omega), if_pos (by omega)]

theorem writeObj_regionControl (au : Auth) (r : Region) :
    writeObj au (regionIdx r) 1 = fun d => writeRegionControl r (BitVec.ofNat 64 (valueOf d)) := by
  fin_cases r <;> rfl

theorem writeObj_regionCommand (au : Auth) (r : Region) : writeObj au (regionIdx r) 8 = regionCommand r := by
  fin_cases r <;> rfl

theorem writeObj_transport (au : Auth) (t : Trunk) (sub : Nat) : writeObj au (0x4001 + t.val) sub = writeTransportObj t sub := by
  fin_cases t <;> rfl

theorem writeObj_mgmt (au : Auth) (t : Trunk) (sub : Nat) : writeObj au (0x4005 + t.val) sub = writeMgmtObj t sub := by
  fin_cases t <;> rfl

theorem writeObj_domain (au : Auth) (i : Fin 2) (sub : Nat) : writeObj au (0x4401 + i.val) sub = writeDomObj i sub := by
  fin_cases i <;> rfl

/-- A reseed of the DRBG does not look at the outcome of its tests. -/
theorem drbgCommand_reseed (a b : Bool) (x : State) : drbgCommand a [2] x = drbgCommand b [2] x := by
  unfold drbgCommand; cases x.keys.drbg.phase <;> rfl

theorem ownBits_reseed : ownBits 0x3808 2 [2] = [2] := by decide

/-! ### The commands -/

/-- The start of the DRBG by command meets the outcome of its tests in the cycle of the write. -/
theorem exec_drbgInstantiate (m : Master) (s : State) :
    exec (.drbgInstantiate m (Config.drbgTestsPass s.now)) s =
      .next (commandWrite m 0x3808 2 [1] (writeObj (authOf m) 0x3808 2) s) := by
  rw [exec, execDrbgInstantiate, commandWrite_congr]
  intro x hx
  rw [← hx]; rfl

theorem exec_drbgReseed (m : Master) (s : State) :
    exec (.drbgReseed m) s = .next (commandWrite m 0x3808 2 [2] (writeObj (authOf m) 0x3808 2) s) := by
  rw [exec, execDrbgReseed, commandWrite_congr]
  intro x _
  rw [ownBits_reseed, drbgCommand_reseed true (Config.drbgTestsPass x.now)]; rfl

theorem exec_objectWrite {c : Instr} {s : State} {m : Master} {idx sub : Nat} {data : Bytes}
    (h : objectWrite s c = some (m, idx, sub, data)) :
    exec c s = .next (commandWrite m idx sub data (writeObj (authOf m) idx sub) s) := by
  cases c with
  | portControlWrite | portDisable => cases h; rw [writeObj_port]; rfl
  | drbgInstantiate m pass =>
    by_cases hp : pass = Config.drbgTestsPass s.now
    · subst hp
      simp only [objectWrite, if_true] at h
      cases h; exact exec_drbgInstantiate m s
    · simp [objectWrite, hp] at h
  | drbgReseed m => cases h; exact exec_drbgReseed m s
  | nativeResponse e | compatibilityReport e | publicKey e => cases e <;> cases h; rfl
  | regionEnable | regionDisable => cases h; rw [writeObj_regionControl]; rfl
  | initialise | rekey | reseed => cases h; rw [writeObj_regionCommand]; rfl
  | trunkKeyWrite | releaseNextKey => cases h; rw [writeObj_transport]; rfl
  | trunkEnable | trunkDisable | retrain => cases h; rw [writeObj_mgmt]; rfl
  | offsetWrite | domainSet | domainStep | clearServo => cases h; rw [writeObj_domain]; rfl
  | contextEnable | associationInstall | associationClear | tableInsert | tableDelete | tableRead | tableReplace
  | descriptorWrite | rebuild | invalidate | zeroizeSlot | zeroizeMainBank | zeroizeRetentionBank | zeroizeBothBanks
  | derivationStart | extend | selectDomain | forceDomain | timetableArm | timetableDisarm | powerStateRequest
  | stateExitRequest | wakeCauseClear | wakeInUnmask | wakeKeyWrite | fullBist | sparePipelineBist | hello | proof
  | sessionClose => cases h; rfl
  | _ => cases h

/-- Settles O5: the dictionary leads each object to the meaning that its command has. -/
theorem objectCommandsWriteTheirObject : Obligations.ObjectCommandsWriteTheirObject :=
  fun _ _ _ _ _ _ h => exec_objectWrite h

end Sys2Proof.Machine

/-! PROOF. Every command completes: its meaning answers a next state that holds the same waiting commands. -/

namespace Sys2Proof.Machine

/-- A meaning answers a next state, with the commands that wait in `s`. -/
def Completes (s : State) (o : Out) : Prop := ∃ t, o = .next t ∧ t.pending = s.pending

theorem completes_next {s t : State} : Completes s (.next t) ↔ t.pending = s.pending := by simp [Completes]

/-! ### Operations that only commands use -/

@[simp] theorem coldReset_queue (s : State) : (coldReset s).pending = s.pending := by simp [coldReset]

@[simp] theorem afterDrbg_queue (s : State) : (afterDrbg s).pending = s.pending := by
  unfold afterDrbg; split <;> simp

@[simp] theorem fuseMoved_queue (s : State) : (fuseMoved s).pending = s.pending := by simp [fuseMoved]

@[simp] theorem fusePair_queue (d1 : W32) (e1 : Bool) (d2 : W32) (e2 : Bool) (s : State) :
    (fusePair d1 e1 d2 e2 s).pending = s.pending := by simp [fusePair]

/-- The words of a wake frame, one after the other. -/
@[simp] theorem takeWakeWords_queue (words : List MsgWord) (a : State × WakeRun) :
    (words.foldl takeWakeWord a).1.pending = a.1.pending := by
  induction words generalizing a with
  | nil => rfl
  | cons w words ih => rw [List.foldl_cons, ih, takeWakeWord_queue]

@[simp] theorem readMailbox_queue (au : Auth) (a : Nat) (s : State) : (readMailbox au a s).1.pending = s.pending := by
  simp only [readMailbox]; (repeat' split) <;> simp

@[simp] theorem stagingWindowRead_queue (sec : Bool) (priv : BitVec 2) (offset : Nat) (s : State) :
    (stagingWindowRead sec priv offset s).1.pending = s.pending := by
  simp only [stagingWindowRead]; (repeat' split) <;> simp

@[simp] theorem readWindow_queue (sec : Bool) (priv : BitVec 2) (a : Nat) (s : State) :
    (readWindow sec priv a s).1.pending = s.pending := by
  simp only [readWindow]; (repeat' split) <;> simp

/-! ### The commands -/

/-- A request for the signing engine is written, restarted or completed. -/
theorem exec_nativeResponse_completes (e : ReqEvent) (s : State) : Completes s (exec (.nativeResponse e) s) := by
  cases e <;> simp [exec, execNativeResponse, completes_next]

theorem exec_compatibilityReport_completes (e : ReqEvent) (s : State) : Completes s (exec (.compatibilityReport e) s) := by
  cases e <;> simp [exec, execCompatibilityReport, completes_next]

theorem exec_publicKey_completes (e : ReqEvent) (s : State) : Completes s (exec (.publicKey e) s) := by
  cases e <;> simp [exec, execPublicKey, completes_next]

/-- A word of the window is read, staged or written, and the host is answered. -/
theorem exec_registerWrite_completes (addr : BitVec 14) (data : Option W32) (sec : Bool) (priv : BitVec 2) (s : State) :
    Completes s (exec (.registerWrite addr data sec priv) s) := by
  cases data with
  | none =>
    have h := readWindow_queue sec priv (4 * addr.toNat) s
    simp only [exec, execRegisterWrite, completes_next]
    split
    · rfl
    · split <;> rename_i hr <;> rw [hr] at h <;> simpa using h
  | some w =>
    simp only [exec, execRegisterWrite, completes_next]
    (repeat' split) <;> simp

/-- An object write makes one access, and an access leaves the queue whatever the object does. -/
theorem exec_objectWrite_completes {c : Instr} {s : State} {w : Master × Nat × Nat × Bytes} (h : objectWrite s c = some w) :
    Completes s (exec c s) := by
  obtain ⟨m, idx, sub, data⟩ := w
  rw [exec_objectWrite h, completes_next]
  exact commandWrite_pending _ _ _ _ _ _ fun d x => writeObj_queue _ _ _ d x

/-- Every command completes: an object write by its one access, every other command by what its own operations leave. -/
theorem exec_completes (c : Instr) (s : State) : Completes s (exec c s) := by
  cases hw : objectWrite s c with
  | some w => exact exec_objectWrite_completes hw
  | none =>
    cases c with
    | drbgInstantiate m pass => simp [exec, execDrbgInstantiate, completes_next]
    | nativeResponse e => exact exec_nativeResponse_completes e s
    | compatibilityReport e => exact exec_compatibilityReport_completes e s
    | publicKey e => exact exec_publicKey_completes e s
    -- cold and warm reset, the clock monitor
    | warmReset | clockMonitorWindow | aonClockFault | aonClockReturn =>
      simp [exec, execWarmReset, execClockMonitorWindow, execAonClockFault, execAonClockReturn, completes_next]
    | coldReset => exact completes_next.2 (coldReset_queue s)
    -- fuses, tm_mode, entropy
    | testModeEntry =>
      simp [exec, execTestModeEntry, completes_next]
    | fuseRead | fuseTimeout | entropySample =>
      simp only [exec, execFuseRead, execFuseTimeout, execEntropySample, completes_next]
      (repeat' split) <;> simp
    -- the Frame Cipher Path
    | txFrame | rxFrame | lateBinding | rxVerdict | periodBoundary =>
      simp [exec, execTxFrame, execRxFrame, execLateBinding, execRxVerdict, execPeriodBoundary, completes_next]
    | frameGapTimeout | inputUnderrun | frameRelease | frameSettle | portStuck =>
      simp only [exec, execFrameGapTimeout, execInputUnderrun, execFrameRelease, execFrameSettle, execPortStuck,
        completes_next]
      (repeat' split) <;> simp
    -- the Classifier
    | classifierSecond | shadowPassStart | shadowPassEnd =>
      simp [exec, execClassifierSecond, execShadowPassStart, execShadowPassEnd, completes_next]
    | learningRequest | rebuildSwitch =>
      simp only [exec, execLearningRequest, execRebuildSwitch, completes_next]
      (repeat' split) <;> simp
    -- the Key Register File and the DRBG
    | stagingOpen | stagingWordWrite | commit | abort | staleWalk | bankOverwriteDone | remaskPeriodExpiry
    | remaskingSweep | reseedInterval | entropyAbsent | drbgOutputRead =>
      simp [exec, execStagingOpen, execStagingWordWrite, execCommit, execAbort, execStaleWalk, execBankOverwriteDone,
        execRemaskPeriodExpiry, execRemaskingSweep, execReseedInterval, execEntropyAbsent, execDrbgOutputRead,
        completes_next]
    | stagingTimeout | derivationTargetCommit =>
      simp only [exec, execStagingTimeout, execDerivationTargetCommit, completes_next]
      (repeat' split) <;> simp
    -- the Memory Guard
    | memoryRead | memoryWrite | renormalisation =>
      simp [exec, execMemoryRead, execMemoryWrite, execRenormalisation, completes_next]
    | mcResponse | mcTimeout | renormalisationCommit | cacheEviction =>
      simp only [exec, execMcResponse, execMcTimeout, execRenormalisationCommit, execCacheEviction, completes_next]
      (repeat' split) <;> simp
    -- region commands
    | initialisationComplete | reseedComplete | rekeyComplete =>
      simp only [exec, execInitialisationComplete, execReseedComplete, execRekeyComplete, completes_next]
      (repeat' split) <;> simp
    -- the sending side of a trunk
    | tfTxPayload | unitBoundary | ackFlitDue =>
      simp [exec, execTfTxPayload, execUnitBoundary, execAckFlitDue, completes_next]
    | payloadNumbering | replayTimerExpiry | trunkCreditStarved | tfTxGapTimeout =>
      simp only [exec, execPayloadNumbering, execReplayTimerExpiry, execTrunkCreditStarved, execTfTxGapTimeout,
        completes_next]
      (repeat' split) <;> simp
    -- the receiving side of a trunk
    | groupReceived | tfRxPresent | errorWindow | laneUnlock | laneFifoFault | laneSwitch | creditTimeout =>
      simp [exec, execGroupReceived, execTfRxPresent, execErrorWindow, execLaneUnlock, execLaneFifoFault,
        execLaneSwitch, execCreditTimeout, completes_next]
    | trunkReceiveStuck | standbyLaneAdd =>
      simp only [exec, execTrunkReceiveStuck, execStandbyLaneAdd, completes_next]
      (repeat' split) <;> simp
    -- training
    | ts1Received | ts2Received | confirmDrained | lstatReceived | laneAlignment | trainTimeout | backoffExpiry
    | trunkPeriodBoundary =>
      simp [exec, execTs1Received, execTs2Received, execConfirmDrained, execLstatReceived, execLaneAlignment,
        execTrainTimeout, execBackoffExpiry, execTrunkPeriodBoundary, completes_next]
    | ts3Received | sessionStart =>
      simp only [exec, execTs3Received, execSessionStart, completes_next]
      (repeat' split) <;> simp
    -- the Time Unit
    | ppsInEdge | sampleTimeout | revert | timetableRun | pulseEnd | ppsOutPulse | captureEdge | timeStampFifoRead
    | captureFifoRead =>
      simp [exec, execPpsInEdge, execSampleTimeout, execRevert, execTimetableRun, execPulseEnd, execPpsOutPulse,
        execCaptureEdge, execTimeStampFifoRead, execCaptureFifoRead, completes_next]
    -- the power ladder and wake causes
    | powerAck | wakeInEdge | chatterWindow | tokenRefill =>
      simp [exec, execPowerAck, execWakeInEdge, execChatterWindow, execTokenRefill, completes_next]
    | powerHandshakeFault | wakeDecision | wakeInputStuck | wakeFrame =>
      simp only [exec, execPowerHandshakeFault, execWakeDecision, execWakeInputStuck, execWakeFrame, completes_next]
      (repeat' split) <;> simp
    -- grants
    | grantIssue | pgGrantFall =>
      simp [exec, execGrantIssue, execPgGrantFall, completes_next]
    | pgGrantRise | grantWaitExpiry | pgTimeout | grantHoldExpiry | grantRevocation =>
      simp only [exec, execPgGrantRise, execGrantWaitExpiry, execPgTimeout, execGrantHoldExpiry, execGrantRevocation,
        completes_next]
      (repeat' split) <;> simp
    -- faults and BIST
    | sramSecondAttempt | scrubPeriod | pipelineParityMismatch | bistComplete | spareBistDue | spareBistRun | s0Second =>
      simp [exec, execSramSecondAttempt, execScrubPeriod, execPipelineParityMismatch, execBistComplete,
        execSpareBistDue, execSpareBistRun, execS0Second, completes_next]
    -- events
    | eventClear =>
      simp [exec, execEventClear, completes_next]
    -- the host window, the mailbox and the sealed request
    | mailboxRead | mailboxWrite | sealedRequest =>
      simp [exec, execMailboxRead, execMailboxWrite, execSealedRequest, completes_next]
    | registerWrite addr data sec priv => exact exec_registerWrite_completes addr data sec priv s
    -- the field network
    | dnRxMessage | usdoDownload | usdoUpload | usdoAbort | transferTimeout =>
      simp [exec, execDnRxMessage, execUsdoDownload, execUsdoUpload, execUsdoAbort, execTransferTimeout,
        completes_next]
    -- sessions
    | sessionIdleTimeout | challengeTimeout | lockedEnd =>
      simp [exec, execSessionIdleTimeout, execChallengeTimeout, execLockedEnd, completes_next]
    -- the object writes
    | portControlWrite | portDisable | contextEnable | associationInstall | associationClear | tableInsert
    | tableDelete | tableRead | tableReplace | descriptorWrite | rebuild | invalidate | zeroizeSlot
    | zeroizeMainBank | zeroizeRetentionBank | zeroizeBothBanks | derivationStart | drbgReseed | extend
    | regionEnable | regionDisable | initialise | rekey | reseed | trunkKeyWrite | releaseNextKey | trunkEnable
    | trunkDisable | retrain | offsetWrite | domainSet | domainStep | clearServo | selectDomain | forceDomain
    | timetableArm | timetableDisarm | powerStateRequest | stateExitRequest | wakeCauseClear | wakeInUnmask
    | wakeKeyWrite | fullBist | sparePipelineBist | hello | proof | sessionClose => cases hw

/-- Settles O2: no meaning faults, refuses or touches the queue. -/
theorem everyCommandCompletes : Obligations.EveryCommandCompletes := exec_completes

end Sys2Proof.Machine

/-! PROOF. What the state after reset holds (R484, log 3). -/

namespace Sys2Proof.Machine

/-- The address of a setting of the host's dictionary gives its index and subindex back. -/
theorem regDefault_oa {i j : Nat} (hi : i < 2 ^ 16) (hj : j < 256) : regDefault (oa i j) = regDefaultAt i j := by
  have hidx : (i * 256 + j) % 2 ^ 24 / 256 = i := by omega
  have hsub : (i * 256 + j) % 256 = j := by omega
  rw [regDefault, oa, hidx, hsub]

/-- Reset stores no setting, so each reads its Default. -/
theorem reg_reset {i j : Nat} (hi : i < 2 ^ 16) (hj : j < 256) : reg State.reset i j = regDefaultAt i j :=
  regDefault_oa hi hj

theorem ctr_reset (i j : Nat) : ctr State.reset i j = 0 := rfl

theorem context_reset (c : Nat) : context State.reset c = Context.default := rfl

theorem slotOf_reset (k : W16) : slotOf State.reset k = KeySlot.default := rfl

theorem legalLadder_reset : legalLadder State.reset.power := ⟨rfl, by decide, by decide, by decide, trivial⟩

/-- Settles O4: the sparse stores of reset are empty, and each unit stands at its default. -/
theorem resetLeavesDefaults : Obligations.ResetLeavesDefaults :=
  ⟨legalLadder_reset, rfl, fun _ _ => reg_reset, ctr_reset, rfl, context_reset, slotOf_reset, rfl, rfl, rfl, rfl, rfl⟩

end Sys2Proof.Machine

/-! PROOF. What the common checks of a dictionary write leave: a write that is not taken, one that is refused, and one
that carries reserved bits. -/

namespace Sys2Proof.Machine

/-! ### The port (R85, R416) -/

/-- While its port is not ready an access has no effect. -/
theorem commandWrite_notReady {m : Master} {idx sub : Nat} {data : Bytes} {eff : Bytes → State → Ack} {s : State}
    (h : accepts m s = false) : commandWrite m idx sub data eff s = s := by
  simp [commandWrite, h]

theorem commandWrite_host_eq {sec : Bool} {priv : BitVec 2} {idx sub : Nat} {data : Bytes} {eff : Bytes → State → Ack}
    {s t : State} {c : Option W32} (h : hpReady s = true) (hw : writeAccess (.host sec priv) idx sub data eff s = (t, c)) :
    commandWrite (.host sec priv) idx sub data eff s = hpAnswer (hpRespOf c) 0 t := by
  simp [commandWrite, accepts, h, authOf, hw]

theorem commandWrite_dn_eq {idx sub : Nat} {data : Bytes} {eff : Bytes → State → Ack} {s t : State} {c : Option W32}
    (h : serverReady s = true) (hw : writeAccess .dn idx sub data eff s = (t, c)) :
    commandWrite .dn idx sub data eff s = t := by
  simp [commandWrite, accepts, h, authOf, hw]

/-- A response is being given, so hp_ready is 0. -/
@[simp] theorem hpReady_hpAnswer (r : BitVec 2) (d : W32) (s : State) : hpReady (hpAnswer r d s) = false := by
  simp [hpReady, hpAnswer]

/-! ### Refused accesses (R459, Table 14.1) -/

/-- The counters that a refusal leaves. -/
def refusedState (au : Auth) (idx sub : Nat) (data : Bytes) (s : State) : State :=
  countRefusal au (if strayBits idx sub data then bump s 0x2002 3 else s)

/-- Counting a refusal, and the reserved bits it carried, changes the counters only. -/
theorem refusedState_frame (au : Auth) (idx sub : Nat) (data : Bytes) (s : State) :
    refusedState au idx sub data s = { s with ctrs := (refusedState au idx sub data s).ctrs } := by
  unfold refusedState countRefusal
  cases au <;> cases strayBits idx sub data <;> rfl

theorem commandWrite_host_refusedByChecks {sec : Bool} {priv : BitVec 2} {idx sub : Nat} {data : Bytes}
    {eff : Bytes → State → Ack} {s : State} {c : W32} (hr : hpReady s = true)
    (hc : checkAccess (.host sec priv) true idx sub data.length = some c) :
    commandWrite (.host sec priv) idx sub data eff s =
      hpAnswer (hpRespOf (some c)) 0 (refusedState (.host sec priv) idx sub data s) :=
  commandWrite_host_eq hr (writeAccess_refused _ _ _ _ _ _ _ hc)

theorem commandWrite_dn_refusedByChecks {idx sub : Nat} {data : Bytes} {eff : Bytes → State → Ack} {s : State} {c : W32}
    (hr : serverReady s = true) (hc : checkAccess .dn true idx sub data.length = some c) :
    commandWrite .dn idx sub data eff s = refusedState .dn idx sub data s :=
  commandWrite_dn_eq hr (writeAccess_refused _ _ _ _ _ _ _ hc)

/-- A write that the common checks refuse changes the counters and the host answer, and nothing else. -/
theorem commandWrite_refusedByChecks {m : Master} {idx sub : Nat} {data : Bytes} {eff : Bytes → State → Ack} {s : State}
    {c : W32} (hr : accepts m s = true) (hc : checkAccess (authOf m) true idx sub data.length = some c) :
    ∃ t, commandWrite m idx sub data eff s = t ∧
      t = { s with ctrs := t.ctrs, server := { s.server with hpResp := t.server.hpResp, hpRdata := t.server.hpRdata
                                                             hpRvalid := t.server.hpRvalid } } ∧
      ∀ sec priv, m = .host sec priv → t.server.hpResp = hpRespOf (some c) ∧ t.server.hpRdata = 0 ∧ hpReady t = false := by
  refine ⟨_, rfl, ?_⟩
  cases m with
  | host sec priv =>
    rw [commandWrite_host_refusedByChecks hr hc, refusedState_frame]
    refine ⟨rfl, fun _ _ _ => ⟨rfl, rfl, hpReady_hpAnswer _ _ _⟩⟩
  | dn =>
    rw [commandWrite_dn_refusedByChecks hr hc, refusedState_frame]
    exact ⟨rfl, fun _ _ h => nomatch h⟩

/-- An object that exists and that the master may not access is refused with 0x0601_0000. -/
theorem checkAccess_master {au : Auth} {write : Bool} {idx sub len : Nat} (hi : indexExists idx = true)
    (ho : (objInfo idx sub).isSome = true) (hm : masterOk au write idx sub = false) :
    checkAccess au write idx sub len = some errMaster := by
  obtain ⟨o, ho⟩ := Option.isSome_iff_exists.1 ho
  simp [checkAccess, hi, ho, hm]

/-- An access that the master may not make is refused, whether or not its object exists. -/
theorem checkAccess_isSome {au : Auth} {write : Bool} {idx sub len : Nat} (hm : masterOk au write idx sub = false) :
    (checkAccess au write idx sub len).isSome = true := by
  unfold checkAccess
  split
  · rfl
  · split
    · rfl
    · simp [hm]

/-- Outside a session the field network writes three objects (R470). -/
theorem masterOk_dn_write {idx sub : Nat} (h1 : (idx, sub) ≠ (0x2004, 1)) (h3 : (idx, sub) ≠ (0x2004, 3))
    (h5 : (idx, sub) ≠ (0x2005, 1)) : masterOk .dn true idx sub = false := by
  simp only [ne_eq, Prod.mk.injEq] at h1 h3 h5
  simp only [masterOk, dnPlain, if_true, Bool.or_eq_false_iff, Bool.and_eq_false_iff, decide_eq_false_iff_not]
  omega

theorem masterOk_dn_read {idx sub : Nat} (h : classS idx sub = true) : masterOk .dn false idx sub = false := by
  simp [masterOk, h]

/-- With hp_sec = 0 the settings of the sessions are out of reach (R470). -/
theorem masterOk_host_sessions (priv : BitVec 2) (write : Bool) (sub : Nat) :
    masterOk (.host false priv) write 0x2003 sub = false := by
  simp [masterOk, classS]

/-- Settles O6: a refused access is counted and answered, and the rest of the state stands. -/
theorem refusedWritesLeaveTheObject : Obligations.RefusedWritesLeaveTheObject := by
  refine ⟨fun c s m idx sub data h => ⟨fun hr => ?_, fun code hr hc => ?_⟩, fun idx sub len h1 h3 h5 => ?_,
    fun idx sub hs hi ho => checkAccess_master hi ho (masterOk_dn_read hs),
    fun priv write sub len ho => checkAccess_master (by decide) ho (masterOk_host_sessions priv write sub)⟩
  · rw [exec_objectWrite h, commandWrite_notReady hr]
  · obtain ⟨t, ht, hframe, hhost⟩ := commandWrite_refusedByChecks (eff := writeObj (authOf m) idx sub) hr hc
    exact ⟨t, by rw [exec_objectWrite h, ht], hframe, hhost⟩
  · have hm := masterOk_dn_write h1 h3 h5
    exact ⟨checkAccess_isSome hm, fun hi ho => checkAccess_master hi ho hm⟩

/-! ### Reserved bits (R10) -/

/-- Taking away the bits that a mask selects leaves none of them. -/
theorem sub_land_land (v r : Nat) : (v - (v &&& r)) &&& r = 0 := by
  induction v using Nat.binaryRec generalizing r with
  | zero => simp
  | bit b a ih =>
    cases r using Nat.bitCasesOn with
    | bit d c =>
      have hle : a &&& c ≤ a := Nat.and_le_left
      have hsub : Nat.bit b a - Nat.bit (b && d) (a &&& c) = Nat.bit (b && !d) (a - (a &&& c)) := by
        cases b <;> cases d <;>
          simp only [Nat.bit, Bool.and_true, Bool.and_false, Bool.not_true, Bool.not_false, cond_true, cond_false] <;> omega
      have hbit : (b && !d && d) = false := by cases d <;> simp
      rw [Nat.land_bit, hsub, Nat.land_bit, ih, hbit]
      rfl

theorem valueOf_ownBits {idx sub : Nat} {data : Bytes} {o : ObjInfo} (ho : objInfo idx sub = some o) (hs : o.str = false) :
    valueOf (ownBits idx sub data) = valueOf data - Nat.land (valueOf data) o.resv := by
  simp only [ownBits, ho, hs, Bool.false_eq_true, if_false, valueOf_toBE]
  exact Nat.mod_eq_of_lt ((Nat.sub_le _ _).trans_lt (beNat_lt data))

@[simp] theorem ownBits_length (idx sub : Nat) (data : Bytes) : (ownBits idx sub data).length = data.length := by
  unfold ownBits
  (repeat' split) <;> simp

/-- The value without its reserved bits sets none of them. -/
@[simp] theorem strayBits_ownBits (idx sub : Nat) (data : Bytes) : strayBits idx sub (ownBits idx sub data) = false := by
  unfold strayBits
  split
  · rename_i o ho
    by_cases hs : o.str = true
    · simp [hs]
    · rw [Bool.not_eq_true] at hs
      simp [hs, valueOf_ownBits ho hs, sub_land_land]
  · rfl

@[simp] theorem ownBits_ownBits (idx sub : Nat) (data : Bytes) : ownBits idx sub (ownBits idx sub data) = ownBits idx sub data :=
  ownBits_clean _ _ _ (strayBits_ownBits idx sub data)

/-- A write with reserved bits is the write without them, in the state where the fault is counted. -/
theorem writeAccess_stray {au : Auth} {idx sub : Nat} {data : Bytes} {s : State} (eff : Bytes → State → Ack)
    (h : strayBits idx sub data = true) :
    writeAccess au idx sub data eff s = writeAccess au idx sub (ownBits idx sub data) eff (bump s 0x2002 3) := by
  have hb : bistBlocks (bump s 0x2002 3) idx = bistBlocks s idx := rfl
  simp only [writeAccess, h, hb, strayBits_ownBits, ownBits_ownBits, ownBits_length, if_true, Bool.false_eq_true, if_false]

theorem accepts_bump (m : Master) (s : State) (i j : Nat) : accepts m (bump s i j) = accepts m s := by cases m <;> rfl

theorem commandWrite_stray {m : Master} {idx sub : Nat} {data : Bytes} {eff : Bytes → State → Ack} {s : State}
    (hr : accepts m s = true) (h : strayBits idx sub data = true) :
    commandWrite m idx sub data eff s = commandWrite m idx sub (ownBits idx sub data) eff (bump s 0x2002 3) := by
  simp only [commandWrite, accepts_bump, hr, writeAccess_stray eff h, Bool.not_true, Bool.false_eq_true, if_false]

theorem ctr_bump_same (s : State) (i j : Nat) : ctr (bump s i j) i j = satAdd64 (ctr s i j) 1 := ctr_bumpBy_same s i j 1

/-- Settles O7: the access itself sees only the bits that are the object's own. -/
theorem reservedBitsAreIgnoredAndCounted : Obligations.ReservedBitsAreIgnoredAndCounted := by
  intro c s m idx sub data h hr hs
  refine ⟨strayBits_ownBits idx sub data, ownBits_length idx sub data, ctr_bump_same s 0x2002 3, ?_⟩
  rw [exec_objectWrite h, commandWrite_stray hr hs]

end Sys2Proof.Machine

/-! PROOF. The host window word by word: which object a word of the page belongs to, and what an access to it does. -/

namespace Sys2Proof.Machine

/-! ### Addresses (Tables 14.2 and 14.4a) -/

theorem fastPath_outside {a : Nat} (h : a < 0x400 ∨ 0x48C < a) : fastPath a = none := by
  unfold fastPath
  iterate 11 rw [if_neg (by omega)]

/-- Word j of the object at subindex sub of the selected page. -/
def PageWord (addr : BitVec 14) (sub j : Nat) : Prop := 4 * addr.toNat = 0x8000 + 128 * sub + 4 * j ∧ j < 32

theorem writeWindow_page {addr : BitVec 14} {sub j : Nat} (h : PageWord addr sub j) (sec : Bool) (priv : BitVec 2) (w : W32)
    (s : State) : writeWindow sec priv (4 * addr.toNat) w s = writeWord (.host sec priv) s.server.page.toNat sub j w s := by
  obtain ⟨ha, hj⟩ := h
  have hsub : (4 * addr.toNat - 0x8000) / 128 = sub := by omega
  have hword : 4 * addr.toNat % 128 / 4 = j := by omega
  simp only [writeWindow]
  rw [if_neg (by omega), if_neg (by omega), if_neg (by omega), fastPath_outside (by omega), hsub, hword]
  exact if_pos (by omega)

theorem readWindow_page {addr : BitVec 14} {sub j : Nat} (h : PageWord addr sub j) (sec : Bool) (priv : BitVec 2) (s : State) :
    readWindow sec priv (4 * addr.toNat) s = readWord (.host sec priv) s.server.page.toNat sub j s := by
  obtain ⟨ha, hj⟩ := h
  have hsub : (4 * addr.toNat - 0x8000) / 128 = sub := by omega
  have hword : 4 * addr.toNat % 128 / 4 = j := by omega
  simp only [readWindow]
  rw [if_neg (by omega), if_neg (by omega), if_neg (by omega), if_neg (by omega), fastPath_outside (by omega), hsub, hword]
  exact if_pos (by omega)

theorem writeWindow_noRegion {a : Nat} (hl : 0x10 ≤ a) (hh : a < 0x100) (sec : Bool) (priv : BitVec 2) (w : W32) (s : State) :
    writeWindow sec priv a w s = refuseHost (.host sec priv) errNoIndex s := by
  simp only [writeWindow]
  rw [if_neg (by omega), if_neg (by omega), if_neg (by omega), fastPath_outside (by omega)]
  exact if_neg (by omega)

/-! ### The answer to an access (R84, R85) -/

theorem exec_windowWrite {addr : BitVec 14} {s t : State} {c : Option W32} {sec : Bool} {priv : BitVec 2} {w : W32}
    (hr : hpReady s = true) (ha : ¬(0x800 ≤ 4 * addr.toNat ∧ 4 * addr.toNat < 0x830))
    (hw : writeWindow sec priv (4 * addr.toNat) w s = (t, c)) :
    exec (.registerWrite addr (some w) sec priv) s = .next (hpAnswer (hpRespOf c) 0 t) := by
  simp only [exec, execRegisterWrite, hr, ha, hw, Bool.not_true, Bool.false_eq_true, if_false]

theorem exec_pageWrite {addr : BitVec 14} {sub j : Nat} (h : PageWord addr sub j) {s t : State} {c : Option W32} {sec : Bool}
    {priv : BitVec 2} {w : W32} (hr : hpReady s = true)
    (hw : writeWord (.host sec priv) s.server.page.toNat sub j w s = (t, c)) :
    exec (.registerWrite addr (some w) sec priv) s = .next (hpAnswer (hpRespOf c) 0 t) :=
  exec_windowWrite hr (by have := h.1; omega) (by rw [writeWindow_page h, hw])

theorem exec_pageRead {addr : BitVec 14} {sub j : Nat} (h : PageWord addr sub j) {s t : State} {v : W32} {sec : Bool}
    {priv : BitVec 2} (hr : hpReady s = true)
    (hw : readWord (.host sec priv) s.server.page.toNat sub j s = (t, .ok v)) :
    exec (.registerWrite addr none sec priv) s = .next (hpAnswer 0 v t) := by
  simp only [exec, execRegisterWrite, hr, readWindow_page h, hw, Bool.not_true, Bool.false_eq_true, if_false]

/-! ### Registers of the window -/

theorem writeWindow_pageRegister (sec : Bool) (priv : BitVec 2) {w : W32} (hw : w.toNat < 2 ^ 16) (s : State) :
    writeWindow sec priv 0x4F0 w s = done (setServer s { s.server with page := w.setWidth 16 }) := by
  have hfit : w.toNat < 65536 := hw
  simp [writeWindow, hfit]

theorem and_low24 {w : W32} (h : w.toNat < 2 ^ 24) : w &&& 0x00FFFFFF = w := by
  apply BitVec.eq_of_toNat_eq
  rw [BitVec.toNat_and]
  exact (Nat.and_two_pow_sub_one_eq_mod w.toNat 24).trans (Nat.mod_eq_of_lt h)

/-- The masters that have written the mailbox since its last operation bound the authority of the next one (R464). -/
theorem noteAuthority_eq (s : State) (sec : Bool) (priv : BitVec 2) :
    noteAuthority s sec priv =
      setServer s { s.server with mailbox := { s.server.mailbox with lowest := some (mailboxAuth s sec priv) } } := rfl

theorem writeWindow_target (sec : Bool) (priv : BitVec 2) {w : W32} (hw : w.toNat < 2 ^ 24) {s : State}
    (hb : s.server.mailbox.busy = false) :
    writeWindow sec priv 0 w s = done (setServer s { s.server with mailbox :=
      { s.server.mailbox with target := w, lowest := some (mailboxAuth s sec priv) } }) := by
  have hbox : writeWindow sec priv 0 w s = writeMailbox sec priv 0 w s := rfl
  have hidle : ¬ s.server.mailbox.busy = true := by simp [hb]
  simp only [hbox, writeMailbox, if_neg hidle, if_true]
  rw [if_pos hw, noteAuthority_eq, and_low24 hw]
  rfl

/-! ### A word of an object is written (R8, R458) -/

section
variable {idx sub : Nat} {o : ObjInfo}

/-- A value that fits its object has no padding to count. -/
theorem putWords_fitting {au : Auth} {size v : Nat} {s : State} (hv : v < 2 ^ (8 * size)) :
    putWords au idx sub size v s = dictWrite au idx sub (toBE size v) s := by
  have hp : decide (2 ^ (8 * size) ≤ v) = false := decide_eq_false (by omega)
  simp only [putWords, hp, Bool.false_and, Bool.false_eq_true, if_false]

theorem openCollection_first {w : W32} {s : State} (h : s.server.collection = none) :
    openCollection idx sub w s =
      done (setServer s { s.server with collection := some ⟨BitVec.ofNat 16 idx, BitVec.ofNat 8 sub, [w]⟩ }) := by
  simp [openCollection, h]

/-- The highest word of the open collection writes the whole object. -/
theorem nextWord_last {au : Auth} {s : State} {c : Collection} {w0 w1 : W32} (hs : s.server.collection = some c)
    (hi : c.index.toNat = idx) (hsub : c.sub.toNat = sub) (hw : c.words = [w0]) (h8 : o.size = 8) :
    nextWord au idx sub o 1 w1 s =
      putWords au idx sub 8 (w1.toNat * 2 ^ 32 + w0.toNat) (dropCollection s) := by
  simp [nextWord, hs, hi, hsub, hw, h8, ceilDiv]

theorem dropCollection_none {s : State} (h : s.server.collection = none) : dropCollection s = s := by
  simp only [dropCollection, setServer, ← h]

/-- A word that does not continue the open collection is refused and drops it. -/
theorem nextWord_outOfTurn {au : Auth} {s : State} {j : Nat} {w : W32}
    (h : ∀ c, s.server.collection = some c → c.index.toNat ≠ idx ∨ c.sub.toNat ≠ sub ∨ c.words.length ≠ j) :
    nextWord au idx sub o j w s = refuseWord au o j w errBroken (protocolFault (dropCollection s)) := by
  unfold nextWord
  cases hs : s.server.collection with
  | none => rw [dropCollection_none hs]
  | some c =>
    have hc := h c hs
    exact if_neg (by tauto)

section
variable (ho : objInfo idx sub = some o)
include ho

theorem writeWord_narrow {au : Auth} {w : W32} {s : State} (h1 : 1 ≤ o.size) (h4 : o.size ≤ 4) :
    writeWord au idx sub 0 w s = putWords au idx sub o.size w.toNat s := by
  have hc : ¬ ceilDiv o.size 4 ≤ 0 := by unfold ceilDiv; omega
  simp only [writeWord, ho]
  rw [if_neg (by omega), if_neg hc, if_pos h4]

theorem writeWord_wide {au : Auth} {w : W32} {s : State} {j : Nat} (h4 : 4 < o.size) (h128 : o.size ≤ 128)
    (hj : j < ceilDiv o.size 4) (hc : checkAccess au true idx sub o.size = none) :
    writeWord au idx sub j w s = if j = 0 then openCollection idx sub w s else nextWord au idx sub o j w s := by
  simp only [writeWord, ho, hc]
  rw [if_neg (by omega), if_neg (by omega), if_neg (by omega)]

end
end

/-! ### A word of an object is read (R458) -/

section
variable {idx sub : Nat} {o : ObjInfo} (ho : objInfo idx sub = some o) (h128 : o.size ≤ 128) {au : Auth}
  (hc : checkAccess au false idx sub 0 = none)
include ho h128 hc

theorem readWord_lowest {s t : State} {v : Bytes} (h1 : 1 ≤ o.size) (hr : removesOnRead idx sub = false)
    (hv : readObj au idx sub s = (t, .ok v)) :
    readWord au idx sub 0 s = (takeSnapshot idx sub v t, .ok ((hostWords v).getD 0 0)) := by
  have hj : ¬ ceilDiv o.size 4 ≤ 0 := by unfold ceilDiv; omega
  have hp : peekObj au idx sub s = (t, .ok v) := by simp [peekObj, hr, hv]
  simp only [readWord, ho, hc, hp]
  rw [if_neg (by omega), if_neg hj]
  rfl

theorem readWord_fromSnapshot {s : State} {j : Nat} {ws : List W32} (h1 : 1 ≤ j) (hj : j + 1 < ceilDiv o.size 4)
    (hw : spFind s.server.snapshots (oa idx sub) = some ws) :
    readWord au idx sub j s = (s, .ok (ws.getD j 0)) := by
  have hpos : decide (0 < j) = true := decide_eq_true h1
  simp only [readWord, ho, hc, hw, hpos]
  rw [if_neg (by omega), if_neg (by omega), if_neg (by omega)]

end

/-! ### The commands of the window -/

theorem exec_writePage {sec : Bool} {priv : BitVec 2} {w : W32} {s : State} (hr : hpReady s = true) (hw : w.toNat < 2 ^ 16) :
    exec (.registerWrite 0x13C (some w) sec priv) s = .next (hostDone (setServer s { s.server with page := w.setWidth 16 })) :=
  exec_windowWrite (addr := 0x13C) hr (by decide) (writeWindow_pageRegister sec priv hw s)

theorem exec_writeTarget {sec : Bool} {priv : BitVec 2} {w : W32} {s : State} (hr : hpReady s = true)
    (hb : s.server.mailbox.busy = false) (hw : w.toNat < 2 ^ 24) :
    exec (.registerWrite 0 (some w) sec priv) s = .next (hostDone (setServer s { s.server with mailbox :=
      { s.server.mailbox with target := w, lowest := some (mailboxAuth s sec priv) } })) :=
  exec_windowWrite (addr := 0) hr (by decide) (writeWindow_target sec priv hw hb)

/-- An address outside every region is answered with hp_resp 2, and the refusal is counted. -/
theorem exec_writeNoRegion {sec : Bool} {priv : BitVec 2} {addr : BitVec 14} {w : W32} {s : State} (hr : hpReady s = true)
    (hl : 0x10 ≤ 4 * addr.toNat) (hh : 4 * addr.toNat < 0x100) :
    exec (.registerWrite addr (some w) sec priv) s = .next (hpAnswer 2 0 (countRefusal (.host sec priv) s)) :=
  exec_windowWrite hr (by omega) (writeWindow_noRegion hl hh sec priv w s)

section
variable {sec : Bool} {priv : BitVec 2} {addr : BitVec 14} {s : State} {sub : Nat} {o : ObjInfo}
  (hr : hpReady s = true) (ho : objInfo s.server.page.toNat sub = some o)
include hr ho

theorem exec_writeNarrow {w : W32} (ha : PageWord addr sub 0) (h1 : 1 ≤ o.size) (h4 : o.size ≤ 4) (hw : w.toNat < 2 ^ (8 * o.size)) :
    ∃ t c, dictWrite (.host sec priv) s.server.page.toNat sub (toBE o.size w.toNat) s = (t, c) ∧
      exec (.registerWrite addr (some w) sec priv) s = .next (hpAnswer (hpRespOf c) 0 t) := by
  rcases hd : dictWrite (.host sec priv) s.server.page.toNat sub (toBE o.size w.toNat) s with ⟨t, c⟩
  exact ⟨t, c, rfl, exec_pageWrite ha hr (by rw [writeWord_narrow ho h1 h4, putWords_fitting hw, hd])⟩

section
variable (h4 : 4 < o.size) (h128 : o.size ≤ 128) (hc : checkAccess (.host sec priv) true s.server.page.toNat sub o.size = none)
include h4 h128 hc

theorem exec_writeLowest {w : W32} (ha : PageWord addr sub 0) (hn : s.server.collection = none) :
    exec (.registerWrite addr (some w) sec priv) s = .next (hostDone (setServer s { s.server with
      collection := some ⟨s.server.page, BitVec.ofNat 8 sub, [w]⟩ })) := by
  have hj : 0 < ceilDiv o.size 4 := by unfold ceilDiv; omega
  refine exec_pageWrite (c := none) ha hr ?_
  rw [writeWord_wide ho h4 h128 hj hc, if_pos rfl, openCollection_first hn, BitVec.ofNat_toNat, BitVec.setWidth_eq]
  rfl

theorem exec_writeHighest {w0 w1 : W32} (ha : PageWord addr sub 1) (hsub : sub < 256) (h8 : o.size = 8)
    (hs : s.server.collection = some ⟨s.server.page, BitVec.ofNat 8 sub, [w0]⟩) :
    ∃ t c, dictWrite (.host sec priv) s.server.page.toNat sub (toBE 8 (w1.toNat * 2 ^ 32 + w0.toNat)) (dropCollection s) = (t, c) ∧
      exec (.registerWrite addr (some w1) sec priv) s = .next (hpAnswer (hpRespOf c) 0 t) := by
  have hj : 1 < ceilDiv o.size 4 := by rw [h8]; decide
  have hfit : w1.toNat * 2 ^ 32 + w0.toNat < 2 ^ (8 * 8) := by have := w0.isLt; have := w1.isLt; omega
  have hbyte : (BitVec.ofNat 8 sub).toNat = sub := by rw [BitVec.toNat_ofNat]; exact Nat.mod_eq_of_lt hsub
  rcases hd : dictWrite (.host sec priv) s.server.page.toNat sub (toBE 8 (w1.toNat * 2 ^ 32 + w0.toNat)) (dropCollection s)
    with ⟨t, c⟩
  refine ⟨t, c, rfl, exec_pageWrite ha hr ?_⟩
  rw [writeWord_wide ho h4 h128 hj hc, if_neg Nat.one_ne_zero, nextWord_last hs rfl hbyte rfl h8, putWords_fitting hfit, hd]

theorem exec_writeOutOfTurn {w : W32} {j : Nat} (ha : PageWord addr sub j) (h1 : 1 ≤ j) (hj : j < ceilDiv o.size 4)
    (hn : ∀ c, s.server.collection = some c → c.index ≠ s.server.page ∨ c.sub.toNat ≠ sub ∨ c.words.length ≠ j) :
    exec (.registerWrite addr (some w) sec priv) s = .next (hostRefused sec priv errBroken
      (if wordStray o j w then protocolFault (protocolFault (dropCollection s)) else protocolFault (dropCollection s))) := by
  have hturn : ∀ c, s.server.collection = some c →
      c.index.toNat ≠ s.server.page.toNat ∨ c.sub.toNat ≠ sub ∨ c.words.length ≠ j :=
    fun c h => (hn c h).imp_left fun hi e => hi (BitVec.eq_of_toNat_eq e)
  refine exec_pageWrite (c := some errBroken) ha hr ?_
  rw [writeWord_wide ho h4 h128 hj hc, if_neg (by omega), nextWord_outOfTurn hturn]
  rfl

end

section
variable (h128 : o.size ≤ 128) (hc : checkAccess (.host sec priv) false s.server.page.toNat sub 0 = none)
include h128 hc

theorem exec_readLowest {t : State} {v : Bytes} (ha : PageWord addr sub 0) (h1 : 1 ≤ o.size)
    (hrm : removesOnRead s.server.page.toNat sub = false)
    (hv : readObj (.host sec priv) s.server.page.toNat sub s = (t, .ok v)) :
    exec (.registerWrite addr none sec priv) s =
      .next (hpAnswer 0 ((hostWords v).getD 0 0) (takeSnapshot s.server.page.toNat sub v t)) :=
  exec_pageRead ha hr (readWord_lowest ho h128 hc h1 hrm hv)

theorem exec_readFromSnapshot {j : Nat} {ws : List W32} (ha : PageWord addr sub j) (h1 : 1 ≤ j) (hj : j + 1 < ceilDiv o.size 4)
    (hw : spFind s.server.snapshots (oa s.server.page.toNat sub) = some ws) :
    exec (.registerWrite addr none sec priv) s = .next (hpAnswer 0 (ws.getD j 0) s) :=
  exec_pageRead ha hr (readWord_fromSnapshot ho h128 hc h1 hj hw)

end
end

/-- An object of at most 128 bytes has 32 words. -/
theorem ceilDiv_words_le {n : Nat} (h : n ≤ 128) : ceilDiv n 4 ≤ 32 := by unfold ceilDiv; omega

/-- Settles O11: each region of the window, and each word of a page's object by its turn. -/
theorem hostWindowWritesWords : Obligations.HostWindowWritesWords := by
  refine ⟨?page, ?target, ?narrow, ?lowest, ?highest, ?outOfTurn, ?noRegion, ?read, ?snapshot⟩
  case page => exact fun _ _ _ _ => exec_writePage
  case target => exact fun _ _ _ _ hr hb hw => ⟨_, exec_writeTarget hr hb hw, rfl, rfl⟩
  case narrow => exact fun _ _ _ _ _ _ _ hr ha ho h1 h4 hw => exec_writeNarrow hr ho ⟨ha, by decide⟩ h1 h4 hw
  case lowest => exact fun _ _ _ _ _ _ _ hr ha ho h4 h128 hc hn => exec_writeLowest hr ho h4 h128 hc ⟨ha, by decide⟩ hn
  case highest =>
    exact fun _ _ _ _ _ _ _ _ hr ha hsub ho h8 hc hs =>
      exec_writeHighest hr ho (by omega) (by omega) hc ⟨ha, by decide⟩ hsub h8 hs
  case outOfTurn =>
    intro sec priv addr w s sub j o hr ha h32 h1 _ ho h4 h128 hj hc hn
    rw [exec_writeOutOfTurn hr ho h4 h128 hc ⟨ha, h32⟩ h1 hj hn]
    exact ⟨fun h => by simp [h], fun h => by simp [h]⟩
  case noRegion => exact fun _ _ _ _ _ hr hl hh => ⟨_, exec_writeNoRegion hr hl hh, rfl, rfl⟩
  case read =>
    exact fun _ _ _ _ _ _ _ _ hr ha ho h1 h128 hc hrm hv => exec_readLowest hr ho h128 hc ⟨ha, by decide⟩ h1 hrm hv
  case snapshot =>
    intro sec priv addr s sub j o ws hr ha h1 hj h128 ho hc hw
    have h32 := ceilDiv_words_le h128
    exact exec_readFromSnapshot hr ho h128 hc ⟨ha, by omega⟩ h1 hj hw

end Sys2Proof.Machine

/-! PROOF. One step: the command at the front of the queue, or one cycle of clk_core (R37, R484, log 1). -/

namespace Sys2Proof.Machine

/-! ### The position in the bring-up of Table 15.1 -/

theorem driveReq_bringUp (s : State) (v : BitVec 3) : (driveReq s v).power.bringUp = s.power.bringUp := by
  unfold driveReq; split <;> rfl

theorem startExit_bringUp (s : State) (k : BitVec 3) : (startExit s k).power.bringUp = s.power.bringUp :=
  driveReq_bringUp _ _

theorem latchCause_bringUp (s : State) (b lo hi : Nat) : (latchCause s b lo hi).power.bringUp = s.power.bringUp := by
  unfold latchCause
  dsimp only
  split
  · rfl
  · split
    · exact startExit_bringUp _ _
    · rfl
    · rfl

theorem acceptWake_bringUp (s : State) (f : Bytes) : (acceptWake s f).power.bringUp = s.power.bringUp := by
  unfold acceptWake
  dsimp only
  split
  · exact latchCause_bringUp _ _ _ _
  · rfl

theorem decideWake_bringUp (s : State) (f : Bytes) : (decideWake s f).power.bringUp = s.power.bringUp := by
  unfold decideWake
  dsimp only
  repeat' split
  all_goals simp [acceptWake_bringUp]

theorem decideOldest_bringUp (s : State) : (decideOldest s).power.bringUp = s.power.bringUp := by
  unfold decideOldest
  split
  · rfl
  · exact decideWake_bringUp _ _

theorem wakeTick_bringUp (s : State) : (wakeTick s).power.bringUp = s.power.bringUp := by
  unfold wakeTick
  split
  · rfl
  · split
    · exact decideOldest_bringUp s
    · rfl

theorem leaveCtl_bringUp (s : State) (k : BitVec 3) : (leaveCtl s k).power.bringUp = s.power.bringUp := by
  rw [leaveCtl, isolateFor, driveReq_bringUp, setPower_power, (endBatch_keeps _ _).2, (abortStaging_keeps _ _).2]

theorem resumeEntry_bringUp (s : State) : (resumeEntry s).power.bringUp = s.power.bringUp := by
  unfold resumeEntry
  split
  · split
    · exact leaveCtl_bringUp s _
    · rfl
  · rfl

theorem dnTick_bringUp (s : State) : (dnTick s).power.bringUp = s.power.bringUp := by
  unfold dnTick
  split
  · rfl
  · split
    · rfl
    · split
      · exact resumeEntry_bringUp _
      · rfl

/-- Divider lock ends H1 (R37). -/
theorem lockDividers_h1 {s : State} (h : s.power.bringUp = .h1) :
    (lockDividers s).power.bringUp = .h2 ∧ (lockDividers s).power.dividerLock = true := by
  simp [lockDividers, h]

/-- In a cycle nothing moves the bring-up but divider lock. -/
theorem tick_dividerLock {s : State} (h : s.power.bringUp = .h1) :
    (tick s).power.bringUp = .h2 ∧ (tick s).power.dividerLock = true := by
  have hpower : ∀ x : State, (holdS0 x).power = x.power := fun x => (holdS0_keeps x).2
  simp only [tick, hpower]
  apply lockDividers_h1
  rw [dnTick_bringUp, wakeTick_bringUp, (memoryTick_keeps _).2, (endPulseHp_keeps _).2,
    foldl_power holdInput (fun x p => (holdInput_keeps x p).2)]
  split
  · rw [(advanceTime_keeps s).2, h]
  · exact h

/-! ### A step -/

theorem step_cons {c : Instr} {s : State} : step { s with pending := c :: s.pending } = exec c s := rfl

theorem step_nil {s : State} (h : s.pending = []) : step s = .next (tick s) := by
  simp [step, h]

/-- Settles O1: by the queue; on an empty one the cycle ends H1. -/
theorem stepRunsTheFrontCommand : Obligations.StepRunsTheFrontCommand :=
  ⟨fun _ _ => step_cons, fun s h => ⟨tick s, step_nil h, rfl, (tick_queue s).trans h, tick_dividerLock⟩⟩

end Sys2Proof.Machine

/-! PROOF. The clock monitor: what one window does, and what the recovery from CLOCK_LOST keeps (R38 to R40). -/

namespace Sys2Proof.Machine

/-! ### One window (R38, R410) -/

theorem windowBad_eq_false_iff (count : W32) :
    windowBad count = false ↔ 2332032 ≤ count.toNat ∧ count.toNat ≤ 2355468 := by
  simp [windowBad]

theorem windowBad_eq_true_iff (count : W32) :
    windowBad count = true ↔ count.toNat < 2332032 ∨ 2355468 < count.toNat := by
  simp [windowBad]

section
variable {count : W32} {s : State}

theorem exec_window_unevaluated (hm : monitorOn s = false) : exec (.clockMonitorWindow count) s = .next s := by
  simp [exec, execClockMonitorWindow, hm]

theorem exec_window_inRange (hm : monitorOn s = true) (hw : windowBad count = false) :
    exec (.clockMonitorWindow count) s = .next (goodWindow (setPower s { s.power with rootCount := count })) := by
  simp [exec, execClockMonitorWindow, hm, hw]

theorem exec_window_outOfRange (hm : monitorOn s = true) (hw : windowBad count = true) :
    exec (.clockMonitorWindow count) s = .next (badWindow (setPower s { s.power with rootCount := count })) := by
  simp [exec, execClockMonitorWindow, hm, hw]

end

/-- A window in range recovers nothing unless CLOCK_LOST is latched and a warm reset has come. -/
theorem goodWindow_noRecovery {s : State} (h : (s.power.clockLost && s.power.recoveryDue) = false) :
    goodWindow s = setPower s { s.power with windowOut := false, outRun := 0 } := by
  simp [goodWindow, h]

theorem badWindow_first {s : State} (h : s.power.outRun = 0) :
    badWindow s = raise (setPower s { s.power with windowOut := true, outRun := 1 }) evClockFault 0 := by
  simp [badWindow, h]

theorem badWindow_again {s : State} (h : 1 ≤ s.power.outRun) (hl : s.power.clockLost = false) :
    badWindow s = loseClock (raise (setPower s { s.power with windowOut := true, outRun := s.power.outRun + 1 }) evClockFault 0) := by
  simp [badWindow, h, hl]

theorem loseClock_power (s : State) :
    (loseClock s).power = { s.power with clockLost := true, recoveryDue := false, pdIso := 0b111110 } := by
  simp [loseClock]

theorem loseClock_frame (s : State) : loseClock s = { s with power := (loseClock s).power, events := (loseClock s).events } := by
  rw [loseClock_power, loseClock, raise_frame]
  rfl

/-- irq[7] shows CLOCK_LOST itself, whatever is pending (R39, R92). -/
theorem irqLine_clockLost {s : State} (h : s.power.clockLost = true) : irqLine s 7 = true := by
  simp [irqLine, h]

theorem exec_window_secondOutOfRange {count : W32} {s : State} (hm : monitorOn s = true) (hl : s.power.clockLost = false)
    (hw : windowBad count = true) (hr : 1 ≤ s.power.outRun) :
    ∃ t, exec (.clockMonitorWindow count) s = .next t ∧
      t.power = { s.power with rootCount := count, windowOut := true, outRun := s.power.outRun + 1, clockLost := true
                               recoveryDue := false, pdIso := 0b111110 } ∧
      irqLine t 7 = true ∧ t = { s with power := t.power, events := t.events } := by
  rw [exec_window_outOfRange hm hw, badWindow_again (by exact hr) (by exact hl)]
  refine ⟨_, rfl, ?power, irqLine_clockLost ?lost, ?frame⟩
  case power => rw [loseClock_power, (raise_keeps _ _ _).2]; rfl
  case lost => rw [loseClock_power]
  case frame => rw [loseClock_frame, raise_frame]; rfl

/-- Settles O19: by the count of the window, and the run of windows out of range before it. -/
theorem clockMonitorJudgesWindows : Obligations.ClockMonitorJudgesWindows := by
  refine ⟨fun count s hm hl => ⟨fun hin => ?inRange, fun hout => ⟨fun hfirst => ?first, fun hagain => ?second⟩⟩,
    fun _ _ => exec_window_unevaluated⟩
  case inRange =>
    rw [exec_window_inRange hm ((windowBad_eq_false_iff count).2 hin), goodWindow_noRecovery (by simp [hl])]
    rfl
  case first =>
    rw [exec_window_outOfRange hm ((windowBad_eq_true_iff count).2 hout), badWindow_first (by exact hfirst)]
    rfl
  case second => exact exec_window_secondOutOfRange hm hl ((windowBad_eq_true_iff count).2 hout) hagain

/-! ### Recovery from CLOCK_LOST (R40, R441) -/

theorem startFuse_contexts (s : State) : (startFuse s).contexts = s.contexts := rfl

theorem startInstantiation_contexts (s : State) (pass : Bool) : (startInstantiation s pass).contexts = s.contexts := by
  cases pass
  · simp only [startInstantiation, Bool.false_eq_true, if_false]; rw [raise_frame]
  · rfl

theorem evaluateRetentionSlot_contexts (s : State) (e : Nat × KeySlot) : (evaluateRetentionSlot s e).contexts = s.contexts := by
  unfold evaluateRetentionSlot
  dsimp only
  split
  · rw [raise_frame]; rfl
  · rfl

theorem evaluateRetention_contexts (s : State) : (evaluateRetention s).contexts = s.contexts :=
  List.foldlRecOn s.keys.slots evaluateRetentionSlot (motive := fun t => t.contexts = s.contexts) rfl
    fun t ht e _ => (evaluateRetentionSlot_contexts t e).trans ht

theorem releaseDomains_contexts (s : State) : (releaseDomains s).contexts = s.contexts := rfl

/-- After the bring-up, recovery leaves of the contexts what a stay in S4 leaves of them (R40). -/
theorem recoverClock_contexts {s : State} (h : s.power.bringUp = .done) :
    (recoverClock s).contexts = (losses (setPower s { s.power with clockLost := false, recoveryDue := false }) 4).contexts := by
  simp only [recoverClock, h, startFuse_contexts, startInstantiation_contexts, evaluateRetention_contexts, setPower_contexts,
    releaseDomains_contexts]

theorem goodWindow_recovers {s : State} (hl : s.power.clockLost = true) (hd : s.power.recoveryDue = true)
    (hr : s.power.pwrReq = 0) (ha : s.power.pwrAck = 0) :
    goodWindow s = recoverClock (setPower s { s.power with windowOut := false, outRun := 0 }) := by
  simp [goodWindow, hl, hd, hr, ha]

/-- CLOCK_LOST waits for a window in range after a warm reset, with every other domain isolated; context 0 stands on a row of
the Context Store that has been retired. -/
def lostWithRetiredContext : State :=
  { State.reset with
    power := { Power.default with
      bringUp := .done, dividerLock := true, clockLost := true, recoveryDue := true, outRun := 2, windowOut := true }
    faults := { Faults.default with retired := [(2 * 2 ^ 32, true)] } }

/-- The retirement mark outlasts the content of the Context Store (R441), so its context is still on record after recovery. -/
theorem recovered_lostWithRetiredContext {t : State}
    (ht : exec (.clockMonitorWindow 2343750) lostWithRetiredContext = .next t) : t.contexts ≠ [] := by
  rw [exec_window_inRange (by decide +kernel) (by decide +kernel), goodWindow_recovers rfl rfl rfl rfl] at ht
  injection ht with ht
  rw [← ht, recoverClock_contexts rfl]
  decide +kernel

/-- Refutes O20: recovery leaves the Context Store as a stay in S4 does, and there a retired context is marked again, so the
contexts are not empty. -/
theorem not_clockLostEndsAfterWarmReset : ¬ Obligations.ClockLostEndsAfterWarmReset := by
  rintro ⟨-, -, recovers, -⟩
  obtain ⟨t, ht, -, -, -, -, -, -, -, hempty, -⟩ :=
    recovers 2343750 lostWithRetiredContext (by decide +kernel) rfl (by decide +kernel) rfl rfl rfl rfl
  exact recovered_lostWithRetiredContext ht hempty

end Sys2Proof.Machine

/-! PROOF. A channel of the Memory Guard with one operation in work: what its evaluation, the answers of mc_ and its own
answer on mq_ leave (R79, R80, R82, R270, R271). -/

namespace Sys2Proof.Machine

/-! ### Two writes of one number of a store -/

section
variable {α : Type}

theorem spPut_spPut_same (m : Sparse α) (n : Nat) (v w : α) : spPut (spPut m n v) n w = spPut m n w := by
  induction m with
  | nil => simp [spPut]
  | cons e m ih =>
    obtain ⟨k, x⟩ := e
    rcases Nat.lt_trichotomy n k with h | h | h
    · simp [spPut, h]
    · simp [spPut, h]
    · simp [spPut, Nat.lt_asymm h, Nat.ne_of_gt h, ih]

theorem spDel_spPut_same (m : Sparse α) (n : Nat) (v : α) : spDel (spPut m n v) n = spDel m n := by
  induction m with
  | nil => simp [spPut, spDel]
  | cons e m ih =>
    obtain ⟨k, x⟩ := e
    rcases Nat.lt_trichotomy n k with h | h | h
    · simp [spPut, spDel, h]
    · simp [spPut, spDel, h]
    · simp [spPut, spDel, Nat.lt_asymm h, Nat.ne_of_gt h, Nat.ne_of_lt h, ih]

theorem spSet_spSet_same [DecidableEq α] {d : Nat → α} (m : Sparse α) {n : Nat} {v : α} (w : α) (h : v ≠ d n) :
    spSet d (spSet d m n v) n w = spSet d m n w := by
  simp only [spSet, if_neg h, spDel_spPut_same, spPut_spPut_same]

end

/-! ### The record of a channel -/

@[simp] theorem memChan_setMemChan_same (s : State) (k : Chan) (c : MemChan) : memChan (setMemChan s k c) k = c :=
  spGet_spSet_same chanDefault s.mem.chans k.val c

theorem setMemChan_setMemChan {c : MemChan} (h : c ≠ MemChan.default) (s : State) (k : Chan) (e : MemChan) :
    setMemChan (setMemChan s k c) k e = setMemChan s k e := by
  simp only [setMemChan, spSet_spSet_same (d := chanDefault) s.mem.chans e h]

@[simp] theorem regionDyn_setMemChan (s : State) (k : Chan) (c : MemChan) (r : Region) :
    regionDyn (setMemChan s k c) r = regionDyn s r := rfl

@[simp] theorem pathOn_setMemChan (s : State) (k : Chan) (c : MemChan) : pathOn (setMemChan s k c) = pathOn s := rfl

@[simp] theorem bump_setMemChan (s : State) (k : Chan) (c : MemChan) (i j : Nat) :
    bump (setMemChan s k c) i j = setMemChan (bump s i j) k c := rfl

@[simp] theorem memChan_bump (s : State) (k : Chan) (i j : Nat) : memChan (bump s i j) k = memChan s k := rfl

/-- The channel once it has numbered its next operation. -/
def numbered (c : MemChan) : MemChan := { c with nextSeq := c.nextSeq + 1 }

/-- The channel with one operation in work and its requests on mc_. -/
def working (c : MemChan) (op : MemOp) (qs : List McReq) : MemChan := { c with ops := [op], mc := qs }

/-- The channel with one more answer that waits to leave on mq_. -/
def answeredWith (c : MemChan) (a : MqRsp) : MemChan := { c with rsp := c.rsp ++ [a] }

/-- Nothing is in work on the channel, and no fault of an operation is remembered. -/
structure Resting (c : MemChan) : Prop where
  ops : c.ops = []
  mc : c.mc = []
  noted : c.noted = []

@[simp] theorem setMemChan_working (s : State) (k : Chan) (c : MemChan) (op : MemOp) (qs : List McReq) (e : MemChan) :
    setMemChan (setMemChan s k (working c op qs)) k e = setMemChan s k e :=
  setMemChan_setMemChan (fun h => by simpa [working, MemChan.default] using congrArg MemChan.ops h) s k e

/-! ### Operations and requests of a working channel -/

section
variable {s : State} {k : Chan} {c : MemChan} {op : MemOp}

theorem appendOp_resting (h : memChan s k = c) (hc : Resting c) (o : MemOp) :
    appendOp s k o = setMemChan s k (working (numbered c) { o with seq := c.nextSeq } []) := by
  simp [appendOp, h, numbered, working, hc.ops, hc.mc]

theorem putOp_working {qs : List McReq} {o : MemOp} (h : o.seq = op.seq) :
    putOp (setMemChan s k (working c op qs)) k o = setMemChan s k (working c o qs) := by
  simp only [putOp, memChan_setMemChan_same, setMemChan_working]
  simp [working, h]

/-- A request that is already on mc_ is not presented again. -/
theorem issueMc_waiting {q : McReq} {seq a : Nat} {w : Bool} (hs : q.seq = seq) (ha : q.addr = a) (hw : q.write = w)
    (d : Line) (mask : W64) (spent : Option Nat) :
    issueMc (setMemChan s k (working c op [q])) k seq a w d mask spent = setMemChan s k (working c op [q]) := by
  simp [issueMc, working, hs, ha, hw]

theorem issueMc_first {spent : Option Nat} {n : Nat} (h : freeMcId (working c op []) spent = some n) (seq a : Nat) (w : Bool)
    (d : Line) (mask : W64) :
    issueMc (setMemChan s k (working c op [])) k seq a w d mask spent =
      setMemChan s k (working c op [⟨n, seq, a, w, d, mask, s.now, c.mcReady⟩]) := by
  simp only [issueMc, memChan_setMemChan_same, h, setMemChan_working]
  rfl

theorem freeMcId_none (h : c.withheld = []) : freeMcId (working c op []) none = some 0 := by
  simp only [freeMcId, working, h]
  decide +kernel

theorem freeMcId_spent (h : c.withheld = [] ∨ c.withheld = [0]) : freeMcId (working c op []) (some 0) = some 1 := by
  rcases h with h | h
  · simp only [freeMcId, working, h]; decide +kernel
  · simp only [freeMcId, working, h]; decide +kernel

/-! ### An answer on mq_ (R268, Table 8.12) -/

/-- The answer counts with its region. -/
def countAnswer (s : State) (r : Option Region) (st : Nat) : State :=
  match r, answerCounter st with
  | some r, some n => bump s (0x3C11 + r.val) n
  | _, _ => s

@[simp] theorem countAnswer_none (s : State) (st : Nat) : countAnswer s none st = s := rfl

theorem respond_working (qs : List McReq) (id : BitVec 12) (w : Bool) (r : Option Region) (st : Nat) (d : Line) :
    respond (setMemChan s k (working c op qs)) k id w r st d = setMemChan (countAnswer s r st) k
      (working (answeredWith c ⟨id, w, if st = 0 ∧ !w then d else 0, BitVec.ofNat 3 st⟩) op qs) := by
  unfold respond countAnswer
  cases r with
  | none => simp only [memChan_setMemChan_same, setMemChan_working]; rfl
  | some r =>
    cases answerCounter st with
    | none => simp only [memChan_setMemChan_same, setMemChan_working]; rfl
    | some n => simp only [bump_setMemChan, memChan_setMemChan_same, setMemChan_working]; rfl

theorem dropOp_working (hc : Resting c) : dropOp (setMemChan s k (working c op [])) k op.seq = setMemChan s k c := by
  simp only [dropOp, memChan_setMemChan_same, setMemChan_working]
  obtain ⟨ops, mc, withheld, rsp, nextSeq, late, noted, ready⟩ := c
  obtain ⟨rfl, rfl, rfl⟩ : ops = [] ∧ mc = [] ∧ noted = [] := ⟨hc.ops, hc.mc, hc.noted⟩
  simp [working]

theorem answeredWith_resting (hc : Resting c) (a : MqRsp) : Resting (answeredWith c a) := ⟨hc.ops, hc.mc, hc.noted⟩

/-- The operation is answered, and the channel rests. -/
theorem dropOp_respond (hc : Resting c) (w : Bool) (r : Option Region) (st : Nat) (d : Line) :
    dropOp (respond (setMemChan s k (working c op [])) k op.id w r st d) k op.seq = setMemChan (countAnswer s r st) k
      (answeredWith c ⟨op.id, w, if st = 0 ∧ !w then d else 0, BitVec.ofNat 3 st⟩) := by
  rw [respond_working, dropOp_working (answeredWith_resting hc _)]

/-! ### One evaluation -/

/-- A write whose data is on its way to mc_. -/
def sentWrite (op : MemOp) (d : Line) : MemOp := { op with cipher := some d, children := [(op.addr, d)] }

theorem runOp_settled {st : Nat} {w : Bool} (h : op.work = .settled st w) (s : State) :
    runOp k op s = dropOp (respond s k op.id w op.region st 0) k op.seq := by
  simp only [runOp, evalOp, isWrite, h]
  rfl

section
variable (hr : op.region = none)
include hr

section
variable (hw : op.work = .read)
include hw

theorem runOp_readMissing (hf : op.failed = []) (hg : op.got = []) (s : State) :
    runOp k op s = issueMc s k op.seq op.addr false 0 0 none := by
  simp only [runOp, evalOp, bypass, gathered, hr, hw, hf, hg, spFind]
  rfl

theorem runOp_readFailed {st : BitVec 2} (hf : spFind op.failed op.addr = some st) (s : State) :
    runOp k op s = dropOp (respond s k op.id false none (lastingStatus st) 0) k op.seq := by
  simp only [runOp, evalOp, bypass, gathered, hr, hw, hf]
  simp [onHalt, endWith, isRequest, isWrite, hr, hw]
  rfl

theorem runOp_readGot {d : Line} (hf : op.failed = []) (hg : spFind op.got op.addr = some d) (s : State) :
    runOp k op s = dropOp (respond (if op.once.contains op.addr then bump s 0x3C00 (3 + k.val) else s) k op.id false none 0 d) k
      op.seq := by
  simp only [runOp, evalOp, bypass, gathered, countPlain, isWrite, hr, hw, hf, hg, spFind]
  cases op.once.contains op.addr <;> rfl

end

section
variable {d : Line} {m : W64} (hw : op.work = .write d m)
include hw

theorem runOp_writeFirst (hc : op.cipher = none) (s : State) :
    runOp k op s = issueWrites (putOp s k (sentWrite op d)) k (sentWrite op d) := by
  simp only [runOp, evalOp, bypass, sentWrite, hr, hw, hc]
  rfl

theorem runOp_writeWaiting (hc : op.cipher = some d) (hf : op.failed = []) (hd : op.done = []) (s : State) :
    runOp k op s = issueWrites (putOp s k op) k op := by
  simp only [runOp, evalOp, bypass, writeAnswer, hr, hw, hc, hf, hd, spFind]
  rfl

theorem runOp_writeDone (hc : op.cipher = some d) (hf : op.failed = []) (hd : op.done.contains op.addr = true) (s : State) :
    runOp k op s = dropOp (respond s k op.id true none 0 0) k op.seq := by
  simp only [runOp, evalOp, bypass, writeAnswer, isWrite, hr, hw, hc, hf, hd, spFind]
  rfl

end
end

/-! ### What runs (R79, R265, R269) -/

theorem finishClosing_noOld {r : Region} (h : (regionDyn s r).old = []) : finishClosing s r = s := by
  simp [finishClosing, h]

theorem advanceOp_outside (hr : op.region = none) (s : State) : advanceOp s k op = runOp k op s := by
  simp [advanceOp, underOld, hr]

theorem advanceOp_region {r : Region} (hr : op.region = some r) (ho : op.old = none)
    (h : (regionDyn (runOp k op s) r).old = []) : advanceOp s k op = runOp k op s := by
  simp [advanceOp, underOld, hr, ho, finishClosing_noOld h]

/-- A request that is alone on its channel waits for nothing. -/
theorem not_blocked_working (hq : isRequest op = true) (qs : List McReq) :
    blocked (setMemChan s k (working c op qs)) k op = false := by
  have hwork : ∀ level node, op.work ≠ .renorm level node := fun _ _ e => by simp [isRequest, e] at hq
  simp [blocked, working, underRenorm, sweepBars, hwork]

theorem pumpOnce_resting (h : (memChan s k).ops = []) : pumpOnce s k = s := by
  simp [pumpOnce, h]

theorem pumpOnce_working (hq : isRequest op = true) (hl : c.rsp.length < 256) (qs : List McReq) :
    pumpOnce (setMemChan s k (working c op qs)) k = advanceOp (setMemChan s k (working c op qs)) k op := by
  have hroom : ¬256 ≤ (working c op qs).rsp.length := Nat.not_le.2 hl
  have hops : (working c op qs).ops = [op] := rfl
  simp [pumpOnce, hops, not_blocked_working hq, hroom]

section
variable {qs : List McReq} (hq : isRequest op = true) (hl : c.rsp.length < 256)
include hq hl

/-- The operation ends at its first evaluation. -/
theorem pump_ends {t : State} {e : MemChan} (he : e.ops = [])
    (h : advanceOp (setMemChan s k (working c op qs)) k op = setMemChan t k e) :
    pump (setMemChan s k (working c op qs)) k = setMemChan t k e := by
  rw [pump, pumpOnce_working hq hl, h, pumpOnce_resting (by rw [memChan_setMemChan_same, he])]

/-- The operation waits for mc_ after its first evaluation. -/
theorem pump_waits {o : MemOp} {rs : List McReq} (ho : isRequest o = true)
    (h : advanceOp (setMemChan s k (working c op qs)) k op = setMemChan s k (working c o rs))
    (hw : advanceOp (setMemChan s k (working c o rs)) k o = setMemChan s k (working c o rs)) :
    pump (setMemChan s k (working c op qs)) k = setMemChan s k (working c o rs) := by
  rw [pump, pumpOnce_working hq hl, h, pumpOnce_working ho hl, hw]

end

/-! ### A request that the engine answers itself (R266, R267, R270) -/

theorem pump_settled (hc : Resting c) (hl : c.rsp.length < 256) {st : Nat} {w : Bool} (hw : op.work = .settled st w)
    (ho : op.old = none) (hold : ∀ r, op.region = some r → (regionDyn s r).old = []) :
    pump (setMemChan s k (working c op [])) k = setMemChan (countAnswer s op.region st) k
      (answeredWith c ⟨op.id, w, 0, BitVec.ofNat 3 st⟩) := by
  have hrun : runOp k op (setMemChan s k (working c op [])) = setMemChan (countAnswer s op.region st) k
      (answeredWith c ⟨op.id, w, 0, BitVec.ofNat 3 st⟩) := by
    rw [runOp_settled hw, dropOp_respond hc, ite_self]
  refine pump_ends (by simp [isRequest, hw]) hl hc.ops ?_
  cases hr : op.region with
  | none => rw [advanceOp_outside hr, hrun, hr]
  | some r =>
    have hkeep : regionDyn (countAnswer s (some r) st) r = regionDyn s r := by
      unfold countAnswer; cases answerCounter st <;> rfl
    rw [advanceOp_region hr ho (by rw [hrun, hr, regionDyn_setMemChan, hkeep]; exact hold r hr), hrun, hr]

/-! ### A read that is passed through (R266, R270, R292) -/

/-- The operation is a read outside the protected modes that waits for its line, and the request on mc_ is its own. -/
structure ReadOut (op : MemOp) (q : McReq) : Prop where
  region : op.region = none
  work : op.work = .read
  got : op.got = []
  failed : op.failed = []
  seq : q.seq = op.seq
  addr : q.addr = op.addr
  write : q.write = false

/-- The read waits for its line, with its request on mc_. -/
theorem pump_readOut {q : McReq} {qs : List McReq} (ho : ReadOut op q) (hl : c.rsp.length < 256)
    (h : issueMc (setMemChan s k (working c op qs)) k op.seq op.addr false 0 0 none = setMemChan s k (working c op [q])) :
    pump (setMemChan s k (working c op qs)) k = setMemChan s k (working c op [q]) := by
  have hq : isRequest op = true := by simp [isRequest, ho.work]
  refine pump_waits hq hl hq ?first ?again
  case first => rw [advanceOp_outside ho.region, runOp_readMissing ho.region ho.work ho.failed ho.got, h]
  case again =>
    rw [advanceOp_outside ho.region, runOp_readMissing ho.region ho.work ho.failed ho.got,
      issueMc_waiting ho.seq ho.addr ho.write]

section
variable (hr : op.region = none) (hl : c.rsp.length < 256)
include hr hl

section
variable (hw : op.work = .read)
include hw

theorem pump_readGot (hc : Resting c) {d : Line} (hf : op.failed = []) (hg : spFind op.got op.addr = some d) :
    pump (setMemChan s k (working c op [])) k =
      setMemChan (if op.once.contains op.addr then bump s 0x3C00 (3 + k.val) else s) k
        (answeredWith c ⟨op.id, false, d, 0⟩) := by
  refine pump_ends (by simp [isRequest, hw]) hl hc.ops ?_
  rw [advanceOp_outside hr, runOp_readGot hr hw hf hg, bump_setMemChan, ← apply_ite (setMemChan · k _), dropOp_respond hc]
  rfl

theorem pump_readFailed (hc : Resting c) {st : BitVec 2} (hf : spFind op.failed op.addr = some st) :
    pump (setMemChan s k (working c op [])) k =
      setMemChan s k (answeredWith c ⟨op.id, false, 0, BitVec.ofNat 3 (lastingStatus st)⟩) := by
  refine pump_ends (by simp [isRequest, hw]) hl hc.ops ?_
  rw [advanceOp_outside hr, runOp_readFailed hr hw hf, dropOp_respond hc, ite_self]
  rfl

end

/-! ### A write that is passed through (R270, R292) -/

section
variable {d : Line} {m : W64} (hw : op.work = .write d m)
include hw

omit hl in
theorem issueWrites_sent {t : State} (hf : op.failed = []) (hd : op.done = []) :
    issueWrites t k (sentWrite op d) = issueMc t k op.seq op.addr true d m none := by
  simp [issueWrites, sentWrite, opMask, hw, hr, hf, hd, spFind]

theorem pump_writeFirst (hci : op.cipher = none) (hf : op.failed = []) (hd : op.done = []) (hwh : c.withheld = []) :
    pump (setMemChan s k (working c op [])) k = setMemChan s k
      (working c (sentWrite op d) [⟨0, op.seq, op.addr, true, d, m, s.now, c.mcReady⟩]) := by
  have hq : isRequest op = true := by simp [isRequest, hw]
  refine pump_waits hq hl hq ?first ?again
  case first =>
    rw [advanceOp_outside hr, runOp_writeFirst hr hw hci, issueWrites_sent hr hw hf hd,
      putOp_working (op := op) (o := sentWrite op d) rfl, issueMc_first (freeMcId_none hwh)]
  case again =>
    have hr' : (sentWrite op d).region = none := hr
    rw [advanceOp_outside hr', runOp_writeWaiting hr' hw rfl hf hd, issueWrites_sent hr hw hf hd, putOp_working rfl,
      issueMc_waiting rfl rfl rfl]

theorem pump_writeDone (hc : Resting c) (hci : op.cipher = some d) (hf : op.failed = [])
    (hd : op.done.contains op.addr = true) :
    pump (setMemChan s k (working c op [])) k = setMemChan s k (answeredWith c ⟨op.id, true, 0, 0⟩) := by
  refine pump_ends (by simp [isRequest, hw]) hl hc.ops ?_
  rw [advanceOp_outside hr, runOp_writeDone hr hw hci hf hd, dropOp_respond hc]
  rfl

end
end

/-! ### Answers of mc_ (R82, R271) -/

section
variable {q : McReq} (h : memChan s k = working c op [q]) (hs : q.seq = op.seq)
include h hs

/-- What an answer does once it has left mc_: the operation takes it, and goes on or repeats the access. -/
theorem answerMc_working (d : Line) (st : BitVec 2) : answerMc s k q d st =
    pump (if st != 0 && !op.once.contains (accessKey q) then
      issueMc (countWrite (putOp (setMemChan s k (working c op [])) k (accessDone op q d st)) k op q st) k
        q.seq q.addr q.write q.data q.mask (some q.id)
      else countWrite (putOp (setMemChan s k (working c op [])) k (accessDone op q d st)) k op q st) k := by
  have hleft : { working c op [q] with mc := (working c op [q]).mc.filter (fun x => x.id != q.id) } = working c op [] := by
    simp [working]
  have hfind : (working c op []).ops.find? (fun o => o.seq == q.seq) = some op := by simp [working, hs]
  simp only [answerMc, h, hleft, memChan_setMemChan_same, hfind]

/-- A good answer, or a second failure, lets the operation go on; here no write has needed its second attempt. -/
theorem answerMc_last {st : BitVec 2} (hst : st = 0 ∨ op.once.contains (accessKey q) = true)
    (hw : q.write = false ∨ op.once = []) (d : Line) :
    answerMc s k q d st = pump (setMemChan s k (working c (accessDone op q d st) [])) k := by
  have hlast : (st != 0 && !op.once.contains (accessKey q)) = false := by
    rcases hst with rfl | hst
    · rfl
    · rw [hst, Bool.not_true, Bool.and_false]
  have hcount : ∀ t, countWrite t k op q st = t := by
    intro t
    rcases hw with hw | hw <;> simp [countWrite, hw]
  have hseq : (accessDone op q d st).seq = op.seq := by
    unfold accessDone; repeat' split
    all_goals rfl
  rw [answerMc_working h hs, hlast, hcount, putOp_working hseq]
  rfl

/-- A first failure is repeated with a new identifier. -/
theorem answerMc_first {st : BitVec 2} (hst : st ≠ 0) (ho : op.once = []) (d : Line) :
    answerMc s k q d st = pump (issueMc (setMemChan s k (working c { op with once := [accessKey q] } [])) k q.seq q.addr q.write
      q.data q.mask (some q.id)) k := by
  have hdone : accessDone op q d st = { op with once := [accessKey q] } := by
    simp only [accessDone, if_neg hst, ho, List.contains_nil, List.nil_append, Bool.false_eq_true, if_false]
  have hcount : ∀ t, countWrite t k op q st = t := fun t => if_neg fun hw => hst hw.2.1
  have hagain : (st != 0 && !op.once.contains (accessKey q)) = true := by
    rw [bne_iff_ne.2 hst, ho]; rfl
  rw [answerMc_working h hs, hagain, hcount, hdone,
    putOp_working (op := op) (o := { op with once := [accessKey q] }) rfl]
  rfl

end
/-! ### A read that is passed through, and its answers -/

section
variable {q : McReq} (ho : ReadOut op q)
include ho

theorem ReadOut.accessKey : accessKey q = op.addr := by
  simp [Machine.accessKey, ho.write, ho.addr]

variable (h : memChan s k = working c op [q]) (hl : c.rsp.length < 256)
include h hl

/-- A good answer goes to mq_; after a first failure it counts as a transient fault. -/
theorem answerMc_readGood (hc : Resting c) (d : Line) :
    answerMc s k q d 0 = setMemChan (if op.once.contains op.addr then bump s 0x3C00 (3 + k.val) else s) k
      (answeredWith c ⟨op.id, false, d, 0⟩) := by
  have hdone : accessDone op q d 0 = { op with got := spPut op.got op.addr d } := by simp [accessDone, ho.write, ho.addr]
  rw [answerMc_last h ho.seq (.inl rfl) (.inl ho.write), hdone]
  exact pump_readGot (op := { op with got := spPut op.got op.addr d }) ho.region hl ho.work hc ho.failed
    (spFind_spPut_same op.got op.addr d)

/-- A first failure: the read is on mc_ again, under the next identifier. -/
theorem answerMc_readAgain (hw : c.withheld = [] ∨ c.withheld = [0]) (hid : q.id = 0) (hon : op.once = []) {st : BitVec 2}
    (hst : st ≠ 0) (d : Line) :
    answerMc s k q d st = setMemChan s k
      (working c { op with once := [op.addr] } [{ q with id := 1, since := s.now, sent := c.mcReady }]) := by
  have again : ReadOut { op with once := [op.addr] } { q with id := 1, since := s.now, sent := c.mcReady } :=
    ⟨ho.region, ho.work, ho.got, ho.failed, ho.seq, ho.addr, ho.write⟩
  rw [answerMc_first h ho.seq hst hon, ho.accessKey, hid, issueMc_first (freeMcId_spent hw)]
  exact pump_readOut again hl (issueMc_waiting again.seq again.addr again.write _ _ _)

/-- A second failure is answered with the status it stands for. -/
theorem answerMc_readFailed (hc : Resting c) (hon : op.once.contains op.addr = true) {st : BitVec 2} (hst : st ≠ 0)
    (d : Line) :
    answerMc s k q d st = setMemChan s k (answeredWith c ⟨op.id, false, 0, BitVec.ofNat 3 (lastingStatus st)⟩) := by
  have hdone : accessDone op q d st =
      { op with failed := spPut op.failed op.addr st, got := spPut op.got op.addr d } := by
    simp only [accessDone, if_neg hst, ho.accessKey, hon, ho.write, ho.addr, if_true, Bool.false_eq_true, if_false]
  rw [answerMc_last h ho.seq (.inr (by rw [ho.accessKey, hon])) (.inl ho.write), hdone]
  exact pump_readFailed (op := { op with failed := spPut op.failed op.addr st, got := spPut op.got op.addr d }) ho.region hl
    ho.work hc (spFind_spPut_same op.failed op.addr st)

end

/-- The good answer of a write that is passed through. -/
theorem answerMc_writeGood {q : McReq} {d : Line} {m : W64} (hr : op.region = none) (hw : op.work = .write d m)
    (hf : op.failed = []) (hon : op.once = []) (hs : q.seq = op.seq) (ha : q.addr = op.addr) (hq : q.write = true)
    (h : memChan s k = working c (sentWrite op d) [q]) (hl : c.rsp.length < 256) (hc : Resting c) (x : Line) :
    answerMc s k q x 0 = setMemChan s k (answeredWith c ⟨op.id, true, 0, 0⟩) := by
  have hdone : accessDone (sentWrite op d) q x 0 = { sentWrite op d with done := op.done ++ [op.addr] } := by
    simp [accessDone, sentWrite, hq, ha]
  rw [answerMc_last h hs (.inl rfl) (.inr hon), hdone]
  exact pump_writeDone (op := { sentWrite op d with done := op.done ++ [op.addr] }) hr hl hw hc rfl hf (by simp [sentWrite])

end
end Sys2Proof.Machine

/-! PROOF. A request on mq_ from its decoding to its answer, on an idle channel (R82, R266, R267, R270, R271, Table 8.5). -/

namespace Sys2Proof.Machine

/-! ### Decoding (R266) -/

section
variable {s : State} {k : Chan} {a : Nat}

theorem decodeLine_metadata (h : ∃ c ∈ regionsOf s, inMetadata c a = true) : ∃ r, decodeLine s k a = .refused (some r) := by
  obtain ⟨c, hc⟩ := Option.isSome_iff_exists.1 (List.find?_isSome.2 h)
  exact ⟨c.region, by simp only [decodeLine, hc]⟩

section
variable (hm : ∀ c ∈ regionsOf s, inMetadata c a = false)
include hm

theorem find_metadata_none : (regionsOf s).find? (fun c => inMetadata c a) = none :=
  List.find?_eq_none.2 fun c hc => by simp [hm c hc]

theorem decodeLine_outside (h : ∀ c ∈ regionsOf s, ¬(c.base ≤ a ∧ a < c.base + c.lines)) : decodeLine s k a = .through := by
  have hspan : (regionsOf s).find? (fun c => inSpan a c.base c.lines) = none :=
    List.find?_eq_none.2 fun c hc => by simpa [inSpan] using h c hc
  simp only [decodeLine, find_metadata_none hm, hspan]

theorem decodeLine_inRegion {c : RegionCfg} (h : (regionsOf s).filter (fun x => inSpan a x.base x.lines) = [c]) :
    decodeLine s k a = if chanOf c = k then .region c.region else .refused (some c.region) := by
  have hspan : (regionsOf s).find? (fun c => inSpan a c.base c.lines) = some c := by
    rw [← List.head?_filter, h, List.head?_cons]
  simp only [decodeLine, find_metadata_none hm, hspan]

end
end

/-! ### Acceptance (R79, R266, R267, R270) -/

theorem runAll_cons {c : Instr} {cs : List Instr} {s t : State} (h : exec c s = .next t) : runAll (c :: cs) s = runAll cs t := by
  simp only [runAll, h]

section
variable {s : State} {k : Chan} {a : BitVec 34} {id : BitVec 12} {d : BitVec 512} {m : W64}

theorem exec_memoryRead_notReady (h : mqReady s k = false) : exec (.memoryRead k a id) s = .next s := by
  simp [exec, execMemoryRead, h]

theorem exec_memoryWrite_notReady (h : mqReady s k = false) : exec (.memoryWrite k a id d m) s = .next s := by
  simp [exec, execMemoryWrite, h]

theorem exec_memoryRead (h : mqReady s k = true) :
    exec (.memoryRead k a id) s = .next (acceptMq s k a.toNat id .read false 0) := by
  simp [exec, execMemoryRead, h]

theorem exec_memoryWrite (h : mqReady s k = true) :
    exec (.memoryWrite k a id d m) s = .next (acceptMq s k a.toNat id (.write d m) true m) := by
  simp [exec, execMemoryWrite, h]

end

/-- A channel with nothing in work and room for an answer. -/
structure Idle (s : State) (k : Chan) : Prop where
  resting : Resting (memChan s k)
  withheld : (memChan s k).withheld = []
  room : (memChan s k).rsp.length < 256

theorem Idle.numbered {s : State} {k : Chan} (h : Idle s k) : Resting (Machine.numbered (memChan s k)) :=
  ⟨h.resting.ops, h.resting.mc, h.resting.noted⟩

theorem Idle.numbered_room {s : State} {k : Chan} (h : Idle s k) : (Machine.numbered (memChan s k)).rsp.length < 256 := h.room

theorem Idle.mqReady {s : State} {k : Chan} (h : Idle s k) (hp : pathOn s = true) : mqReady s k = true := by
  simp [Machine.mqReady, hp, h.resting.ops, h.room]

section
variable {s : State} {k : Chan} (hi : Idle s k) {a : Nat} {id : BitVec 12} {work : MemWork} {write : Bool} {mask : W64}
include hi

/-- A request that is answered without mc_. -/
theorem pump_settles {r : Option Region} (st : Nat) (hr : ∀ x, r = some x → (regionDyn s x).old = []) :
    pump (appendOp s k (newOp (.settled st write) a id r)) k = setMemChan (countAnswer s r st) k
      (answeredWith (numbered (memChan s k)) ⟨id, write, 0, BitVec.ofNat 3 st⟩) := by
  rw [appendOp_resting rfl hi.resting]
  exact pump_settled hi.numbered hi.room rfl rfl hr

theorem acceptMq_refused {r : Region} (h : decodeLine s k a = .refused (some r)) (ho : (regionDyn s r).old = []) :
    acceptMq s k a id work write mask = setMemChan (bump s (0x3C11 + r.val) 8) k
      (answeredWith (numbered (memChan s k)) ⟨id, write, 0, 4⟩) := by
  simp only [acceptMq, h]
  exact pump_settles hi 4 (by rintro x ⟨⟩; exact ho)

/-- A request that its region refuses counts as a request and as a refusal (Table 8.12). -/
theorem acceptMq_regionRefused {r : Region} (h : decodeLine s k a = .region r) (ho : (regionDyn s r).old = []) {st : Nat}
    (hst : st = 4 ∨ st = 5) (hr : regionRefusal s r write mask = some st) :
    acceptMq s k a id work write mask =
      setMemChan (bump (bump s (0x3C11 + r.val) (if write then 2 else 1)) (0x3C11 + r.val) 8) k
        (answeredWith (numbered (memChan s k)) ⟨id, write, 0, BitVec.ofNat 3 st⟩) := by
  have hcounted : Idle (bump s (0x3C11 + r.val) (if write then 2 else 1)) k := ⟨hi.resting, hi.withheld, hi.room⟩
  have h0 : st ≠ 0 := by omega
  have hcode : answerCounter st = some 8 := by rcases hst with rfl | rfl <;> rfl
  simp only [acceptMq, h, hr, if_neg h0]
  rw [pump_settles hcounted st (by rintro x ⟨⟩; exact ho)]
  simp only [countAnswer, hcode, memChan_bump]

theorem acceptMq_emptyMask {r : Region} (h : decodeLine s k a = .region r) (ho : (regionDyn s r).old = [])
    (hr : regionRefusal s r write mask = some 0) :
    acceptMq s k a id work write mask =
      setMemChan s k (answeredWith (numbered (memChan s k)) ⟨id, write, 0, 0⟩) := by
  simp only [acceptMq, h, hr, if_true]
  exact pump_settles hi 0 (by rintro x ⟨⟩; exact ho)

/-! ### A line outside every region (R266, R270, R271, R292) -/

theorem acceptMq_throughEmptyMask (h : decodeLine s k a = .through) :
    acceptMq s k a id work true 0 = setMemChan s k (answeredWith (numbered (memChan s k)) ⟨id, true, 0, 0⟩) := by
  simp only [acceptMq, h, and_self, if_true]
  exact pump_settles hi 0 (by rintro x ⟨⟩)

/-- A read that is passed through, as the channel holds it; its access may have failed once. -/
def throughRead (a : Nat) (id : BitVec 12) (n : Nat) (once : List Nat) : MemOp :=
  { newOp .read a id none with seq := n, once := once }

/-- Its request on mc_. -/
def throughReadReq (a n i now : Nat) (ready : Bool) : McReq := ⟨i, n, a, false, 0, 0, now, ready⟩

omit hi in
theorem throughRead_out (n i now : Nat) (ready : Bool) (once : List Nat) :
    ReadOut (throughRead a id n once) (throughReadReq a n i now ready) := ⟨rfl, rfl, rfl, rfl, rfl, rfl, rfl⟩

theorem acceptMq_throughRead (h : decodeLine s k a = .through) :
    acceptMq s k a id .read false 0 = setMemChan s k (working (numbered (memChan s k)) (throughRead a id (memChan s k).nextSeq [])
      [throughReadReq a (memChan s k).nextSeq 0 s.now (memChan s k).mcReady]) := by
  have hop : appendOp s k (newOp .read a id none) =
      setMemChan s k (working (numbered (memChan s k)) (throughRead a id (memChan s k).nextSeq []) []) :=
    appendOp_resting rfl hi.resting _
  simp only [acceptMq, h, Bool.false_eq_true, false_and, if_false, hop]
  exact pump_readOut (c := numbered (memChan s k)) (throughRead_out _ _ _ _ []) hi.room
    (issueMc_first (freeMcId_none (c := numbered (memChan s k)) hi.withheld) _ _ _ _ _)

/-- A write that is passed through, as the channel holds it. -/
def throughWrite (a : Nat) (id : BitVec 12) (d : Line) (m : W64) (n : Nat) : MemOp :=
  { newOp (.write d m) a id none with seq := n }

theorem acceptMq_throughWrite {d : Line} {m : W64} (h : decodeLine s k a = .through) (hm : m ≠ 0) :
    acceptMq s k a id (.write d m) true m = setMemChan s k
      (working (numbered (memChan s k)) (sentWrite (throughWrite a id d m (memChan s k).nextSeq) d)
        [⟨0, (memChan s k).nextSeq, a, true, d, m, s.now, (memChan s k).mcReady⟩]) := by
  have hop : appendOp s k (newOp (.write d m) a id none) =
      setMemChan s k (working (numbered (memChan s k)) (throughWrite a id d m (memChan s k).nextSeq) []) :=
    appendOp_resting rfl hi.resting _
  simp only [acceptMq, h, hm, and_false, if_false, hop]
  exact pump_writeFirst (c := numbered (memChan s k)) (op := throughWrite a id d m (memChan s k).nextSeq) rfl
    hi.numbered_room rfl rfl rfl rfl hi.withheld

end

/-! ### Answers and timeouts of mc_ (R82, R271) -/

section
variable {s : State} {k : Chan} {id : BitVec 10} {x : Line} {st : BitVec 2}

theorem exec_mcResponse_off (h : pathOn s = false) : exec (.mcResponse k id x st) s = .next s := by
  simp [exec, execMcResponse, h]

theorem exec_mcTimeout_off (h : pathOn s = false) : exec (.mcTimeout k id) s = .next s := by
  simp [exec, execMcTimeout, h]

section
variable (hp : pathOn s = true)
include hp

section
variable (hq : ∀ q ∈ (memChan s k).mc, q.id ≠ id.toNat ∨ q.sent = false)
include hq

omit hp in
theorem find_outstanding_none : (memChan s k).mc.find? (fun q => q.id == id.toNat && q.sent) = none :=
  List.find?_eq_none.2 fun q hm => by rcases hq q hm with h | h <;> simp [h]

theorem exec_mcTimeout_notOutstanding : exec (.mcTimeout k id) s = .next s := by
  simp [exec, execMcTimeout, hp, find_outstanding_none hq]

/-- An answer that nothing waits for is discarded and counted; it frees a withheld identifier or breaks the protocol. -/
theorem exec_mcResponse_notOutstanding {u : State}
    (hu : u = setMemChan s k { memChan s k with withheld := (memChan s k).withheld.filter (fun n => n != id.toNat)
                                                lateDiscards := (memChan s k).lateDiscards + 1 }) :
    exec (.mcResponse k id x st) s =
      .next (if id.toNat ∈ (memChan s k).withheld then u else raiseCause u (104 + k.val) 1 k.val) := by
  subst hu
  simp only [exec, execMcResponse, hp, find_outstanding_none hq, List.contains_iff_mem, Bool.not_true, Bool.false_eq_true,
    if_false]
  rfl

end

section
variable {c : MemChan} {op : MemOp} {q : McReq} (h : memChan s k = working c op [q]) (hid : q.id = id.toNat) (hs : q.sent = true)
include h hid hs

theorem exec_mcResponse_outstanding : exec (.mcResponse k id x st) s = .next (answerMc s k q x st) := by
  have hfind : (working c op [q]).mc.find? (fun q => q.id == id.toNat && q.sent) = some q := by simp [working, hid, hs]
  simp only [exec, execMcResponse, hp, h, hfind, Bool.not_true, Bool.false_eq_true, if_false]

theorem exec_mcTimeout_early (he : elapsed s q.since (usCycles (regN s 0x3C00 (k.val + 1))) = false) :
    exec (.mcTimeout k id) s = .next s := by
  have hfind : (working c op [q]).mc.find? (fun q => q.id == id.toNat && q.sent) = some q := by simp [working, hid, hs]
  simp only [exec, execMcTimeout, hp, h, hfind, he, Bool.not_true, Bool.false_eq_true, if_false]

/-- A timeout withholds the identifier, raises its event and counts as an answer with status 1 (R82). -/
theorem exec_mcTimeout_due (he : elapsed s q.since (usCycles (regN s 0x3C00 (k.val + 1))) = true) :
    exec (.mcTimeout k id) s = .next (answerMc
      (raiseCause (setMemChan s k (working { c with withheld := c.withheld ++ [q.id] } op [q])) (104 + k.val) 0 k.val)
      k q (Config.lostLine q.addr s.now) 1) := by
  have hfind : (working c op [q]).mc.find? (fun q => q.id == id.toNat && q.sent) = some q := by simp [working, hid, hs]
  simp only [exec, execMcTimeout, hp, h, hfind, he, Bool.not_true, Bool.false_eq_true, if_false, if_true]
  rfl

end
end
end

/-! ### The event of a channel (R453, R454) -/

theorem getLsbD_setBit_true {w i : Nat} (x : BitVec w) (h : i < w) : (setBit x i true).getLsbD i = true := by
  simp only [setBit, if_true, BitVec.getLsbD_or, BitVec.getLsbD_ofNat, Nat.testBit_two_pow_self, h, decide_true, Bool.and_self,
    Bool.or_true]

@[simp] theorem memChan_raiseCause (s : State) (src b n : Nat) (k : Chan) : memChan (raiseCause s src b n) k = memChan s k := by
  rw [raiseCause_frame]; rfl

@[simp] theorem now_raiseCause (s : State) (src b n : Nat) : (raiseCause s src b n).now = s.now := by
  rw [raiseCause_frame]

/-- With PD_CTL On a raise with a cause shows both in the Fault Manager. -/
theorem raiseCause_recorded {s : State} {src b : Nat} (n : Nat) (h : ctlOn s = true) (hs : src < 256) (hb : b < 32) :
    (raiseCause s src b n).events.pending.getLsbD src = true ∧
      (spGet w32Zero (raiseCause s src b n).events.cause src).getLsbD b = true := by
  simp only [raiseCause, h, if_true, raise_on s src n h, recordRaise, spGet_spSet_same]
  exact ⟨getLsbD_setBit_true _ hs, getLsbD_setBit_true _ hb⟩

/-! ### The answers to a request that is passed through (Table 8.5) -/

section
variable {s : State} {k : Chan} {c : MemChan} {op : MemOp} {q : McReq} {id : BitVec 10} (hp : pathOn s = true)
  (hid : q.id = id.toNat) (hs : q.sent = true)
include hp hid hs

theorem exec_mcResponse_working (x : Line) (st : BitVec 2) :
    exec (.mcResponse k id x st) (setMemChan s k (working c op [q])) =
      .next (answerMc (setMemChan s k (working c op [q])) k q x st) :=
  exec_mcResponse_outstanding ((pathOn_setMemChan s k _).trans hp) (memChan_setMemChan_same s k _) hid hs

section
variable (ho : ReadOut op q) (hl : c.rsp.length < 256)
include ho hl

theorem exec_mcResponse_readGood (hc : Resting c) (d : Line) :
    exec (.mcResponse k id d 0) (setMemChan s k (working c op [q])) =
      .next (setMemChan (if op.once.contains op.addr then bump s 0x3C00 (3 + k.val) else s) k
        (answeredWith c ⟨op.id, false, d, 0⟩)) := by
  rw [exec_mcResponse_working hp hid hs,
    answerMc_readGood ho (memChan_setMemChan_same s k _) hl hc, bump_setMemChan, ← apply_ite (setMemChan · k _),
    setMemChan_working]

theorem exec_mcResponse_readAgain (hw : c.withheld = [] ∨ c.withheld = [0]) (h0 : q.id = 0) (hon : op.once = []) {st : BitVec 2}
    (hst : st ≠ 0) (d : Line) :
    exec (.mcResponse k id d st) (setMemChan s k (working c op [q])) = .next (setMemChan s k
      (working c { op with once := [op.addr] } [{ q with id := 1, since := s.now, sent := c.mcReady }])) := by
  rw [exec_mcResponse_working hp hid hs,
    answerMc_readAgain ho (memChan_setMemChan_same s k _) hl hw h0 hon hst, setMemChan_working]
  rfl

theorem exec_mcResponse_readFailed (hc : Resting c) (hon : op.once.contains op.addr = true) {st : BitVec 2} (hst : st ≠ 0)
    (d : Line) :
    exec (.mcResponse k id d st) (setMemChan s k (working c op [q])) =
      .next (setMemChan s k (answeredWith c ⟨op.id, false, 0, BitVec.ofNat 3 (lastingStatus st)⟩)) := by
  rw [exec_mcResponse_working hp hid hs,
    answerMc_readFailed ho (memChan_setMemChan_same s k _) hl hc hon hst, setMemChan_working]

end
end

theorem ofNat_lastingStatus (st : BitVec 2) : BitVec.ofNat 3 (lastingStatus st) = if st = 1 then 1 else 7 := by
  unfold lastingStatus; split <;> rfl

section
variable {s : State} {k : Chan} (hi : Idle s k) (hp : pathOn s = true) {a : BitVec 34} {id : BitVec 12}
  (h : decodeLine s k a.toNat = .through)
include hi hp h

theorem exec_memoryRead_through : exec (.memoryRead k a id) s = .next (setMemChan s k (working (numbered (memChan s k))
    (throughRead a.toNat id (memChan s k).nextSeq [])
    [throughReadReq a.toNat (memChan s k).nextSeq 0 s.now (memChan s k).mcReady])) := by
  rw [exec_memoryRead (hi.mqReady hp), acceptMq_throughRead hi h]

section
variable (hs : (memChan s k).mcReady = true)
include hs

/-- The read and its good answer. -/
theorem runAll_readGood (x : Line) : runAll [.memoryRead k a id, .mcResponse k 0 x 0] s =
    .next (setMemChan s k (answeredWith (numbered (memChan s k)) ⟨id, false, x, 0⟩)) := by
  rw [runAll_cons (exec_memoryRead_through hi hp h),
    runAll_cons (exec_mcResponse_readGood (id := 0) hp rfl hs (throughRead_out _ _ _ _ []) hi.numbered_room
      hi.numbered x)]
  rfl

/-- The read and a first failure: its access is repeated. -/
theorem runAll_readAgain (cs : List Instr) (x : Line) {st : BitVec 2} (hst : st ≠ 0) :
    runAll (.memoryRead k a id :: .mcResponse k 0 x st :: cs) s =
      runAll cs (setMemChan s k (working (numbered (memChan s k))
        (throughRead a.toNat id (memChan s k).nextSeq [a.toNat])
        [throughReadReq a.toNat (memChan s k).nextSeq 1 s.now (memChan s k).mcReady])) := by
  rw [runAll_cons (exec_memoryRead_through hi hp h), runAll_cons (exec_mcResponse_readAgain hp rfl hs (throughRead_out _ _ _ _ [])
    hi.numbered_room (.inl hi.withheld) rfl rfl hst x)]
  rfl

/-- A repeat that succeeds counts as a transient fault of the channel (R271). -/
theorem runAll_readTransient (x y : Line) {st : BitVec 2} (hst : st ≠ 0) :
    runAll [.memoryRead k a id, .mcResponse k 0 x st, .mcResponse k 1 y 0] s =
      .next (bump (setMemChan s k (answeredWith (numbered (memChan s k)) ⟨id, false, y, 0⟩)) 0x3C00 (3 + k.val)) := by
  have hgood := exec_mcResponse_readGood (k := k) (id := 1) hp rfl hs
    (throughRead_out (a := a.toNat) (id := id) (memChan s k).nextSeq 1 s.now (memChan s k).mcReady [a.toNat])
    hi.numbered_room hi.numbered y
  rw [if_pos (by simp [throughRead, newOp])] at hgood
  rw [runAll_readAgain hi hp h hs _ x hst, runAll_cons hgood]
  rfl

/-- A repeat that fails is answered with the status of its failure. -/
theorem runAll_readLasting (x y : Line) {st st2 : BitVec 2} (hst : st ≠ 0) (hst2 : st2 ≠ 0) :
    runAll [.memoryRead k a id, .mcResponse k 0 x st, .mcResponse k 1 y st2] s =
      .next (setMemChan s k (answeredWith (numbered (memChan s k)) ⟨id, false, 0, if st2 = 1 then 1 else 7⟩)) := by
  have hfail := exec_mcResponse_readFailed (k := k) (id := 1) hp rfl hs
    (throughRead_out (a := a.toNat) (id := id) (memChan s k).nextSeq 1 s.now (memChan s k).mcReady [a.toNat])
    hi.numbered_room hi.numbered (by simp [throughRead, newOp]) hst2 y
  rw [ofNat_lastingStatus] at hfail
  rw [runAll_readAgain hi hp h hs _ x hst, runAll_cons hfail]
  rfl

end

section
variable {d : Line} {m : W64} (hm : m ≠ 0)
include hm

theorem exec_memoryWrite_through : exec (.memoryWrite k a id d m) s = .next (setMemChan s k (working (numbered (memChan s k))
    (sentWrite (throughWrite a.toNat id d m (memChan s k).nextSeq) d)
    [⟨0, (memChan s k).nextSeq, a.toNat, true, d, m, s.now, (memChan s k).mcReady⟩])) := by
  rw [exec_memoryWrite (hi.mqReady hp), acceptMq_throughWrite hi h hm]

/-- The write and its good answer. -/
theorem runAll_writeGood (hs : (memChan s k).mcReady = true) (x : Line) :
    runAll [.memoryWrite k a id d m, .mcResponse k 0 x 0] s =
      .next (setMemChan s k (answeredWith (numbered (memChan s k)) ⟨id, true, 0, 0⟩)) := by
  rw [runAll_cons (exec_memoryWrite_through hi hp h hm),
    runAll_cons (exec_mcResponse_working hp rfl hs x 0),
    answerMc_writeGood (op := throughWrite a.toNat id d m (memChan s k).nextSeq) rfl rfl rfl rfl rfl rfl rfl
      (memChan_setMemChan_same s k _) hi.numbered_room hi.numbered, setMemChan_working]
  rfl

end
end

/-! ### A region that does not serve, and an empty mask (R267, R270) -/

section
variable {s : State} {r : Region} {write : Bool} {mask : W64}

theorem regionRefusal_uninit (h : (regionDyn s r).state = .uninit ∨ (regionDyn s r).state = .initialising) :
    regionRefusal s r write mask = some 4 := by
  simp only [regionRefusal, if_pos h]

theorem regionRefusal_writeLocked (h : (regionDyn s r).state = .writeLocked) : regionRefusal s r true mask = some 5 := by
  simp [regionRefusal, h]

theorem regionRefusal_emptyMask (h : (regionDyn s r).state = .active) : regionRefusal s r true 0 = some 0 := by
  simp [regionRefusal, h]

end

/-! ### A request that times out (R82) -/

theorem working_self {c : MemChan} {op : MemOp} {qs : List McReq} (ho : c.ops = [op]) (hm : c.mc = qs) : working c op qs = c := by
  obtain ⟨ops, mc, withheld, rsp, nextSeq, late, noted, ready⟩ := c
  obtain ⟨rfl, rfl⟩ : ops = [op] ∧ mc = qs := ⟨ho, hm⟩
  rfl

/-- A read that times out for the first time: its identifier is withheld and its access is repeated. -/
theorem exec_mcTimeout_read {s : State} {k : Chan} {op : MemOp} {q : McReq} (hp : pathOn s = true) (ho : ReadOut op q)
    (hon : op.once = []) (hid : q.id = 0) (hs : q.sent = true) (h : memChan s k = working (memChan s k) op [q])
    (hw : (memChan s k).withheld = []) (hl : (memChan s k).rsp.length < 256)
    (he : elapsed s q.since (usCycles (regN s 0x3C00 (k.val + 1))) = true) :
    ∃ t, exec (.mcTimeout k 0) s = .next t ∧
      memChan t k = { memChan s k with ops := [{ op with once := [op.addr] }]
                                       mc := [{ q with id := 1, since := s.now, sent := (memChan s k).mcReady }], withheld := [0] } ∧
      (ctlOn s = true → t.events.pending.getLsbD (104 + k.val) = true ∧
        (spGet w32Zero t.events.cause (104 + k.val)).getLsbD 0 = true) ∧
      t = { s with mem := { s.mem with chans := t.mem.chans }, events := t.events } := by
  have hid0 : q.id = (0 : BitVec 10).toNat := hid
  have hheld : (memChan s k).withheld ++ [q.id] = [0] := by rw [hw, hid]; rfl
  rw [exec_mcTimeout_due hp h hid0 hs he, hheld, answerMc_readAgain ho (c := { memChan s k with withheld := [0] })
    ((memChan_raiseCause _ _ _ _ k).trans (memChan_setMemChan_same s k _)) hl (.inr rfl) hid hon (by decide)]
  refine ⟨_, rfl, ?channel, fun hon => ?event, ?frame⟩
  case channel => rw [memChan_setMemChan_same, now_raiseCause]; rfl
  case event => exact raiseCause_recorded k.val hon (by omega) (by decide)
  case frame => rw [raiseCause_frame]; rfl

/-- Settles O50: by what the address decodes to, then by the answers of mc_. -/
theorem memoryRequestsAreDecodedAndPassed : Obligations.MemoryRequestsAreDecodedAndPassed := by
  refine ⟨fun s k a => ⟨decodeLine_metadata, fun hm => ⟨decodeLine_outside hm, fun c => decodeLine_inRegion hm⟩⟩,
    fun s k a id d m h => ⟨exec_memoryRead_notReady h, exec_memoryWrite_notReady h⟩, ?requests, ?answers, ?timeout⟩
  case requests =>
    rintro s k a id d m ch n hp rfl hops hmc hw hnoted hl rfl
    have hi : Idle s k := ⟨⟨hops, hmc, hnoted⟩, hw, hl⟩
    have hq : mqReady s k = true := hi.mqReady hp
    refine ⟨?refused, fun r hd ho => ⟨fun hu => ⟨?read, ?write⟩, fun hwl => ?locked, fun ha => ?empty⟩, fun ht => ?through⟩
    case refused =>
      rintro r hd ho c w (⟨rfl, rfl⟩ | ⟨rfl, rfl⟩)
      · rw [exec_memoryRead hq, acceptMq_refused hi hd ho]; rfl
      · rw [exec_memoryWrite hq, acceptMq_refused hi hd ho]; rfl
    case read => rw [exec_memoryRead hq, acceptMq_regionRefused hi hd ho (.inl rfl) (regionRefusal_uninit hu)]; rfl
    case write => rw [exec_memoryWrite hq, acceptMq_regionRefused hi hd ho (.inl rfl) (regionRefusal_uninit hu)]; rfl
    case locked => rw [exec_memoryWrite hq, acceptMq_regionRefused hi hd ho (.inr rfl) (regionRefusal_writeLocked hwl)]; rfl
    case empty => rw [exec_memoryWrite hq, acceptMq_emptyMask hi hd ho (regionRefusal_emptyMask ha)]; rfl
    case through =>
      refine ⟨exec_memoryRead_through hi hp ht, fun x hs => runAll_readGood hi hp ht hs x,
        fun x y st hs hst => runAll_readTransient hi hp ht hs x y hst,
        fun x y st st2 hs hst hst2 => runAll_readLasting hi hp ht hs x y hst hst2,
        fun hm => ⟨exec_memoryWrite_through hi hp ht hm, fun x hs => runAll_writeGood hi hp ht hm hs x⟩, ?_⟩
      rw [exec_memoryWrite hq, acceptMq_throughEmptyMask hi ht]
      rfl
  case answers =>
    exact fun s k id x st => ⟨fun hp => ⟨exec_mcResponse_off hp, exec_mcTimeout_off hp⟩,
      fun hp hq => ⟨exec_mcTimeout_notOutstanding hp hq, _, rfl, exec_mcResponse_notOutstanding hp hq rfl⟩⟩
  case timeout =>
    rintro s k ch op q a id n c hp rfl rfl rfl hops hmc hw - hl
    have h := (working_self hops hmc).symm
    exact ⟨exec_mcTimeout_early hp h rfl rfl, exec_mcTimeout_read hp (throughRead_out n 0 c true []) rfl rfl rfl h hw hl⟩

end Sys2Proof.Machine

/-! PROOF. The shared operations: what a raise of an event and a request for a grant leave of each field, and the events that
stay pending (R428, R453 to R455). -/

namespace Sys2Proof.Machine

/-! ### A raise changes the Fault Manager's record alone -/

section
variable (s : State) (src b d : Nat)

@[simp] theorem raise_now : (raise s src d).now = s.now := by rw [raise_frame]
@[simp] theorem raise_regs : (raise s src d).regs = s.regs := by rw [raise_frame]
@[simp] theorem raise_ctrs : (raise s src d).ctrs = s.ctrs := by rw [raise_frame]
@[simp] theorem raise_grants : (raise s src d).grants = s.grants := by rw [raise_frame]
@[simp] theorem raise_server : (raise s src d).server = s.server := by rw [raise_frame]
@[simp] theorem raise_keys : (raise s src d).keys = s.keys := by rw [raise_frame]
@[simp] theorem raise_attest : (raise s src d).attest = s.attest := by rw [raise_frame]
@[simp] theorem raise_contexts : (raise s src d).contexts = s.contexts := by rw [raise_frame]
@[simp] theorem raise_shims : (raise s src d).shims = s.shims := by rw [raise_frame]
@[simp] theorem raise_cls : (raise s src d).cls = s.cls := by rw [raise_frame]
@[simp] theorem raise_mem : (raise s src d).mem = s.mem := by rw [raise_frame]
@[simp] theorem raise_trunks : (raise s src d).trunks = s.trunks := by rw [raise_frame]
@[simp] theorem raise_time : (raise s src d).time = s.time := by rw [raise_frame]
@[simp] theorem raise_faults : (raise s src d).faults = s.faults := by rw [raise_frame]

@[simp] theorem raiseCause_regs : (raiseCause s src b d).regs = s.regs := by rw [raiseCause_frame]
@[simp] theorem raiseCause_ctrs : (raiseCause s src b d).ctrs = s.ctrs := by rw [raiseCause_frame]
@[simp] theorem raiseCause_grants : (raiseCause s src b d).grants = s.grants := by rw [raiseCause_frame]
@[simp] theorem raiseCause_server : (raiseCause s src b d).server = s.server := by rw [raiseCause_frame]
@[simp] theorem raiseCause_keys : (raiseCause s src b d).keys = s.keys := by rw [raiseCause_frame]
@[simp] theorem raiseCause_attest : (raiseCause s src b d).attest = s.attest := by rw [raiseCause_frame]
@[simp] theorem raiseCause_contexts : (raiseCause s src b d).contexts = s.contexts := by rw [raiseCause_frame]
@[simp] theorem raiseCause_shims : (raiseCause s src b d).shims = s.shims := by rw [raiseCause_frame]
@[simp] theorem raiseCause_cls : (raiseCause s src b d).cls = s.cls := by rw [raiseCause_frame]
@[simp] theorem raiseCause_mem : (raiseCause s src b d).mem = s.mem := by rw [raiseCause_frame]
@[simp] theorem raiseCause_trunks : (raiseCause s src b d).trunks = s.trunks := by rw [raiseCause_frame]
@[simp] theorem raiseCause_time : (raiseCause s src b d).time = s.time := by rw [raiseCause_frame]
@[simp] theorem raiseCause_faults : (raiseCause s src b d).faults = s.faults := by rw [raiseCause_frame]

@[simp] theorem ctlOn_raise : ctlOn (raise s src d) = ctlOn s := by simp [ctlOn, domainOn]
@[simp] theorem ctlOn_raiseCause : ctlOn (raiseCause s src b d) = ctlOn s := by simp [ctlOn, domainOn]
@[simp] theorem reg_raise (i j : Nat) : reg (raise s src d) i j = reg s i j := by simp [reg]
@[simp] theorem ctr_raise (i j : Nat) : ctr (raise s src d) i j = ctr s i j := by simp [ctr]
@[simp] theorem ctr_raiseCause (i j : Nat) : ctr (raiseCause s src b d) i j = ctr s i j := by simp [ctr]

end

/-! ### Pending sources -/

theorem getLsbD_setBit_of_getLsbD {w i j : Nat} {x : BitVec w} (h : x.getLsbD i = true) : (setBit x j true).getLsbD i = true := by
  simp [setBit, h]

/-- With PD_CTL On a raised source is pending. -/
theorem raise_pending_self {s : State} {src : Nat} (d : Nat) (h : ctlOn s = true) (hs : src < 256) :
    (raise s src d).events.pending.getLsbD src = true := by
  rw [raise_on s src d h]
  exact getLsbD_setBit_true _ hs

/-- A raise clears no pending source. -/
theorem raise_pending_of_pending {s : State} {e : Nat} (src d : Nat) (h : s.events.pending.getLsbD e = true) :
    (raise s src d).events.pending.getLsbD e = true := by
  rcases hc : ctlOn s with _ | _
  · rw [raise_off s src d hc]
    split
    · exact h
    · exact h
  · rw [raise_on s src d hc]
    exact getLsbD_setBit_of_getLsbD h

/-! ### A request for a grant, and its end, change the grants alone -/

section
variable (s : State) (op : HeavyOp) (b : Bool)

@[simp] theorem requestGrant_now : (requestGrant s op b).now = s.now := by rw [requestGrant_frame]
@[simp] theorem requestGrant_regs : (requestGrant s op b).regs = s.regs := by rw [requestGrant_frame]
@[simp] theorem requestGrant_ctrs : (requestGrant s op b).ctrs = s.ctrs := by rw [requestGrant_frame]
@[simp] theorem requestGrant_events : (requestGrant s op b).events = s.events := by rw [requestGrant_frame]
@[simp] theorem requestGrant_server : (requestGrant s op b).server = s.server := by rw [requestGrant_frame]
@[simp] theorem requestGrant_keys : (requestGrant s op b).keys = s.keys := by rw [requestGrant_frame]
@[simp] theorem requestGrant_attest : (requestGrant s op b).attest = s.attest := by rw [requestGrant_frame]
@[simp] theorem requestGrant_contexts : (requestGrant s op b).contexts = s.contexts := by rw [requestGrant_frame]
@[simp] theorem requestGrant_shims : (requestGrant s op b).shims = s.shims := by rw [requestGrant_frame]
@[simp] theorem requestGrant_cls : (requestGrant s op b).cls = s.cls := by rw [requestGrant_frame]
@[simp] theorem requestGrant_mem : (requestGrant s op b).mem = s.mem := by rw [requestGrant_frame]
@[simp] theorem requestGrant_trunks : (requestGrant s op b).trunks = s.trunks := by rw [requestGrant_frame]
@[simp] theorem requestGrant_time : (requestGrant s op b).time = s.time := by rw [requestGrant_frame]
@[simp] theorem requestGrant_faults : (requestGrant s op b).faults = s.faults := by rw [requestGrant_frame]

@[simp] theorem releaseGrant_now : (releaseGrant s op).now = s.now := rfl
@[simp] theorem releaseGrant_regs : (releaseGrant s op).regs = s.regs := rfl
@[simp] theorem releaseGrant_ctrs : (releaseGrant s op).ctrs = s.ctrs := rfl
@[simp] theorem releaseGrant_events : (releaseGrant s op).events = s.events := rfl
@[simp] theorem releaseGrant_server : (releaseGrant s op).server = s.server := rfl
@[simp] theorem releaseGrant_keys : (releaseGrant s op).keys = s.keys := rfl
@[simp] theorem releaseGrant_attest : (releaseGrant s op).attest = s.attest := rfl
@[simp] theorem releaseGrant_contexts : (releaseGrant s op).contexts = s.contexts := rfl
@[simp] theorem releaseGrant_shims : (releaseGrant s op).shims = s.shims := rfl
@[simp] theorem releaseGrant_cls : (releaseGrant s op).cls = s.cls := rfl
@[simp] theorem releaseGrant_mem : (releaseGrant s op).mem = s.mem := rfl
@[simp] theorem releaseGrant_trunks : (releaseGrant s op).trunks = s.trunks := rfl
@[simp] theorem releaseGrant_time : (releaseGrant s op).time = s.time := rfl
@[simp] theorem releaseGrant_faults : (releaseGrant s op).faults = s.faults := rfl

@[simp] theorem ctlOn_requestGrant : ctlOn (requestGrant s op b) = ctlOn s := by simp [ctlOn, domainOn]

end

end Sys2Proof.Machine

/-! PROOF. The power handshake and its two faults (R98, R99). -/

namespace Sys2Proof.Machine

section
variable {s : State} {v : BitVec 3}

theorem exec_wrongAck_known (h : v = s.power.pwrReq ∨ v = s.power.pwrAck) :
    exec (.powerHandshakeFault (.wrongValue v)) s = .next s := by
  simp [exec, execPowerHandshakeFault, h]

theorem exec_wrongAck_other (hr : v ≠ s.power.pwrReq) (ha : v ≠ s.power.pwrAck) :
    exec (.powerHandshakeFault (.wrongValue v)) s = .next (handshakeEvent (setPower s { s.power with pwrAck := v })) := by
  simp [exec, execPowerHandshakeFault, hr, ha]

/-- The timeout of R99: the engine waits, has not raised the fault in this wait, and the limit has passed. -/
theorem exec_handshakeTimeout (s : State) :
    exec (.powerHandshakeFault .timeout) s = .next (if awaitsAck s && !s.power.handshakeRaised &&
      elapsed s s.power.handshakeStart (msCycles (regN s 0x2100 3)) then
        handshakeEvent (setPower s { s.power with handshakeRaised := true }) else s) := rfl

end

/-- Settles O28: each fault by its own condition; a raise leaves the power ladder. -/
theorem handshakeFaultsAreRaisedOnce : Obligations.HandshakeFaultsAreRaisedOnce := by
  refine ⟨fun v s => exec_wrongAck_other, fun v s => exec_wrongAck_known, fun s hw hl => ⟨fun hr => ?first, fun hr => ?again⟩,
    fun s h => ?notDue, fun s n d p => by simp, rfl⟩
  case first => simp [exec_handshakeTimeout, hw, hl, hr, handshakeEvent, evPowerHandshake]
  case again => simp [exec_handshakeTimeout, hr]
  case notDue => rcases h with h | h <;> simp [exec_handshakeTimeout, h]
end Sys2Proof.Machine

/-! PROOF. Messages of the field network: the words of a message, and what dn_rx_ and dn_tx_ do with one (R54, R87 to R89). -/

namespace Sys2Proof.Machine


/-! ### The words of a message (R88) -/

theorem map_eq_marks_iff {α : Type} {f : α → Bool} {l : List α} {marks : List Bool} (hl : l.length = marks.length) :
    l.map f = marks ↔ ∀ (i : Nat) x, l[i]? = some x → marks[i]? = some (f x) := by
  constructor
  · rintro rfl i x hx
    simp [hx]
  · intro h
    apply List.ext_getElem?
    intro i
    rcases hx : l[i]? with _ | x
    · rw [List.getElem?_eq_none (by simpa using hx), List.getElem?_eq_none (hl ▸ by simpa using hx)]
    · rw [List.getElem?_map, hx, h i x hx]
      rfl

theorem firstMarks_getElem? {n i : Nat} (h : i < n) :
    (true :: List.replicate (n - 1) false)[i]? = some (decide (i = 0)) := by
  cases i with
  | zero => rfl
  | succ i => rw [List.getElem?_cons_succ, List.getElem?_replicate_of_lt (by omega)]; simp

theorem lastMarks_getElem? {n i : Nat} (h : i < n) :
    (List.replicate (n - 1) false ++ [true])[i]? = some (decide (i + 1 = n)) := by
  rcases Nat.lt_or_ge i (n - 1) with hi | hi
  · rw [List.getElem?_append_left (by simpa using hi)]
    simp [hi]; omega
  · obtain rfl : i = n - 1 := by omega
    simp; omega

theorem messageWhole_iff (len : Nat) (ws : List MsgWord) : messageWhole len ws = true ↔
    len ≤ 64 ∧ ws.length = Nat.max 1 (ceilDiv len 4) ∧
      ∀ i w, ws[i]? = some w → w.first = decide (i = 0) ∧ w.last = decide (i + 1 = ws.length) := by
  simp only [messageWhole, Bool.and_eq_true, decide_eq_true_eq, beq_iff_eq, and_assoc]
  refine and_congr_right fun _ => and_congr_right fun hn => ?_
  have hpos : 1 ≤ ws.length := hn ▸ Nat.le_max_left 1 _
  rw [map_eq_marks_iff (by simp; omega), map_eq_marks_iff (by simp; omega), ← forall_and]
  refine forall_congr' fun i => ?_
  rw [← forall_and]
  refine forall_congr' fun w => ?_
  rw [← imp_and]
  refine imp_congr_right fun hw => ?_
  have hi : i < ws.length := (List.getElem?_eq_some_iff.1 hw).1
  rw [firstMarks_getElem? hi, lastMarks_getElem? hi, Option.some_inj, Option.some_inj, eq_comm, eq_comm (a := w.last)]

/-! ### A message on dn_rx_ (R88, R89) -/

section
variable {id : BitVec 29} {ext : Bool} {len : BitVec 7} {ws : List MsgWord} {s : State}

theorem exec_dnRxMessage_notTaken (h : serverReady s = false ∨ 8 ≤ s.server.rxQueue.length) :
    exec (.dnRxMessage id ext len ws) s = .next s := by
  have hc : (!serverReady s || decide (8 ≤ s.server.rxQueue.length)) = true := by
    rcases h with h | h <;> simp [h]
  simp [exec, execDnRxMessage, hc]

variable (hr : serverReady s = true) (hq : s.server.rxQueue.length < 8)
include hr hq

theorem exec_dnRxMessage_taken :
    exec (.dnRxMessage id ext len ws) s = .next (if messageWhole len.toNat ws = false then raise s 73 0
      else if identifierMatches (usdoRxId s) id ext then setServer s { s.server with
        rxQueue := s.server.rxQueue ++ [(ws.flatMap (fun w => wordBytes w.data)).take len.toNat] } else s) := by
  simp [exec, execDnRxMessage, hr, Nat.not_le.2 hq, evFieldProtocol]

end

/-! ### A message on dn_tx_ (R54, R89) -/

theorem dnTx_valid_iff (s : State) : (dnTx s).valid = true ↔ ctlOn s = true ∧ s.server.txQueue ≠ [] := by
  unfold dnTx
  split
  · rename_i hc hq; simp [hc, hq]
  · rename_i h
    rcases hc : ctlOn s with _ | _
    · simp
    · rcases hq : s.server.txQueue with _ | ⟨a, rest⟩
      · simp
      · exact absurd hq (h a rest hc)

theorem resumeEntry_notWaiting {s : State} (h : s.power.entryWait = false) : resumeEntry s = s := by
  unfold resumeEntry
  split
  · simp [h]
  · rfl

theorem dnTick_presented {s : State} {a : UsdoAnswer} {rest : List UsdoAnswer} (hc : ctlOn s = true)
    (hq : s.server.txQueue = a :: rest) (hw : s.power.entryWait = false) :
    dnTick s = setServer s (if Config.dnTxReady s.now = false then { s.server with txHeld := true }
      else if (dnTx s).word.last then { s.server with txQueue := rest, txWord := 0, txHeld := false, transferSince := s.now }
      else { s.server with txWord := s.server.txWord + 1, txHeld := true }) := by
  have hv : (dnTx s).valid = true := (dnTx_valid_iff s).2 ⟨hc, by simp [hq]⟩
  rw [dnTick, hv, resumeEntry_notWaiting (by exact hw), hq]
  cases Config.dnTxReady s.now <;> cases (dnTx s).word.last <;> rfl

/-- Settles O13: the marks of the words decide whether a message is whole, and each message is taken or not by its port. -/
theorem fieldMessagesAreQueuedOrDropped : Obligations.FieldMessagesAreQueuedOrDropped := by
  refine ⟨messageWhole_iff, fun id ext len ws s hr hq hw => ⟨fun hi => ?own, fun hi => ?other⟩,
    fun id ext len ws s hr hq hw => ?broken, fun _ _ _ _ _ => exec_dnRxMessage_notTaken, dnTx_valid_iff,
    fun _ _ _ => dnTick_presented⟩
  all_goals rw [exec_dnRxMessage_taken hr hq]
  case own => simp [hw, hi]
  case other => simp [hw, hi]
  case broken => simp [hw]
end Sys2Proof.Machine

/-! PROOF. The fuse image: reads of a word, the end of a read and what is reported then, and test mode (R94, R95, R105, R234 to
R236, R484, R487). -/

namespace Sys2Proof.Machine

/-! ### The spare-pipeline BIST that S0 lets go (R480) -/

section
variable (s : State)

/-- A run that goes leaves all but its own record and the grants. -/
theorem spareGo_frame : spareGo s = { s with faults := (spareGo s).faults, grants := (spareGo s).grants } := by
  unfold spareGo
  split
  · rw [requestGrant_frame]; rfl
  · rfl

@[simp] theorem spareGo_now : (spareGo s).now = s.now := by rw [spareGo_frame]
@[simp] theorem spareGo_regs : (spareGo s).regs = s.regs := by rw [spareGo_frame]
@[simp] theorem spareGo_ctrs : (spareGo s).ctrs = s.ctrs := by rw [spareGo_frame]
@[simp] theorem spareGo_events : (spareGo s).events = s.events := by rw [spareGo_frame]
@[simp] theorem spareGo_keys : (spareGo s).keys = s.keys := by rw [spareGo_frame]
@[simp] theorem spareGo_contexts : (spareGo s).contexts = s.contexts := by rw [spareGo_frame]
@[simp] theorem spareGo_mem : (spareGo s).mem = s.mem := by rw [spareGo_frame]
@[simp] theorem spareGo_trunks : (spareGo s).trunks = s.trunks := by rw [spareGo_frame]

end

/-! ### The report of S0 (R414) -/

section
variable (s : State) (k : BitVec 3)

@[simp] theorem reportS0_regs : (reportS0 s k).regs = s.regs := by simp [reportS0]
@[simp] theorem reportS0_ctrs : (reportS0 s k).ctrs = s.ctrs := by simp [reportS0]
@[simp] theorem reportS0_keys : (reportS0 s k).keys = s.keys := by simp [reportS0]
@[simp] theorem reportS0_contexts : (reportS0 s k).contexts = s.contexts := by simp [reportS0]
@[simp] theorem reportS0_mem : (reportS0 s k).mem = s.mem := by simp [reportS0]
@[simp] theorem reportS0_trunks : (reportS0 s k).trunks = s.trunks := by simp [reportS0]

@[simp] theorem reportS0_power : (reportS0 s k).power =
    { s.power with present := 0, transition := .idle, lastLeft := k, bringUp := .done } := by
  simp [reportS0]

theorem reportS0_pending {s : State} (k : BitVec 3) (h : ctlOn s = true) :
    (reportS0 s k).events.pending.getLsbD 192 = true := by
  rw [reportS0, spareGo_events]
  exact raise_pending_self 0 h (by decide)

theorem reportS0_pending_of_pending {s : State} {e : Nat} (k : BitVec 3) (h : s.events.pending.getLsbD e = true) :
    (reportS0 s k).events.pending.getLsbD e = true := by
  rw [reportS0, spareGo_events]
  exact raise_pending_of_pending _ _ h

end

/-! ### The start of an instantiation (R237) -/

section
variable (s : State) (pass : Bool)

theorem startInstantiation_pass : startInstantiation s true = startCollect s .instantiating := rfl

@[simp] theorem startInstantiation_power : (startInstantiation s pass).power = s.power := by
  cases pass <;> simp [startInstantiation, startCollect, setDrbg]

/-- Of the keys it changes the DRBG alone. -/
theorem startInstantiation_keys :
    (startInstantiation s pass).keys = { s.keys with drbg := (startInstantiation s pass).keys.drbg } := by
  cases pass <;> simp [startInstantiation, startCollect, setDrbg]

theorem startInstantiation_pending_of_pending {s : State} {e : Nat} (pass : Bool) (h : s.events.pending.getLsbD e = true) :
    (startInstantiation s pass).events.pending.getLsbD e = true := by
  cases pass
  · exact raise_pending_of_pending _ _ h
  · exact h

end

/-! ### The end of a fuse read -/

section
variable {s : State} {k : BitVec 3}

theorem instantiateThen_pass (h : Config.drbgTestsPass s.now = true) : instantiateThen s k =
    startCollect (setPower s { s.power with drbgAfterFuses := false, transition := .entropy k }) .instantiating := by
  simp [instantiateThen, h, startInstantiation_pass]

theorem instantiateThen_fail (h : Config.drbgTestsPass s.now = false) : instantiateThen s k =
    reportS0 (startInstantiation (setPower s { s.power with drbgAfterFuses := false, transition := .entropy k }) false) k := by
  simp [instantiateThen, h]

theorem instantiateThen_keys (s : State) (k : BitVec 3) :
    (instantiateThen s k).keys = { s.keys with drbg := (instantiateThen s k).keys.drbg } := by
  rcases h : Config.drbgTestsPass s.now with _ | _
  · rw [instantiateThen_fail h, reportS0_keys]
    exact startInstantiation_keys _ false
  · rw [instantiateThen_pass h]
    exact startInstantiation_keys _ true

theorem instantiateThen_pending_of_pending {e : Nat} (h : s.events.pending.getLsbD e = true) :
    (instantiateThen s k).events.pending.getLsbD e = true := by
  rcases hp : Config.drbgTestsPass s.now with _ | _
  · rw [instantiateThen_fail hp]
    exact reportS0_pending_of_pending _ (startInstantiation_pending_of_pending false h)
  · rw [instantiateThen_pass hp]
    exact h

/-- In lifecycle FAULT test mode is only reported. -/
theorem testMode_fault (h : s.keys.lifecycle = 7) :
    testMode s = raise (setPower s { s.power with tmIgnored := true, tmPending := false }) 228 0 := by
  simp [testMode, h, evTestMode]

/-- What waits for the end of the fuse read, once test mode has been seen to. -/
def goOn (s : State) : State :=
  match s.power.bringUp, s.power.transition with
  | .h5, _ => reportS0 (setFaults s { s.faults with spareStart := s.now }) 5
  | _, .fuses k => if s.power.drbgAfterFuses then instantiateThen s k else reportS0 s k
  | _, _ => s

theorem fuseEnded_eq (s : State) : fuseEnded s = goOn (if s.power.tmPending then testMode s else s) := rfl

theorem goOn_h5 (h : s.power.bringUp = .h5) : goOn s = reportS0 (setFaults s { s.faults with spareStart := s.now }) 5 := by
  simp [goOn, h]

theorem goOn_keys (s : State) : (goOn s).keys = { s.keys with drbg := (goOn s).keys.drbg } ∧
    (s.power.drbgAfterFuses = false → (goOn s).keys.drbg = s.keys.drbg) := by
  unfold goOn
  split
  · simp
  · split
    · rename_i hd
      exact ⟨instantiateThen_keys _ _, fun h => by simp [h] at hd⟩
    · simp
  · simp

theorem goOn_pending_of_pending {e : Nat} (h : s.events.pending.getLsbD e = true) :
    (goOn s).events.pending.getLsbD e = true := by
  unfold goOn
  split
  · exact reportS0_pending_of_pending _ h
  · split
    · exact instantiateThen_pending_of_pending h
    · exact reportS0_pending_of_pending _ h
  · exact h

end

/-! ### FUSE_FAULT (R95, R235) -/

/-- What FUSE_FAULT leaves of the keys. -/
def faultedKeys (k : Keys) : Keys :=
  { k with fuse := FuseLoad.default, fuseFault := true, lifecycle := 7, deviceId := 0, antiRollback := 0, drs := none }

theorem fuseFailed_eq (s : State) : fuseFailed s = raise (setKeys s (faultedKeys s.keys)) 227 0 := rfl

theorem fuseEnded_failed {s : State} (h : ctlOn s = true) :
    (fuseEnded (fuseFailed s)).keys = { faultedKeys s.keys with drbg := (fuseEnded (fuseFailed s)).keys.drbg } ∧
      (s.power.drbgAfterFuses = false → (fuseEnded (fuseFailed s)).keys.drbg = s.keys.drbg) ∧
      (fuseEnded (fuseFailed s)).events.pending.getLsbD 227 = true := by
  have hlife : (fuseFailed s).keys.lifecycle = 7 := by simp [fuseFailed_eq, faultedKeys]
  have hraised : (fuseFailed s).events.pending.getLsbD 227 = true := raise_pending_self 0 h (by decide)
  rw [fuseEnded_eq, testMode_fault hlife]
  split
  · obtain ⟨hk, hd⟩ := goOn_keys (raise (setPower (fuseFailed s)
      { (fuseFailed s).power with tmIgnored := true, tmPending := false }) 228 0)
    refine ⟨hk.trans ?_, fun h => (hd (by simpa [fuseFailed_eq] using h)).trans ?_,
      goOn_pending_of_pending (raise_pending_of_pending _ _ hraised)⟩
    · simp [fuseFailed_eq]
    · simp [fuseFailed_eq, faultedKeys]
  · obtain ⟨hk, hd⟩ := goOn_keys (fuseFailed s)
    refine ⟨hk.trans ?_, fun h => (hd (by simpa [fuseFailed_eq] using h)).trans ?_, goOn_pending_of_pending hraised⟩
    · simp [fuseFailed_eq]
    · simp [fuseFailed_eq, faultedKeys]

/-! ### A pair of reads (R94, R95) -/

section
variable {s : State}

theorem exec_fusePair (h : ctlOn s = true) (d1 : W32) (e1 : Bool) (d2 : W32) (e2 : Bool) :
    exec (.fuseRead d1 e1 (some d2) e2) s = .next (fusePair d1 e1 d2 e2 s) := by
  simp [exec, execFuseRead, h]

theorem exec_fuseMoved (h : ctlOn s = true) (d1 : W32) (e1 e2 : Bool) :
    exec (.fuseRead d1 e1 none e2) s = .next (fuseMoved s) := by
  simp [exec, execFuseRead, h]

theorem exec_fusePair_notReading (h : s.keys.fuse.running = false) (d1 : W32) (e1 : Bool) (d2 : W32) (e2 : Bool) :
    exec (.fuseRead d1 e1 (some d2) e2) s = .next s := by
  simp [exec, execFuseRead, fusePair, h]

/-- The state with another record of the fuse load. -/
def withFuse (s : State) (f : FuseLoad) : State := setKeys s { s.keys with fuse := f }

/-- The load once a word before the last has been accepted. -/
def nextWordOf (f : FuseLoad) (d : W32) (now : Nat) : FuseLoad :=
  { f with word := f.word + 1, repeated := false, since := now, image := f.image ++ [d] }

theorem acceptFuseWord_more (d : W32) (h : s.keys.fuse.word < 63) :
    acceptFuseWord s d = withFuse s (nextWordOf s.keys.fuse d s.now) := by
  have hne : s.keys.fuse.word + 1 ≠ 64 := by omega
  simp [acceptFuseWord, hne, withFuse, nextWordOf]

theorem fusePair_clean (d : W32) (h : s.keys.fuse.running = true) :
    fusePair d false d false s = acceptFuseWord (if s.keys.fuse.repeated then bump s 0x380A 6 else s) d := by
  simp [fusePair, h]

theorem fusePair_unclean {d1 d2 : W32} {e1 e2 : Bool} (h : s.keys.fuse.running = true)
    (hp : d1 ≠ d2 ∨ e1 = true ∨ e2 = true) : fusePair d1 e1 d2 e2 s =
      if s.keys.fuse.repeated then fuseEnded (fuseFailed s)
      else setKeys s { s.keys with fuse := { s.keys.fuse with repeated := true, since := s.now } } := by
  have hc : ¬(d1 = d2 ∧ e1 = false ∧ e2 = false) := by
    rintro ⟨rfl, rfl, rfl⟩; simp at hp
  simp [fusePair, h, hc]

theorem exec_fuseTimeout_reading (h : s.keys.fuse.running = true) : exec .fuseTimeout s =
    .next (if ctlOn s && elapsed s s.keys.fuse.since (ctlCycles 4096) then fuseEnded (fuseFailed s) else s) := by
  simp [exec, execFuseTimeout, h]

theorem exec_fuseTimeout_drain {c : Nat} (h : s.keys.fuse.running = false) (hd : s.keys.fuse.drain = some c) :
    exec .fuseTimeout s = .next (if ctlOn s && elapsed s c (ctlCycles 4096) then fuseFailed s else s) := by
  simp [exec, execFuseTimeout, h, hd]

theorem exec_fuseTimeout_idle (h : s.keys.fuse.running = false) (hd : s.keys.fuse.drain = none) :
    exec .fuseTimeout s = .next s := by
  simp [exec, execFuseTimeout, h, hd]

end

/-- Settles O21: by the two reads of a word, and by the cycle of the last edge. -/
theorem fuseWordsAreReadTwice : Obligations.FuseWordsAreReadTwice := by
  refine ⟨fun d s hr hc hw => ?clean, fun d1 d2 e1 e2 s hr hc hp => ⟨fun h => ?repeats, fun h => ?fails⟩,
    fun s hr hc hl => ?late, fun c s hr hc hd hl => ?lateDrain, fun s h => ?notDue,
    fun s d1 e1 d2 e2 hr => exec_fusePair_notReading hr d1 e1 d2 e2, fun s d1 e1 e2 hc => ⟨fun hr => ?moved, fun hr => ?drained⟩⟩
  case clean =>
    rw [exec_fusePair hc, fusePair_clean d hr]
    split
    · rw [acceptFuseWord_more d (by exact hw)]
      exact ⟨_, rfl, rfl, rfl, ctr_bump_same s 0x380A 6⟩
    · rw [acceptFuseWord_more d hw]
      exact ⟨_, rfl, rfl, rfl, rfl⟩
  case repeats => rw [exec_fusePair hc, fusePair_unclean hr hp, h]; rfl
  case fails =>
    rw [exec_fusePair hc, fusePair_unclean hr hp, h]
    exact ⟨_, rfl, fuseEnded_failed hc⟩
  case late =>
    rw [exec_fuseTimeout_reading hr, hc, hl]
    exact ⟨_, rfl, fuseEnded_failed hc⟩
  case lateDrain => rw [exec_fuseTimeout_drain hr hd, hc, hl]; rfl
  case notDue =>
    rcases h with ⟨hr, hl⟩ | ⟨hr, hd⟩
    · simp [exec_fuseTimeout_reading hr, hl]
    · rcases hdrain : s.keys.fuse.drain with _ | c
      · exact exec_fuseTimeout_idle hr hdrain
      · simp [exec_fuseTimeout_drain hr hdrain, hd c hdrain]
  case moved => simp [exec_fuseMoved hc, fuseMoved, hr]
  case drained => simp [exec_fuseMoved hc, fuseMoved, hr]

/-! ### A whole image (R95, R234, R236) -/

/-- An equal clean pair for each of some words. -/
def cleanReads (l : List W32) : List Instr := l.map (fun d => .fuseRead d false (some d) false)

theorem runAll_append_next {a b : List Instr} {s t : State} (h : runAll a s = .next t) : runAll (a ++ b) s = runAll b t := by
  induction a generalizing s with
  | nil => cases h; rfl
  | cons c a ih =>
    obtain ⟨u, hu, -⟩ := exec_completes c s
    rw [List.cons_append, runAll_cons hu]
    exact ih (runAll_cons hu ▸ h)

/-- The load once some words before the last have been accepted. -/
def wordsTaken (f : FuseLoad) (l : List W32) (since : Nat) : FuseLoad :=
  { f with word := f.word + l.length, since := since, image := f.image ++ l }

/-- Words that all come clean before the last join the image. -/
theorem runAll_cleanReads {s : State} (l : List W32) (hr : s.keys.fuse.running = true) (hp : s.keys.fuse.repeated = false)
    (hc : ctlOn s = true) (hl : s.keys.fuse.word + l.length ≤ 63) :
    ∃ c, runAll (cleanReads l) s = .next (withFuse s (wordsTaken s.keys.fuse l c)) := by
  induction l generalizing s with
  | nil => exact ⟨s.keys.fuse.since, by simp [cleanReads, runAll, wordsTaken, withFuse, setKeys]⟩
  | cons d l ih =>
    rw [List.length_cons] at hl
    have first : exec (.fuseRead d false (some d) false) s = .next (withFuse s (nextWordOf s.keys.fuse d s.now)) := by
      rw [exec_fusePair hc, fusePair_clean d hr, hp, if_neg Bool.false_ne_true, acceptFuseWord_more d (by omega)]
    obtain ⟨c, rest⟩ := ih (s := withFuse s (nextWordOf s.keys.fuse d s.now)) hr rfl hc
      (by simp only [withFuse, setKeys_keys, nextWordOf]; omega)
    refine ⟨c, (runAll_cons first).trans (rest.trans ?_)⟩
    simp [withFuse, setKeys, wordsTaken, nextWordOf, hp, Nat.add_comm 1, Nat.add_assoc]

/-- The last of sixty-four clean words ends the read with the whole image. -/
theorem runAll_cleanImage {s : State} {c : Nat} {words : List W32} {last : W32} (hw : words.length = 63)
    (hf : s.keys.fuse = { FuseLoad.default with running := true, since := c }) (hc : ctlOn s = true) :
    ∃ f, runAll (cleanReads (words ++ [last])) s = .next (fuseEnded (loadImage (withFuse s f) (words ++ [last]))) := by
  obtain ⟨c', first⟩ := runAll_cleanReads words (by rw [hf]) (by rw [hf]; rfl) hc (by rw [hf, hw]; exact Nat.le_refl 63)
  refine ⟨wordsTaken s.keys.fuse words c', ?_⟩
  rw [cleanReads, List.map_append]
  refine (runAll_append_next first).trans (runAll_cons ?_)
  have hword : (withFuse s (wordsTaken s.keys.fuse words c')).keys.fuse.word = 63 := by
    simp [withFuse, wordsTaken, hf, hw, FuseLoad.default]
  have himage : (withFuse s (wordsTaken s.keys.fuse words c')).keys.fuse.image = words := by
    simp [withFuse, wordsTaken, hf, FuseLoad.default]
  have hrep : (withFuse s (wordsTaken s.keys.fuse words c')).keys.fuse.repeated = false := by
    simp [withFuse, wordsTaken, hf, FuseLoad.default]
  rw [exec_fusePair (by exact hc), fusePair_clean last (by simp [withFuse, wordsTaken, hf]), hrep, if_neg Bool.false_ne_true,
    acceptFuseWord, hword, himage, if_pos rfl]

/-- What an image in PROVISIONED or MISSION leaves of the keys. -/
def imageKeys (k : Keys) (image : List W32) (now : Nat) : Keys :=
  { k with fuse := { FuseLoad.default with drain := some now }, fuseLoaded := true, lifecycle := lifecycleOf (image.getD 11 0)
           deviceId := BitVec.ofNat 64 (fuseNumber image 9 2), antiRollback := fuseBits image 13 2
           drs := some (BitVec.ofNat 256 (fuseNumber image 0 8)) }

theorem loadImage_loads {s : State} {image : List W32} (hlife : lifecycleOf (image.getD 11 0) = 2 ∨ lifecycleOf (image.getD 11 0) = 3)
    (hlo : 64 ≤ fuseBits image 0 8) (hhi : fuseBits image 0 8 ≤ 192) (ht : s.power.tmHonoured = false) :
    loadImage s image = setKeys s (imageKeys s.keys image s.now) := by
  have hbal : ¬(fuseBits image 0 8 < 64 ∨ 192 < fuseBits image 0 8) := by omega
  have hend : ¬(lifecycleOf (image.getD 11 0) = 4 ∨ lifecycleOf (image.getD 11 0) = 5 ∨ lifecycleOf (image.getD 11 0) = 6) := by
    rcases hlife with h | h <;> rw [h] <;> decide
  simp only [loadImage, hbal, and_false, if_false, hend, hlife, ht, Bool.not_false, and_self, if_true]
  rfl

theorem take_two_drop {α : Type} {l : List α} (d : α) {i : Nat} (h : i + 1 < l.length) :
    (l.drop i).take 2 = [l.getD i d, l.getD (i + 1) d] := by
  rw [List.getD_eq_getElem l d h, List.getD_eq_getElem l d (by omega), List.drop_eq_getElem_cons (by omega),
    List.drop_eq_getElem_cons h]
  rfl

theorem fuseNumber_two {image : List W32} {i : Nat} (h : i + 1 < image.length) :
    fuseNumber image i 2 = (image.getD i 0).toNat * 2 ^ 32 + (image.getD (i + 1) 0).toNat := by
  simp only [fuseNumber, take_two_drop 0 h, List.foldl_cons, List.foldl_nil]
  omega

theorem fuseBits_two {image : List W32} {i : Nat} (h : i + 1 < image.length) :
    fuseBits image i 2 = popCount (image.getD i 0) 32 + popCount (image.getD (i + 1) 0) 32 := by
  simp only [fuseBits, take_two_drop 0 h, List.foldl_cons, List.foldl_nil]
  omega

/-- Settles O22: sixty-three words join the image, and the last one loads it and ends H5. -/
theorem aWholeImageIsLoaded : Obligations.AWholeImageIsLoaded := by
  intro image c s hlen hf hc hup htm hth hlife hlo hhi
  obtain ⟨words, last, rfl⟩ : ∃ words last, image = words ++ [last] :=
    ⟨image.dropLast, image.getLast (by rintro rfl; simp at hlen), (List.dropLast_append_getLast _).symm⟩
  obtain ⟨f, run⟩ := runAll_cleanImage (last := last) (by simpa using hlen) hf hc
  have hpower : (withFuse s f).power = s.power := rfl
  rw [loadImage_loads hlife hlo hhi (by exact hth), fuseEnded_eq, setKeys_power, hpower, htm, if_neg Bool.false_ne_true,
    goOn_h5 (by exact hup)] at run
  refine ⟨_, run, ?_⟩
  simp only [reportS0_keys, reportS0_power, setFaults_keys, setKeys_keys]
  refine ⟨rfl, rfl, rfl, ?id, ?roll, rfl, trivial, trivial, trivial, trivial, reportS0_pending _ (by exact hc)⟩
  case id => exact congrArg (BitVec.ofNat 64) (fuseNumber_two (by omega))
  case roll => exact fuseBits_two (by omega)

/-! ### Zeroized slots (R224) -/

/-- The slot holds nothing: EMPTY, or out of use. -/
def Vacant (x : KeySlot) : Prop := x.state = .empty ∨ x.state = .retired

theorem bankZeroed_vacant {r : Bool} {n : Nat} (x : KeySlot) (h : decide (n ≥ 2 ^ 15) = r) : Vacant (bankZeroed r (n, x)).2 := by
  unfold bankZeroed
  split
  · exact .inl rfl
  · rename_i hc
    simp only [h, true_and, ne_eq, not_and, not_not] at hc
    exact or_iff_not_imp_right.2 hc

theorem bankZeroed_of_vacant {r : Bool} {n : Nat} {x : KeySlot} (h : Vacant x) : (bankZeroed r (n, x)).2 = x := by
  unfold bankZeroed
  rw [if_neg]
  rintro ⟨-, hr, he⟩
  exact h.elim he hr

theorem spGet_zeroizeSlots (m : Sparse KeySlot) (r : Bool) (n : Nat) :
    spGet slotDefault (zeroizeSlots m r) n = (bankZeroed r (n, spGet slotDefault m n)).2 := by
  induction m with
  | nil => rw [bankZeroed_of_vacant (.inl rfl)]; rfl
  | cons e m ih =>
    obtain ⟨k, w⟩ := e
    change spGet slotDefault (spSet slotDefault (zeroizeSlots m r) k (bankZeroed r (k, w)).2) n = _
    by_cases hk : k = n
    · subst hk
      rw [spGet_spSet_same]
      simp [spGet, spFind]
    · rw [spGet_spSet_ne _ _ _ _ _ (Ne.symm hk), ih]
      simp [spGet, spFind, hk]

theorem slotOf_setSlot_ne {s : State} {k j : W16} {x : KeySlot} (h : j ≠ k) : slotOf (setSlot s k x) j = slotOf s j :=
  spGet_spSet_ne _ _ _ _ _ fun e => h (BitVec.eq_of_toNat_eq e)

/-- Only a STAGED slot returns to its state before. -/
theorem slotOf_unstage {s : State} {j : W16} (k : W16) (h : Vacant (slotOf s j)) : slotOf (unstage s k) j = slotOf s j := by
  unfold unstage
  dsimp only
  split
  · rename_i hk
    refine slotOf_setSlot_ne ?_
    rintro rfl
    rcases h with h | h <;> rw [h] at hk <;> cases hk
  · rfl

theorem slotOf_foldl_unstage {s : State} {j : W16} (f : Nat → W16) (l : List Nat) (h : Vacant (slotOf s j)) :
    slotOf (l.foldl (fun s i => unstage s (f i)) s) j = slotOf s j := by
  induction l generalizing s with
  | nil => rfl
  | cons i l ih =>
    have first := slotOf_unstage (f i) h
    rw [List.foldl_cons, ih (first ▸ h), first]

theorem slotOf_abortStaging {s : State} {j : W16} (c : BitVec 4) (h : Vacant (slotOf s j)) :
    slotOf (abortStaging s c) j = slotOf s j := by
  unfold abortStaging
  split
  · rfl
  · exact slotOf_unstage _ h

theorem slotOf_endBatch {s : State} {j : W16} (c : BitVec 4) (h : Vacant (slotOf s j)) :
    slotOf (endBatch s c) j = slotOf s j := by
  unfold endBatch
  split
  · rfl
  · exact slotOf_foldl_unstage _ _ h

/-- In the zeroized bank, and where nothing was held before, no slot holds anything. -/
theorem zeroizeBank_vacant {s : State} {r : Bool} {k : W16} (h : decide (k.toNat ≥ 2 ^ 15) = r ∨ Vacant (slotOf s k)) :
    Vacant (slotOf (zeroizeBank s r) k) := by
  have hz : Vacant (spGet slotDefault (zeroizeSlots s.keys.slots r) k.toNat) := by
    rw [spGet_zeroizeSlots]
    rcases h with h | h
    · exact bankZeroed_vacant _ h
    · exact (bankZeroed_of_vacant h).symm ▸ h
  have ha := slotOf_abortStaging (s := setKeys s { s.keys with
    slots := zeroizeSlots s.keys.slots r, before := slotsBefore s, copies := if r then [] else s.keys.copies }) 13 hz
  rw [zeroizeBank, slotOf_endBatch 13 (ha ▸ hz), ha]
  exact hz

theorem zeroizeBanks_vacant (s : State) (k : W16) : Vacant (slotOf (zeroizeBank (zeroizeBank s false) true) k) := by
  rcases hk : decide (k.toNat ≥ 2 ^ 15) with _ | _
  · exact zeroizeBank_vacant (.inr (zeroizeBank_vacant (.inl hk)))
  · exact zeroizeBank_vacant (.inl hk)

theorem unstage_staging (s : State) (k : W16) : (unstage s k).keys.staging = s.keys.staging := by
  unfold unstage
  dsimp only
  split <;> rfl

theorem abortStaging_staging (s : State) (c : BitVec 4) : (abortStaging s c).keys.staging = none := by
  unfold abortStaging
  split
  · assumption
  · rfl

theorem foldl_unstage_staging (f : Nat → W16) (l : List Nat) (s : State) :
    (l.foldl (fun s i => unstage s (f i)) s).keys.staging = s.keys.staging := by
  induction l generalizing s with
  | nil => rfl
  | cons i l ih => rw [List.foldl_cons, ih, unstage_staging]

theorem endBatch_staging (s : State) (c : BitVec 4) : (endBatch s c).keys.staging = s.keys.staging := by
  unfold endBatch
  split
  · rfl
  · exact foldl_unstage_staging _ _ s

theorem endBatch_batch (s : State) (c : BitVec 4) : (endBatch s c).keys.batch = none := by
  unfold endBatch
  split
  · assumption
  · rfl

theorem zeroizeBank_ends (s : State) (r : Bool) :
    (zeroizeBank s r).keys.staging = none ∧ (zeroizeBank s r).keys.batch = none :=
  ⟨(endBatch_staging _ _).trans (abortStaging_staging _ _), endBatch_batch _ _⟩

/-! ### Test mode (R105, R487) -/

theorem clearDrs_keys (s : State) : (clearDrs s).keys = { s.keys with drs := none, kAt := none, kDr := none } := by
  unfold clearDrs endSession abandonRequest
  split <;> split <;> rfl

theorem enterTest_keys (s : State) : (enterTest s).keys =
    { (zeroizeBank (zeroizeBank s false) true).keys with drs := none, kAt := none, kDr := none, drbg := Drbg.default } := by
  simp [enterTest, attestTestMode, clearDrs_keys]

theorem enterTest_power (s : State) :
    (enterTest s).power = { s.power with tmHonoured := true, tmPending := false } := by
  simp [enterTest]

theorem enterTest_signKey (s : State) : (enterTest s).attest.signKey = none := by
  simp [enterTest, attestTestMode, Attest.default]

theorem enterTest_vacant (s : State) (k : W16) : Vacant (slotOf (enterTest s) k) := by
  have h := zeroizeBanks_vacant s k
  simpa only [slotOf, enterTest_keys] using h

section
variable {s : State}

theorem exec_testMode_honoured (h : s.power.tmHonoured = true) : exec .testModeEntry s = .next s := by
  simp [exec, execTestModeEntry, h]

theorem exec_testMode_known (h : s.power.tmHonoured = false) (hb : s.power.bringUp = .done) (ht : s.power.transition = .idle)
    (hf : s.keys.fuse.running = false) (hc : ctlOn s = true) : exec .testModeEntry s = .next (testMode s) := by
  simp [exec, execTestModeEntry, h, hb, ht, hf, hc]

theorem exec_testMode_waits (h : s.power.tmHonoured = false)
    (hw : s.power.transition = .idle ∧ (s.power.bringUp ≠ .done ∨ s.keys.fuse.running = true) ∨ ∃ k, s.power.transition = .fuses k) :
    exec .testModeEntry s = .next (setPower s { s.power with tmPending := true }) := by
  rcases hw with ⟨ht, hb | hf⟩ | ⟨k, ht⟩
  · simp [exec, execTestModeEntry, h, ht, hb]
  · simp [exec, execTestModeEntry, h, ht, hf]
  · simp [exec, execTestModeEntry, h, ht]

end

/-- Settles O23: by whether the lifecycle state is known, and which it is. -/
theorem testModeZeroizesOrIsIgnored : Obligations.TestModeZeroizesOrIsIgnored := by
  refine fun s => ⟨exec_testMode_honoured, fun h hb ht hf hc => ⟨fun hl => ?zeroizes, fun h0 h1 h4 => ?ignored⟩,
    exec_testMode_waits⟩
  case zeroizes =>
    obtain ⟨hs, hb'⟩ := zeroizeBank_ends (zeroizeBank s false) true
    refine ⟨enterTest s, ?_, enterTest_power s, enterTest_vacant s, ?_, ?_, ?_, enterTest_signKey s, ?_, ?_, ?_⟩
    · rw [exec_testMode_known h hb ht hf hc, testMode, if_pos hl]
    all_goals rw [enterTest_keys]
    · exact hs
    · exact hb'
  case ignored =>
    rw [exec_testMode_known h hb ht hf hc, testMode, if_neg (by rintro (h | h | h) <;> contradiction)]
    rfl

end Sys2Proof.Machine

/-! PROOF. The end of an exit from S4: what pwr_ack leaves of the contexts (R414, R441, Table 12.3). -/

namespace Sys2Proof.Machine

/-- Waking from S3 or S4 leaves of the contexts what the losses of the stay leave. -/
theorem wakeDomains_contexts {k : BitVec 3} (s : State) (h : 3 ≤ k.toNat) :
    (wakeDomains s k).contexts = (losses s k.toNat).contexts := by
  simp only [wakeDomains, if_pos h, startFuse_contexts, evaluateRetention_contexts, setPower_contexts, releaseDomains_contexts]

/-- The power record once a pwr_ack value that equals pwr_req has been seen (R98, R410). -/
def ackSeenPower (s : State) : Power :=
  { s.power with
    pwrAck := s.power.pwrReq, ackSeen := true
    monitorFrom := if 4 ≤ s.power.pwrAck.toNat ∧ s.power.pwrReq = 0 then some s.now else s.power.monitorFrom }

theorem ackPower_exiting {s : State} {k : BitVec 3} (hb : s.power.bringUp = .done) (ht : s.power.transition = .exiting k)
    (hr : s.power.pwrReq = 0) (hl : s.power.clockLost = false) :
    ackPower s = wakeDomains (setPower s (ackSeenPower s)) k := by
  simp [ackPower, ackSeenPower, hb, ht, hr, hl]

theorem exec_powerAck_req (s : State) : exec (.powerAck s.power.pwrReq) s = .next (ackPower s) := by
  simp [exec, execPowerAck]

/-- The engine leaves S4; context 0 stands on a row of the Context Store that has been retired. -/
def leavingS4WithRetiredContext : State :=
  { State.reset with
    power := { Power.default with bringUp := .done, dividerLock := true, present := 4, transition := .exiting 4, pwrAck := 4 }
    faults := { Faults.default with retired := [(2 * 2 ^ 32, true)] } }

/-- The retirement mark outlasts the content of the Context Store (R441), so its context is still on record after the exit. -/
theorem exit_leavingS4WithRetiredContext {t : State} (ht : exec (.powerAck 0) leavingS4WithRetiredContext = .next t) :
    t.contexts ≠ [] := by
  have hrun := exec_powerAck_req leavingS4WithRetiredContext
  rw [ackPower_exiting rfl rfl rfl rfl] at hrun
  injection ht.symm.trans hrun with ht
  rw [ht, wakeDomains_contexts _ (by decide)]
  decide +kernel

/-- Refutes O27: the exit from S4 marks a retired context again, so the contexts are not empty. -/
theorem not_powerAckEstablishesTheState : ¬ Obligations.PowerAckEstablishesTheState := by
  rintro ⟨-, -, -, -, -, leaves, -⟩
  obtain ⟨t, ht, -, -, -, -, -, hempty⟩ := leaves 4 leavingS4WithRetiredContext rfl rfl (.inr rfl) rfl rfl
  exact exit_leavingS4WithRetiredContext ht (hempty rfl)

end Sys2Proof.Machine

/-! PROOF. Wake frames: the words of one on wake_fr_, and the tests of its decision in their order (R91, R422 to R426). -/

namespace Sys2Proof.Machine

/-! ### What a wake decision leaves (R418, R419) -/

section
variable (s : State)

@[simp] theorem stopListening_regs : (stopListening s).regs = s.regs := rfl

theorem driveReq_frame (v : BitVec 3) : driveReq s v = { s with power := (driveReq s v).power } := by
  unfold driveReq; split <;> rfl

theorem driveReq_power (v : BitVec 3) : (driveReq s v).power = { s.power with
    pwrReq := (driveReq s v).power.pwrReq, handshakeStart := (driveReq s v).power.handshakeStart
    handshakeRaised := (driveReq s v).power.handshakeRaised } := by
  unfold driveReq; split <;> rfl

/-- The start of an exit touches the power ladder, and counts the frames dropped. -/
theorem startExit_frame (k : BitVec 3) : startExit s k =
    { s with power := (startExit s k).power, ctrs := (bumpBy s 0x2101 8 s.power.wakeHeld.length).ctrs } := by
  rw [startExit, driveReq_frame]; rfl

theorem startExit_power (k : BitVec 3) : (startExit s k).power = { s.power with
    transition := .exiting k, wakeDue := false, wakeHeld := [], wakeFrReady := false, pwrReq := (startExit s k).power.pwrReq
    handshakeStart := (startExit s k).power.handshakeStart, handshakeRaised := (startExit s k).power.handshakeRaised } := by
  rw [startExit, driveReq_power]; rfl

/-- A cause may start an exit, which counts the frames dropped; it leaves all else but the power ladder. -/
theorem latchCause_frame (b lo hi : Nat) : latchCause s b lo hi =
    { s with power := (latchCause s b lo hi).power, ctrs := (latchCause s b lo hi).ctrs } := by
  unfold latchCause
  dsimp only
  split
  · rfl
  · split
    · rw [startExit_frame]; rfl
    · rfl
    · rfl

theorem ctr_startExit {i j : Nat} (k : BitVec 3) (h : oa i j ≠ oa 0x2101 8) : ctr (startExit s k) i j = ctr s i j := by
  rw [ctr, startExit_frame]
  exact ctr_bumpBy_ne s _ _ _ _ _ h

theorem ctr_latchCause {i j : Nat} (b lo hi : Nat) (h : oa i j ≠ oa 0x2101 8) : ctr (latchCause s b lo hi) i j = ctr s i j := by
  unfold latchCause
  dsimp only
  split
  · rfl
  · split
    · exact ctr_startExit _ _ h
    · rfl
    · rfl

theorem latchCause_wakeFields (b lo hi : Nat) : (latchCause s b lo hi).power.tokens = s.power.tokens ∧
    (latchCause s b lo hi).power.wakeLast = s.power.wakeLast := by
  unfold latchCause
  dsimp only
  split
  · exact ⟨rfl, rfl⟩
  · split
    · rw [startExit_power]; exact ⟨rfl, rfl⟩
    · exact ⟨rfl, rfl⟩
    · exact ⟨rfl, rfl⟩

/-- In a state where the cause counts it is latched, and the exit starts. -/
theorem latchCause_starts {s : State} {b lo hi : Nat} (hb : b < 32) (hd : s.power.bringUp = .done) (ha : s.power.aonFault = false)
    (ht : s.power.transition = .idle) (hlo : lo ≤ s.power.present.toNat) (hhi : s.power.present.toNat ≤ hi) :
    (latchCause s b lo hi).power.wakeCause.getLsbD b = true ∧
      (latchCause s b lo hi).power.transition = .exiting s.power.present := by
  have hcounts : latchCause s b lo hi =
      startExit (setPower s { s.power with wakeCause := setBit s.power.wakeCause b true }) s.power.present := by
    simp [latchCause, wakeState, ht, ha, hd, Nat.not_lt.2 hlo, Nat.not_lt.2 hhi]
  rw [hcounts, startExit_power]
  exact ⟨getLsbD_setBit_true _ hb, rfl⟩

end

/-! ### The decision on a frame (R424) -/

section
variable {s : State} {f : Bytes}

theorem decideWake_badFormat (h : wakeFormatOk s f = false) : decideWake s f = bump s 0x2101 3 := by
  simp [decideWake, h]

theorem wakeFormatOk_source (h : wakeFormatOk s f = true) : (byteAt f 15).toNat < 16 := by
  simp only [wakeFormatOk, Bool.and_eq_true, decide_eq_true_eq] at h
  exact h.1.2

section
variable (hf : wakeFormatOk s f = true)
include hf

theorem decideWake_stale (h : beNat (slice f 16 8) ≤ regN s 0x2100 (0x0A + (byteAt f 15).toNat)) :
    decideWake s f = bump s 0x2101 4 := by
  simp [decideWake, hf, h]

variable (hc : regN s 0x2100 (0x0A + (byteAt f 15).toNat) < beNat (slice f 16 8))
include hc

theorem decideWake_noKey (h : wakeKeyUsable s = false) : decideWake s f = bump s 0x2101 5 := by
  simp [decideWake, hf, Nat.not_le.2 hc, h]

variable (hk : wakeKeyUsable s = true)
include hk

theorem decideWake_noToken (h : s.power.tokens = 0) : decideWake s f = bump s 0x2101 6 := by
  simp [decideWake, hf, Nat.not_le.2 hc, hk, h]

variable (ht : 1 ≤ s.power.tokens)
include ht

theorem decideWake_wrongTag (h : wakeTag s f ≠ slice f 32 8) : decideWake s f =
    raise (bump (setPower s { s.power with tokens := s.power.tokens - 1 }) 0x2101 7) 196 (byteAt f 15).toNat := by
  simp [decideWake, hf, Nat.not_le.2 hc, hk, Nat.one_le_iff_ne_zero.1 ht, h, evWakeAuthFail]

theorem decideWake_accepts (h : wakeTag s f = slice f 32 8) :
    decideWake s f = acceptWake (setPower s { s.power with tokens := s.power.tokens - 1 }) f := by
  simp [decideWake, hf, Nat.not_le.2 hc, hk, Nat.one_le_iff_ne_zero.1 ht, h]

end
end

/-! ### An accepted frame (R425) -/

/-- The floor, wake_last and the count of an accepted frame, before its cause. -/
def noteWake (s : State) (f : Bytes) : State :=
  bump (setPower (setReg s 0x2100 (0x0A + (byteAt f 15).toNat) (BitVec.ofNat 64 (beNat (slice f 16 8))))
    { s.power with wakeLast := BitVec.ofNat 8 (byteAt f 15).toNat :: zeros 7 ++ slice f 24 8 }) 0x2101 9

theorem acceptWake_eq (s : State) (f : Bytes) :
    acceptWake s f = if wakeEnabled (noteWake s f) 8 then latchCause (noteWake s f) 4 1 4 else noteWake s f := rfl

theorem wakeEnabled_noteWake {s : State} {f : Bytes} (b : Nat) (h : (byteAt f 15).toNat < 16) :
    wakeEnabled (noteWake s f) b = wakeEnabled s b := by
  refine congrArg (fun w => bit w b) (reg_setReg_ne s _ _ 0x2100 4 _ ?_)
  simp only [oa]; omega

theorem acceptWake_count (s : State) (f : Bytes) : ctr (acceptWake s f) 0x2101 9 = satAdd64 (ctr s 0x2101 9) 1 := by
  have hnoted : ctr (noteWake s f) 0x2101 9 = satAdd64 (ctr s 0x2101 9) 1 := ctr_bump_same _ _ _
  rw [acceptWake_eq]
  split
  · rw [ctr_latchCause _ _ _ _ (by decide), hnoted]
  · exact hnoted

theorem acceptWake_floor (s : State) (f : Bytes) :
    regN (acceptWake s f) 0x2100 (0x0A + (byteAt f 15).toNat) = beNat (slice f 16 8) := by
  have hfit : beNat (slice f 16 8) < 2 ^ 64 := by
    have hlen : (slice f 16 8).length ≤ 8 := List.length_take_le _ _
    exact (beNat_lt _).trans_le ((Nat.pow_le_pow_right (by decide) hlen).trans (by decide))
  have hregs : (acceptWake s f).regs = (noteWake s f).regs := by
    rw [acceptWake_eq]
    split
    · rw [latchCause_frame]
    · rfl
  have hreg : reg (acceptWake s f) 0x2100 (0x0A + (byteAt f 15).toNat) = BitVec.ofNat 64 (beNat (slice f 16 8)) := by
    rw [reg, hregs]
    exact reg_setReg_same s _ _ _
  rw [regN, hreg, BitVec.toNat_ofNat, Nat.mod_eq_of_lt hfit]

theorem acceptWake_fields (s : State) (f : Bytes) : (acceptWake s f).power.tokens = s.power.tokens ∧
    (acceptWake s f).power.wakeLast = BitVec.ofNat 8 (byteAt f 15).toNat :: zeros 7 ++ slice f 24 8 := by
  rw [acceptWake_eq]
  split
  · obtain ⟨ht, hl⟩ := latchCause_wakeFields (noteWake s f) 4 1 4
    exact ⟨ht, hl⟩
  · exact ⟨rfl, rfl⟩

theorem acceptWake_wakes {s : State} {f : Bytes} (hsrc : (byteAt f 15).toNat < 16) (he : wakeEnabled s 8 = true)
    (hd : s.power.bringUp = .done) (ha : s.power.aonFault = false) (ht : s.power.transition = .idle)
    (hlo : 1 ≤ s.power.present.toNat) (hhi : s.power.present.toNat ≤ 4) :
    (acceptWake s f).power.wakeCause.getLsbD 4 = true ∧ (acceptWake s f).power.transition = .exiting s.power.present := by
  rw [acceptWake_eq, wakeEnabled_noteWake 8 hsrc, if_pos he]
  exact latchCause_starts (by decide) hd ha ht hlo hhi

/-! ### The words of a frame (R91, R424) -/

/-- A word that is not the last leaves the frame open. -/
theorem extendWake_open {w : MsgWord} (h : w.last = false) (s : State) (ws : List MsgWord) :
    extendWake s ws w = (s, .frame (ws ++ [w])) := by
  simp [extendWake, h]

section
variable {s : State}

theorem foldl_takeWakeWord_deaf (h : s.power.wakeFrReady = false) (ws : List MsgWord) :
    ws.foldl takeWakeWord (s, .none) = (s, .none) := by
  induction ws with
  | nil => rfl
  | cons w ws ih => rw [List.foldl_cons, takeWakeWord]; simpa [h] using ih

variable (h : s.power.wakeFrReady = true)
include h

theorem takeWakeWord_first {w : MsgWord} (hf : w.first = true) : takeWakeWord (s, .none) w = extendWake s [] w := by
  simp [takeWakeWord, h, hf, countBroken]

theorem takeWakeWord_frame {w : MsgWord} (ws : List MsgWord) (hf : w.first = false) :
    takeWakeWord (s, .frame ws) w = extendWake s ws w := by
  simp [takeWakeWord, h, hf]

theorem takeWakeWord_headless {w : MsgWord} {r : WakeRun} (hr : r = .none ∨ r = .headless) (hf : w.first = false) :
    takeWakeWord (s, r) w = if w.last then (bump s 0x2101 3, .none) else (s, .headless) := by
  rcases hr with rfl | rfl <;> simp [takeWakeWord, h, hf]

/-- Words without a first word are a broken run, ended by a last word or by the end of the words. -/
theorem foldl_takeWakeWord_headless {ws : List MsgWord} {w : MsgWord} {r : WakeRun} (hr : r = .none ∨ r = .headless)
    (hws : ∀ x ∈ ws, x.first = false ∧ x.last = false) (hf : w.first = false) :
    (ws ++ [w]).foldl takeWakeWord (s, r) = if w.last then (bump s 0x2101 3, .none) else (s, .headless) := by
  induction ws generalizing r with
  | nil => exact takeWakeWord_headless h hr hf
  | cons x ws ih =>
    obtain ⟨hxf, hxl⟩ := hws x (by simp)
    rw [List.cons_append, List.foldl_cons, takeWakeWord_headless h hr hxf, hxl]
    exact ih (.inr rfl) fun y hy => hws y (by simp [hy])

/-- The words after the first extend the open frame; the last one completes it. -/
theorem foldl_takeWakeWord_frame {open_ ws : List MsgWord} {w : MsgWord} (hws : ∀ x ∈ ws, x.first = false ∧ x.last = false)
    (hf : w.first = false) :
    (ws ++ [w]).foldl takeWakeWord (s, .frame open_) = extendWake s (open_ ++ ws) w := by
  induction ws generalizing open_ with
  | nil => rw [List.append_nil]; exact takeWakeWord_frame h open_ hf
  | cons x ws ih =>
    obtain ⟨hxf, hxl⟩ := hws x (by simp)
    rw [List.cons_append, List.foldl_cons, takeWakeWord_frame h open_ hxf, extendWake_open hxl,
      ih fun y hy => hws y (by simp [hy]), List.append_assoc, List.singleton_append]

end

/-- A word is marked first exactly at the head of the words, and last exactly at their end. -/
def WellFramed (ws : List MsgWord) : Prop :=
  ∀ i w, ws[i]? = some w → w.first = decide (i = 0) ∧ w.last = decide (i + 1 = ws.length)

theorem WellFramed.parts {ws : List MsgWord} {w : MsgWord} (h : WellFramed (ws ++ [w])) :
    w.first = decide (ws = []) ∧ w.last = true ∧ (∀ x ∈ ws, x.last = false) ∧ ∀ x ∈ ws.tail, x.first = false := by
  obtain ⟨hf, hl⟩ := h ws.length w (by simp)
  refine ⟨by simpa using hf, by simpa using hl, fun x hx => ?_, fun x hx => ?_⟩
  · obtain ⟨i, hi, rfl⟩ := List.getElem_of_mem hx
    obtain ⟨-, hlast⟩ := h i ws[i] (by rw [List.getElem?_append_left hi, List.getElem?_eq_getElem hi])
    rw [hlast]; simp; omega
  · obtain ⟨i, hi, rfl⟩ := List.getElem_of_mem hx
    rw [List.getElem_tail]
    rw [List.length_tail] at hi
    obtain ⟨hfirst, -⟩ := h (i + 1) ws[i + 1] (by rw [List.getElem?_append_left (by omega), List.getElem?_eq_getElem])
    simpa using hfirst

/-- Well-framed words are one frame. -/
theorem foldl_takeWakeWord_wellFramed {s : State} {ws : List MsgWord} {w : MsgWord} (hr : s.power.wakeFrReady = true)
    (h : WellFramed (ws ++ [w])) : (ws ++ [w]).foldl takeWakeWord (s, .none) = extendWake s ws w := by
  obtain ⟨hf, -, hlast, hfirst⟩ := h.parts
  cases ws with
  | nil => exact takeWakeWord_first hr hf
  | cons x ws =>
    have hrest : ∀ y ∈ ws, y.first = false ∧ y.last = false :=
      fun y hy => ⟨hfirst y hy, hlast y (List.mem_cons_of_mem x hy)⟩
    have hx : x.first = true := by simpa using (h 0 x rfl).1
    rw [List.cons_append, List.foldl_cons, takeWakeWord_first hr hx, extendWake_open (hlast x (by simp)),
      foldl_takeWakeWord_frame hr hrest (by simpa using hf)]
    rfl

theorem exec_wakeFrame_deaf {s : State} (h : s.power.wakeFrReady = false) (ws : List MsgWord) :
    exec (.wakeFrame ws) s = .next s := by
  simp [exec, execWakeFrame, foldl_takeWakeWord_deaf h, h]

theorem exec_wakeFrame_headless {s : State} {ws : List MsgWord} {w : MsgWord} (h : s.power.wakeFrReady = true)
    (hws : ∀ x ∈ ws, x.first = false ∧ x.last = false) (hf : w.first = false) :
    exec (.wakeFrame (ws ++ [w])) s = .next (bump s 0x2101 3) := by
  simp only [exec, execWakeFrame, foldl_takeWakeWord_headless h (.inl rfl) hws hf]
  cases w.last <;> simp [h, countBroken]

theorem exec_wakeFrame_wellFramed {s : State} {ws : List MsgWord} {w : MsgWord} (h : s.power.wakeFrReady = true)
    (hw : WellFramed (ws ++ [w])) : exec (.wakeFrame (ws ++ [w])) s = .next (if 16 < (ws ++ [w]).length then bump s 0x2101 3
      else holdWake s ((ws ++ [w]).flatMap (fun x => wordBytes x.data))) := by
  obtain ⟨-, hl, -, -⟩ := hw.parts
  simp only [exec, execWakeFrame, foldl_takeWakeWord_wellFramed h hw, extendWake, hl, Bool.not_true, Bool.false_eq_true, if_false]
  split
  · simp only [countBroken, ite_self]
  · simp only [countBroken, ite_self]

theorem eq_append_of_one_le {α : Type} {l : List α} (h : 1 ≤ l.length) : ∃ m x, l = m ++ [x] :=
  ⟨l.dropLast, l.getLast (by rintro rfl; simp at h), (List.dropLast_append_getLast _).symm⟩

/-- Settles O31: by the first test that a frame fails, and by the marks of the words that bring one. -/
theorem wakeFramesAreDecidedInOrder : Obligations.WakeFramesAreDecidedInOrder := by
  refine ⟨fun s f => decideWake_badFormat, fun s f src hf hsrc => ?decision, fun ws s h => exec_wakeFrame_deaf h ws,
    fun ws s hr hl hws => ?headless, fun ws s hr hl hws => ?framed⟩
  case decision =>
    subst hsrc
    refine ⟨decideWake_stale hf, fun hc => ⟨decideWake_noKey hf hc, decideWake_noToken hf hc, decideWake_wrongTag hf hc,
      fun hk ht htag => ?_⟩⟩
    rw [decideWake_accepts hf hc hk ht htag]
    obtain ⟨htokens, hlast⟩ := acceptWake_fields (setPower s { s.power with tokens := s.power.tokens - 1 }) f
    exact ⟨acceptWake_count _ f, acceptWake_floor _ f, htokens, hlast,
      fun he hd ha hti hlo hhi => acceptWake_wakes (wakeFormatOk_source hf) he hd ha hti hlo hhi⟩
  case headless =>
    obtain ⟨ws, w, rfl⟩ := eq_append_of_one_le hl
    refine exec_wakeFrame_headless hr (fun x hx => ?_) (hws ws.length w (by simp)).1
    obtain ⟨i, hi, rfl⟩ := List.getElem_of_mem hx
    obtain ⟨hf, hlast⟩ := hws i ws[i] (by rw [List.getElem?_append_left hi, List.getElem?_eq_getElem hi])
    exact ⟨hf, hlast (by simp; omega)⟩
  case framed =>
    obtain ⟨ws, w, rfl⟩ := eq_append_of_one_le hl
    have hrun := exec_wakeFrame_wellFramed hr hws
    refine ⟨fun hlong => ?_, fun hshort hfull => ?_, fun hshort hroom => ⟨_, rfl, ?_⟩⟩
    · rw [hrun, if_pos hlong]
    · rw [hrun, if_neg (by omega), holdWake, if_pos hfull]
    · rw [hrun, if_neg (by omega), holdWake, if_neg (by omega)]

end Sys2Proof.Machine

/-! PROOF. The input side of a port: what a direction is after a write of it, and what one word does to the frame it feeds (R53,
R58, R60, R61, R64, R126, R127, R131). -/

namespace Sys2Proof.Machine

/-! ### One direction of a port -/

@[simp] theorem shim_setShim_same (s : State) (p : Nat) (x : Shim) : shim (setShim s p x) p = x :=
  spGet_spSet_same shimDefault s.shims p x

theorem shim_setShim_ne {s : State} {p q : Nat} (x : Shim) (h : q ≠ p) : shim (setShim s p x) q = shim s q :=
  spGet_spSet_ne shimDefault s.shims p q x h

theorem setDir_frame (s : State) (p : Nat) (side : Side) (d : ShimDir) :
    setDir s p side d = { s with shims := (setDir s p side d).shims } := by
  cases side <;> rfl

@[simp] theorem dirOf_setDir_same (s : State) (p : Nat) (side : Side) (d : ShimDir) : dirOf (setDir s p side d) p side = d := by
  cases side <;> simp [dirOf, setDir]

theorem dirOf_setDir_other {s : State} {p : Nat} {side other : Side} (d : ShimDir) (h : other ≠ side) :
    dirOf (setDir s p side d) p other = dirOf s p other := by
  cases side <;> cases other <;> simp [dirOf, setDir] at h ⊢

theorem shim_setDir_ne {s : State} {p q : Nat} {side : Side} (d : ShimDir) (h : q ≠ p) :
    shim (setDir s p side d) q = shim s q := by
  cases side <;> exact shim_setShim_ne _ h

section
variable (s : State) (p : Nat) (side : Side) (d : ShimDir)

@[simp] theorem setDir_now : (setDir s p side d).now = s.now := by rw [setDir_frame]
@[simp] theorem setDir_regs : (setDir s p side d).regs = s.regs := by rw [setDir_frame]
@[simp] theorem setDir_ctrs : (setDir s p side d).ctrs = s.ctrs := by rw [setDir_frame]
@[simp] theorem setDir_events : (setDir s p side d).events = s.events := by rw [setDir_frame]
@[simp] theorem setDir_contexts : (setDir s p side d).contexts = s.contexts := by rw [setDir_frame]
@[simp] theorem setDir_time : (setDir s p side d).time = s.time := by rw [setDir_frame]
@[simp] theorem setDir_faults : (setDir s p side d).faults = s.faults := by rw [setDir_frame]
@[simp] theorem reg_setDir (i j : Nat) : reg (setDir s p side d) i j = reg s i j := by simp [reg]
@[simp] theorem ctr_setDir (i j : Nat) : ctr (setDir s p side d) i j = ctr s i j := by simp [ctr]
@[simp] theorem maxFrame_setDir (q : Nat) : maxFrame (setDir s p side d) q = maxFrame s q := by simp [maxFrame, portControl]
@[simp] theorem dirOf_bump (i j : Nat) : dirOf (bump s i j) p side = dirOf s p side := rfl

@[simp] theorem dirOf_raise (src n : Nat) : dirOf (raise s src n) p side = dirOf s p side := by
  cases side <;> simp [dirOf, shim]

@[simp] theorem dirOf_raiseCause (src b n : Nat) : dirOf (raiseCause s src b n) p side = dirOf s p side := by
  cases side <;> simp [dirOf, shim]

end

/-- Nothing but the Port Shim of one port has changed. -/
def OnlyPort (p : Nat) (s t : State) : Prop := t = { s with shims := t.shims } ∧ ∀ q, q ≠ p → shim t q = shim s q

theorem OnlyPort.refl (p : Nat) (s : State) : OnlyPort p s s := ⟨rfl, fun _ _ => rfl⟩

theorem OnlyPort.trans {p : Nat} {s t u : State} (h : OnlyPort p s t) (g : OnlyPort p t u) : OnlyPort p s u :=
  ⟨by rw [g.1, h.1], fun q hq => (g.2 q hq).trans (h.2 q hq)⟩

theorem onlyPort_setDir (s : State) (p : Nat) (side : Side) (d : ShimDir) : OnlyPort p s (setDir s p side d) :=
  ⟨setDir_frame s p side d, fun _ hq => shim_setDir_ne d hq⟩

theorem onlyPort_updateReady (s : State) (p : Nat) : OnlyPort p s (updateReady s p) := by
  unfold updateReady
  exact onlyPort_setDir _ _ _ _

/-- Of either direction only the mark for want of space moves. -/
theorem dirOf_updateReady (s : State) (p : Nat) (side : Side) :
    ∃ r, dirOf (updateReady s p) p side = { dirOf s p side with readyLow := r } := by
  unfold updateReady
  cases side with
  | fi => exact ⟨_, dirOf_setDir_same _ _ _ _⟩
  | wi => exact ⟨(dirOf s p .wi).readyLow, dirOf_setDir_other _ (by decide)⟩

/-! ### Frames of a direction -/

theorem modLast_append (g : QFrame → QFrame) (fs : List QFrame) (f : QFrame) : modLast g (fs ++ [f]) = fs ++ [g f] := by
  induction fs with
  | nil => rfl
  | cons x fs ih =>
    cases fs with
    | nil => rfl
    | cons y fs => exact congrArg (x :: ·) ih

theorem isOpen_waiting {f : QFrame} (h : f.phase = .waiting) : isOpen f = true := by simp [isOpen, h]

theorem isBegun_waiting {f : QFrame} (h : f.phase = .waiting) : isBegun f = false := by simp [isBegun, h]

/-- A frame that has not begun ends as discarded. -/
theorem endFrame_waiting {f : QFrame} (causes : List Tally) (h : f.phase = .waiting) :
    endFrame causes f = { f with phase := .discarded, tallies := f.tallies.filter isEventTally ++ causes } := by
  simp [endFrame, isOpen_waiting h, isBegun_waiting h]

@[simp] theorem stopFeeding_frames (d : ShimDir) : (stopFeeding d).frames = d.frames := by
  unfold stopFeeding; split <;> rfl

@[simp] theorem stopFeeding_skipping (d : ShimDir) : (stopFeeding d).skipping = d.skipping := by
  unfold stopFeeding; split <;> rfl

@[simp] theorem stopFeeding_stuck (d : ShimDir) : (stopFeeding d).stuck = d.stuck := by
  unfold stopFeeding; split <;> rfl

theorem stopFeeding_inp {d : ShimDir} {o : OpenIn} (h : d.inp = some o) :
    (stopFeeding d).inp = some { o with live := false } := by
  simp [stopFeeding, h]

/-! ### The bytes of a word enter the frame (R58, R126, R131) -/

/-- The frame with the bytes of a word of 8 bytes. -/
def extended (w : FrameWord) (f : QFrame) : QFrame := { f with bytes := f.bytes ++ wordBytes w.data, complete := w.eop }

section
variable {s : State} {p : Nat} {side : Side} {w : FrameWord} {f : QFrame}

theorem take_wordBytes (hn : w.nbytes = 8) : (wordBytes w.data).take w.nbytes.toNat = wordBytes w.data := by
  rw [hn]; exact List.take_of_length_le (by simp)

theorem extended_length (w : FrameWord) (f : QFrame) : (extended w f).bytes.length = f.bytes.length + 8 := by
  simp [extended]

/-- Only a frame whose late-bound values are there has them again. -/
theorem rebind_unbound (h : f.late = none) : rebind f = f := by simp [rebind, h]

theorem feedFrame_errored (he : w.err = true) : feedFrame s p side w f = (s, endFrame [.port 12]
    (rebind { f with bytes := f.bytes ++ (wordBytes w.data).take w.nbytes.toNat, complete := w.eop })) := by
  simp [feedFrame, he]

theorem growthCheck_waiting (hd : f.disp = .waiting) (hl : f.bytes.length ≤ maxFrame s p)
    (hc : f.complete = true → f.lenPending = false) : growthCheck s p side f = f := by
  have hend : ¬(f.complete = true ∧ f.lenPending = true ∧ tooShort f.bytes = true) := fun ⟨h, hp, _⟩ => by simp [hc h] at hp
  cases side <;> simp [growthCheck, txTooLong, hd, Nat.not_lt.2 hl, hend]

theorem growthCheck_plain (hd : f.disp = .plain) (hl : f.bytes.length ≤ maxFrame s p) (hp : f.lenPending = false) :
    growthCheck s p side f = f := by
  cases side <;> simp [growthCheck, txTooLong, hd, Nat.not_lt.2 hl, hp]

variable (he : w.err = false) (hn : w.nbytes = 8) (hd : f.disp = .waiting) (hl : f.late = none)
include he hn hd hl

theorem feedFrame_unerrored : feedFrame s p side w f =
    let r := if 64 ≤ (extended w f).bytes.length ∨ w.eop = true then
        (match side with
          | .fi => txHeader s p (extended w f)
          | .wi => if maxFrame s p < (extended w f).bytes.length then (s, extended w f) else rxHeader s p (extended w f))
      else (s, extended w f)
    (r.1, growthCheck r.1 p side r.2) := by
  have hx : rebind { f with bytes := f.bytes ++ (wordBytes w.data).take w.nbytes.toNat, complete := w.eop } = extended w f := by
    rw [take_wordBytes hn, rebind_unbound (by exact hl)]; rfl
  have hw : (extended w f).disp = .waiting := hd
  simp only [feedFrame, hx, he, hw, true_and, Bool.false_eq_true, if_false] <;> rfl

/-- Below the header window a word only extends the frame. -/
theorem feedFrame_belowWindow (hw : w.eop = false) (hlen : f.bytes.length + 8 < 64) (hm : 64 ≤ maxFrame s p) :
    feedFrame s p side w f = (s, extended w f) := by
  have hshort : ¬(64 ≤ (extended w f).bytes.length ∨ w.eop = true) := by simp [extended_length, hw]; omega
  rw [feedFrame_unerrored he hn hd hl]
  simp only [if_neg hshort]
  rw [growthCheck_waiting (by exact hd) (by rw [extended_length]; omega) (by simp [extended, hw])]

/-- A MAC control frame passes unprotected once its header window is complete (R127, R131). -/
theorem feedFrame_macControl (hp : f.lenPending = false) (hlen : f.bytes.length = 56) (hm : 64 ≤ maxFrame s p)
    (ht : etherType (f.bytes ++ wordBytes w.data) = 0x8808) :
    feedFrame s p side w f = (s, plainFrame (if side = .fi then 8 else 9) (extended w f)) := by
  have hwin : 64 ≤ (extended w f).bytes.length ∨ w.eop = true := .inl (by rw [extended_length]; omega)
  have hfit : ¬ maxFrame s p < (extended w f).bytes.length := by rw [extended_length]; omega
  have hrunt : ¬ (extended w f).bytes.length < 14 := by rw [extended_length]; omega
  have htype : etherType (extended w f).bytes = 0x8808 ∨ etherType (extended w f).bytes = 0x888E ∧ eapolBypass s p = true :=
    .inl ht
  rw [feedFrame_unerrored he hn hd hl]
  have hgrown : ∀ n, growthCheck s p side (plainFrame n (extended w f)) = plainFrame n (extended w f) :=
    fun n => growthCheck_plain rfl (Nat.not_lt.1 hfit) hp
  cases side with
  | fi => simp only [if_pos hwin, txHeader, if_neg hrunt, if_pos htype, hgrown, if_true]
  | wi =>
    simp only [if_pos hwin, if_neg hfit, rxHeader, if_neg hrunt, if_pos htype, hgrown]
    rfl

end

/-! ### A word of the open frame (R53, R61) -/

/-- The open frame's record after a word of 8 bytes. -/
def wordTaken (o : OpenIn) (now : Nat) : OpenIn := { o with len := o.len + 8, words := o.words + 1, lastWord := now }

section
variable {s : State} {p : Nat} {side : Side} {w : FrameWord} {f g : QFrame} {fs : List QFrame} {o : OpenIn}
variable (hn : w.nbytes = 8) (ho : (dirOf s p side).inp = some o) (hlive : o.live = true)
  (hfeed : ∀ d, feedFrame (setDir s p side d) p side w f = (setDir s p side d, g))
include hfeed

theorem feedLast_fed (d : ShimDir) (hd : d.frames = fs ++ [f]) : OnlyPort p s (feedLast (setDir s p side d) p side w) ∧
    dirOf (feedLast (setDir s p side d) p side w) p side =
      if isOpen g then { d with frames := fs ++ [g] } else stopFeeding { d with frames := fs ++ [g] } := by
  have hlast : (dirOf (setDir s p side d) p side).frames.getLast? = some f := by simp [hd]
  have hone := (onlyPort_setDir s p side d).trans (onlyPort_setDir (setDir s p side d) p side { d with frames := fs ++ [g] })
  have hmod : modLastOf (setDir s p side d) p side (fun _ => g) =
      setDir (setDir s p side d) p side { d with frames := fs ++ [g] } := by simp [modLastOf, hd, modLast_append]
  simp only [feedLast, hlast, hfeed, hmod]
  split
  · exact ⟨hone, dirOf_setDir_same _ _ _ _⟩
  · exact ⟨hone.trans (onlyPort_setDir _ _ _ _), by simp⟩

include hn ho hlive

theorem takeWord_fed (hf : (dirOf s p side).frames = fs ++ [f]) : OnlyPort p s (takeWord s p side w) ∧ (dirOf (takeWord s p side w) p side).frames = fs ++ [g] ∧
    (isOpen g = true → w.eop = false → (dirOf (takeWord s p side w) p side).inp = some (wordTaken o s.now)) := by
  have hword : w.nbytes.toNat = 8 := by rw [hn]; rfl
  obtain ⟨hone, hdir⟩ := feedLast_fed hfeed { dirOf s p side with inp := some (wordTaken o s.now) } hf
  have htake : takeWord s p side w =
      let s2 := feedLast (setDir s p side { dirOf s p side with inp := some (wordTaken o s.now) }) p side w
      if w.eop then setDir s2 p side { dirOf s2 p side with inp := none } else s2 := by
    simp [takeWord, ho, hword, hlive, wordTaken]
  have hframes : (dirOf (feedLast (setDir s p side { dirOf s p side with inp := some (wordTaken o s.now) }) p side w)
      p side).frames = fs ++ [g] := by
    rw [hdir]; split <;> simp
  rw [htake]
  dsimp only
  split
  · rename_i he
    refine ⟨hone.trans (onlyPort_setDir _ _ _ _), ?_, fun _ h => by simp [he] at h⟩
    rw [dirOf_setDir_same]
    exact hframes
  · refine ⟨hone, hframes, fun h _ => ?_⟩
    rw [hdir, if_pos h]

end

/-! ### One word accepted on an input (Table 2.2) -/

theorem badNbytes_eight {w : FrameWord} (h : w.nbytes = 8) : badNbytes w = false := by
  simp [badNbytes, h]

section
variable {s : State} {p : Nat} {side : Side} {w : FrameWord}

theorem acceptWord_notReady (h : inputReady s p side = false) : acceptWord p side s w = s := by
  simp [acceptWord, h]

variable (hr : inputReady s p side = true)
include hr

theorem acceptWord_inFrame {o : OpenIn} (hs : w.sop = false) (hn : w.nbytes = 8) (hk : (dirOf s p side).skipping = false)
    (ho : (dirOf s p side).inp = some o) (hl : o.len + 8 ≤ 16384) :
    acceptWord p side s w = updateReady (takeWord s p side w) p := by
  have hlen : ¬ 16384 < o.len + w.nbytes.toNat := by rw [hn]; exact Nat.not_lt.2 hl
  simp [acceptWord, hr, hs, hk, ho, badNbytes_eight hn, hlen]

theorem acceptWord_stray (hs : w.sop = false) (hk : (dirOf s p side).skipping = false) (ho : (dirOf s p side).inp = none) :
    acceptWord p side s w = skipRest (structuralError s p side) p side := by
  simp [acceptWord, hr, hs, hk, ho]

/-- The record of a frame whose sop word is being accepted. -/
def openedInp (now : Nat) : OpenIn := { len := 0, words := 0, since := now, lastWord := now, held := 0, live := true }

/-- The direction with a frame opened in this cycle. -/
def openedDir (s : State) (p : Nat) (d : ShimDir) : ShimDir :=
  { d with frames := d.frames ++ [newFrame s p], inp := some (openedInp s.now), skipping := false }

omit hr in
theorem openFrame_admitted (hst : (dirOf s p side).stuck = false)
    (hroom : side = .wi → maxFrame s p ≤ freeSpace s p side) :
    openFrame s p side = setDir s p side (openedDir s p (dirOf s p side)) := by
  have hfits : ¬(side = .wi ∧ freeSpace s p .wi < maxFrame s p) := by
    rintro ⟨rfl, h⟩; exact Nat.not_lt.2 (hroom rfl) h
  simp [openFrame, hst, hfits, openedDir, openedInp]

theorem acceptWord_sop (hs : w.sop = true) (hn : w.nbytes = 8) (ho : (dirOf s p side).inp = none)
    (hst : (dirOf s p side).stuck = false) (hroom : side = .wi → maxFrame s p ≤ freeSpace s p side) :
    acceptWord p side s w = updateReady (takeWord (setDir s p side (openedDir s p (dirOf s p side))) p side w) p := by
  have hopen := openFrame_admitted hst hroom
  have hword : w.nbytes.toNat = 8 := by rw [hn]; rfl
  simp [acceptWord, hr, hs, ho, hopen, badNbytes_eight hn, hword, openedDir, openedInp]

end

/-! ### A broken run of words (Table 2.2, R454) -/

section
variable (s : State) (p : Nat) (side : Side)

theorem endOpen_idle (causes : List Tally) (h : (dirOf s p side).inp = none) : endOpen s p side causes = s := by
  simp [endOpen, h]

theorem endOpen_ended {o : OpenIn} (causes : List Tally) (h : (dirOf s p side).inp = some o) (hl : o.live = false) :
    endOpen s p side causes = s := by
  simp [endOpen, h, hl]

theorem endOpen_live {o : OpenIn} (causes : List Tally) (h : (dirOf s p side).inp = some o) (hl : o.live = true) :
    endOpen s p side causes =
      setDir s p side { stopFeeding (dirOf s p side) with frames := modLast (endFrame causes) (dirOf s p side).frames } := by
  simp [endOpen, h, hl]

/-- The direction after a structural error: an open frame is aborted. -/
def brokenDir (d : ShimDir) : ShimDir :=
  { (match d.inp with
      | some o => if o.live then { d with frames := modLast (endFrame (abortTallies side)) d.frames } else d
      | none => d) with inp := none }

/-- A structural error is counted and raised. -/
def errorRaised : State := raiseCause (bump s (0x2841 + p) 16) (evPort p) 0 p

theorem structuralError_dir : OnlyPort p (errorRaised s p) (structuralError s p side) ∧
    dirOf (structuralError s p side) p side = brokenDir side (dirOf s p side) := by
  have hdir : dirOf (errorRaised s p) p side = dirOf s p side := by simp [errorRaised]
  have hfirst : OnlyPort p (errorRaised s p) (endOpen (errorRaised s p) p side (abortTallies side)) ∧
      { dirOf (endOpen (errorRaised s p) p side (abortTallies side)) p side with inp := none } =
        brokenDir side (dirOf s p side) := by
    rcases ho : (dirOf s p side).inp with _ | o
    · rw [endOpen_idle _ _ _ _ (hdir ▸ ho), hdir]
      exact ⟨.refl _ _, by simp [brokenDir, ho]⟩
    · rcases hl : o.live with _ | _
      · rw [endOpen_ended _ _ _ _ (hdir ▸ ho) hl, hdir]
        exact ⟨.refl _ _, by simp [brokenDir, ho, hl]⟩
      · rw [endOpen_live _ _ _ _ (hdir ▸ ho) hl, dirOf_setDir_same, hdir]
        exact ⟨onlyPort_setDir _ _ _ _, by simp [brokenDir, ho, hl, stopFeeding]⟩
  obtain ⟨hone, hbroken⟩ := hfirst
  exact ⟨hone.trans (onlyPort_setDir _ _ _ _), (dirOf_setDir_same _ _ _ _).trans hbroken⟩

theorem errorRaised_recorded {s : State} {p : Nat} (h : ctlOn s = true) (hp : p < 32) :
    ctr (errorRaised s p) (0x2841 + p) 16 = satAdd64 (ctr s (0x2841 + p) 16) 1 ∧
      (errorRaised s p).events.pending.getLsbD p = true ∧
      (spGet w32Zero (errorRaised s p).events.cause p).getLsbD 0 = true := by
  obtain ⟨hpending, hcause⟩ :=
    raiseCause_recorded (s := bump s (0x2841 + p) 16) (src := evPort p) (b := 0) p h (by simp only [evPort]; omega) (by decide)
  exact ⟨by rw [errorRaised, ctr_raiseCause, ctr_bump_same], hpending, hcause⟩

theorem skipRest_dir : OnlyPort p s (skipRest s p side) ∧
    dirOf (skipRest s p side) p side = { dirOf s p side with skipping := true } :=
  ⟨onlyPort_setDir _ _ _ _, dirOf_setDir_same _ _ _ _⟩

/-- The rest of a broken run is skipped. -/
theorem skipBroken_dir : OnlyPort p (errorRaised s p) (skipRest (structuralError s p side) p side) ∧
    dirOf (skipRest (structuralError s p side) p side) p side = { brokenDir side (dirOf s p side) with skipping := true } := by
  obtain ⟨he, hd⟩ := structuralError_dir s p side
  obtain ⟨hk, hdk⟩ := skipRest_dir (structuralError s p side) p side
  exact ⟨he.trans hk, by rw [hdk, hd]⟩

end

theorem OnlyPort.ctr {p : Nat} {s t : State} (h : OnlyPort p s t) (i j : Nat) : ctr t i j = Machine.ctr s i j := by
  rw [Machine.ctr, h.1]; rfl

theorem OnlyPort.events {p : Nat} {s t : State} (h : OnlyPort p s t) : t.events = s.events := by rw [h.1]

/-! ### The words of a command -/

/-- A command brings its words to one input side. -/
theorem exec_frameWords {p : Port} {side : Side} {cmd : List FrameWord → Instr}
    (h : (side = .fi ∧ cmd = .txFrame p) ∨ (side = .wi ∧ cmd = .rxFrame p)) (ws : List FrameWord) (s : State) :
    exec (cmd ws) s = .next (ws.foldl (acceptWord p.val side) s) := by
  rcases h with ⟨rfl, rfl⟩ | ⟨rfl, rfl⟩ <;> rfl

theorem foldl_acceptWord_notReady {s : State} {p : Nat} {side : Side} (h : inputReady s p side = false) (ws : List FrameWord) :
    ws.foldl (acceptWord p side) s = s := by
  induction ws with
  | nil => rfl
  | cons w ws ih => rw [List.foldl_cons, acceptWord_notReady h, ih]

end Sys2Proof.Machine

/-! PROOF. The words of a frame on an input side of a port (R53, R58, R60, R61, R64). -/

namespace Sys2Proof.Machine

section
variable {p : Port} {side : Side} {cmd : List FrameWord → Instr} {w : FrameWord} {s : State}
  (hcmd : (side = .fi ∧ cmd = .txFrame p) ∨ (side = .wi ∧ cmd = .rxFrame p))
include hcmd

theorem exec_frameWords_append (ws vs : List FrameWord) : exec (cmd (ws ++ vs)) s = runAll [cmd ws, cmd vs] s := by
  simp only [runAll, exec_frameWords hcmd, List.foldl_append]

theorem exec_frameWord (w : FrameWord) : exec (cmd [w]) s = .next (acceptWord p.val side s w) := exec_frameWords hcmd [w] s

variable (hr : inputReady s p.val side = true)
include hr

/-- A sop word opens a frame with the stamps of this cycle. -/
theorem exec_sopWord (hs : w.sop = true) (he : w.eop = false) (herr : w.err = false) (hn : w.nbytes = 8)
    (ho : (dirOf s p.val side).inp = none) (hst : (dirOf s p.val side).stuck = false) (hm : 64 ≤ maxFrame s p.val)
    (hroom : side = .wi → maxFrame s p.val ≤ freeSpace s p.val side) :
    ∃ t, exec (cmd [w]) s = .next t ∧ OnlyPort p.val s t ∧
      (dirOf t p.val side).frames = (dirOf s p.val side).frames ++ [{ newFrame s p.val with bytes := wordBytes w.data }] ∧
      (dirOf t p.val side).inp = some { len := 8, words := 1, since := s.now, lastWord := s.now, held := 0, live := true } := by
  let s1 := setDir s p.val side (openedDir s p.val (dirOf s p.val side))
  have hdir : dirOf s1 p.val side = openedDir s p.val (dirOf s p.val side) := dirOf_setDir_same _ _ _ _
  have hfeed : ∀ d, feedFrame (setDir s1 p.val side d) p.val side w (newFrame s p.val) =
      (setDir s1 p.val side d, extended w (newFrame s p.val)) :=
    fun d => feedFrame_belowWindow herr hn rfl rfl he (by simp [newFrame]) (by simpa [s1] using hm)
  obtain ⟨hone, hframes, hinp⟩ :=
    takeWord_fed (o := openedInp s.now) (fs := (dirOf s p.val side).frames) hn (by rw [hdir]; rfl) rfl hfeed (by rw [hdir]; rfl)
  obtain ⟨r, hready⟩ := dirOf_updateReady (takeWord s1 p.val side w) p.val side
  refine ⟨_, (exec_frameWord hcmd w).trans (congrArg _ (acceptWord_sop hr hs hn ho hst hroom)),
    ((onlyPort_setDir _ _ _ _).trans hone).trans (onlyPort_updateReady _ _), ?_, ?_⟩
  · rw [hready]
    exact hframes.trans (by simp [extended, newFrame, he])
  · rw [hready]
    exact (hinp rfl he).trans (by simp [wordTaken, openedInp, s1])

variable (hs : w.sop = false) (hk : (dirOf s p.val side).skipping = false)
include hs hk

/-- A word outside a frame is a structural error, and its run is skipped. -/
theorem exec_strayWord (ho : (dirOf s p.val side).inp = none) (hc : ctlOn s = true) :
    ∃ t, exec (cmd [w]) s = .next t ∧ (dirOf t p.val side).skipping = true ∧
      (dirOf t p.val side).frames = (dirOf s p.val side).frames ∧
      ctr t (0x2841 + p.val) 16 = satAdd64 (ctr s (0x2841 + p.val) 16) 1 ∧ t.events.pending.getLsbD p.val = true ∧
      (spGet w32Zero t.events.cause p.val).getLsbD 0 = true := by
  obtain ⟨hone, hdir⟩ := skipBroken_dir s p.val side
  obtain ⟨hcount, hpending, hcause⟩ := errorRaised_recorded hc p.isLt
  refine ⟨_, (exec_frameWord hcmd w).trans (congrArg _ (acceptWord_stray hr hs hk ho)), by rw [hdir], ?_,
    (hone.ctr _ _).trans hcount, hone.events ▸ hpending, hone.events ▸ hcause⟩
  rw [hdir]
  simp [brokenDir, ho]

variable {o : OpenIn} {fs : List QFrame} {f g : QFrame} (hn : w.nbytes = 8) (ho : (dirOf s p.val side).inp = some o)
  (hlive : o.live = true) (hlen : o.len + 8 ≤ 16384) (hf : (dirOf s p.val side).frames = fs ++ [f])
include hn ho hlive hlen hf

/-- A word of the open frame is fed to its last record. -/
theorem exec_fedWord (hfeed : ∀ d, feedFrame (setDir s p.val side d) p.val side w f = (setDir s p.val side d, g)) :
    ∃ t, exec (cmd [w]) s = .next t ∧ OnlyPort p.val s t ∧ (dirOf t p.val side).frames = fs ++ [g] ∧
      (isOpen g = true → w.eop = false → (dirOf t p.val side).inp = some (wordTaken o s.now)) := by
  obtain ⟨hone, hframes, hinp⟩ := takeWord_fed hn ho hlive hfeed hf
  obtain ⟨r, hready⟩ := dirOf_updateReady (takeWord s p.val side w) p.val side
  refine ⟨_, (exec_frameWord hcmd w).trans (congrArg _ (acceptWord_inFrame hr hs hn hk ho hlen)),
    hone.trans (onlyPort_updateReady _ _), ?_, fun hopen he => ?_⟩
  · rw [hready]; exact hframes
  · rw [hready]; exact hinp hopen he

end

/-- Settles O33: by where the word stands, in no frame, at its head, inside it, or in error. -/
theorem frameWordsFeedTheOpenFrame : Obligations.FrameWordsFeedTheOpenFrame := by
  intro p side cmd hcmd
  refine ⟨fun s hr ws => ?notReady, fun ws vs s => exec_frameWords_append hcmd ws vs,
    fun w s hr hs he herr hn ho hst hm hroom => ?sop,
    fun w o fs f s hr hs herr hn hk ho hlive hlen hf hph hd hp hl hm => ⟨fun he hcm hshort => ?inWindow, fun hlast ht => ?control⟩,
    fun w s hr hs ho hk hc => exec_strayWord hcmd hr hs hk ho hc,
    fun w o fs f s hr hs herr hn hk ho hlive hlen hf hph => ?errored⟩
  case notReady => rw [exec_frameWords hcmd, foldl_acceptWord_notReady hr]
  case sop =>
    obtain ⟨t, ht, hone, hframes, hinp⟩ := exec_sopWord hcmd hr hs he herr hn ho hst hm hroom
    exact ⟨t, _, ht, hframes, rfl, hinp, hone.1, hone.2⟩
  case inWindow =>
    obtain ⟨t, ht, hone, hframes, hinp⟩ := exec_fedWord hcmd hr hs hk hn ho hlive hlen hf (g := extended w f)
      fun d => feedFrame_belowWindow herr hn hd hl he hshort (by simpa using hm)
    refine ⟨t, ht, hframes.trans ?_, hinp (isOpen_waiting hph) he, hone.1⟩
    simp [extended, he, hcm]
  case control =>
    obtain ⟨t, ht', hone, hframes, -⟩ := exec_fedWord hcmd hr hs hk hn ho hlive hlen hf
      (g := plainFrame (if side = .fi then 8 else 9) (extended w f))
      fun d => feedFrame_macControl herr hn hd hl hp hlast (by simpa using hm) ht
    exact ⟨t, ht', hframes, hone.1⟩
  case errored =>
    obtain ⟨t, ht, -, hframes, -⟩ := exec_fedWord hcmd hr hs hk hn ho hlive hlen hf fun d => feedFrame_errored herr
    refine ⟨t, _, ht, hframes, ?_⟩
    have hwait : (rebind { f with bytes := f.bytes ++ (wordBytes w.data).take w.nbytes.toNat, complete := w.eop }).phase =
        .waiting := by unfold rebind; split <;> exact hph
    have htallies : (rebind { f with bytes := f.bytes ++ (wordBytes w.data).take w.nbytes.toNat, complete := w.eop }).tallies =
        f.tallies := by unfold rebind; split <;> rfl
    rw [endFrame_waiting _ hwait]
    exact ⟨rfl, by rw [htallies]⟩

end Sys2Proof.Machine

/-! PROOF. The output side of a port: release of the head frame, its words and late-bound values, and settlement (R57 to R59, R62,
R114, R115, R140, R145). -/

namespace Sys2Proof.Machine

/-! ### Release (R114, R115) -/

theorem splitHead_open {f : QFrame} (h : isOpen f = true) (fs : List QFrame) : splitHead (f :: fs) = ([], some f, fs) := by
  simp [splitHead, h]

theorem isOpen_begun {f : QFrame} {n : Nat} (h : f.phase = .begun n) : isOpen f = true := by simp [isOpen, h]

theorem isBegun_begun {f : QFrame} {n : Nat} (h : f.phase = .begun n) : isBegun f = true := by simp [isBegun, h]

section
variable {p : Port} {side : Side} {f : QFrame} {fs : List QFrame} {s : State}
  (hp : pathOn s = true) (he : portEnabled s p.val = true) (hf : (dirOf s p.val side).frames = f :: fs)
include hp he hf

theorem exec_release_head (ho : isOpen f = true) : exec (.frameRelease p side) s = .next
    (if releasable s p.val f && (f.egress.isNone || (outWord s p.val side).isSome) then
      setDir s p.val side { dirOf s p.val side with
        frames := sendWord s p.val f :: fs, stuck := if isBegun f then false else (dirOf s p.val side).stuck }
    else s) := by
  simp [exec, execFrameRelease, hf, splitHead_open ho, hp, he, rejoin]

variable (hd : processed f = true)
include hd

theorem exec_release_waiting (hw : f.phase = .waiting) (hg : f.egress = none) : exec (.frameRelease p side) s = .next
    (if releaseFrom s p.val f ≤ s.now then setDir s p.val side { dirOf s p.val side with
      frames := { f with phase := .begun s.now, egress := some (stampsNow s p.val), sent := f.sent + 1 } :: fs } else s) := by
  rw [exec_release_head hp he hf (isOpen_waiting hw)]
  simp [releasable, hd, hw, hg, sendWord, isBegun_waiting hw]

theorem exec_release_begun {n : Nat} {e : Stamps} (hw : f.phase = .begun n) (hg : f.egress = some e) :
    exec (.frameRelease p side) s = .next (if (outWord s p.val side).isSome then setDir s p.val side { dirOf s p.val side with
      frames := { f with phase := .begun s.now, sent := f.sent + 1 } :: fs, stuck := false } else s) := by
  rw [exec_release_head hp he hf (isOpen_begun hw)]
  have hsent : sendWord s p.val f = { f with phase := .begun s.now, sent := f.sent + 1 } := by
    simp [sendWord, hg]
  simp [releasable, hd, hw, hg, hsent, isBegun_begun hw]

end

/-! ### Words of a frame (R57, R58) -/

theorem outWord_complete {s : State} {p : Nat} {f : QFrame} {fs : List QFrame} {n : Nat} (hp : pathOn s = true)
    (he : portEnabled s p = true) (hf : (dirOf s p .fi).frames = f :: fs) (hw : f.phase = .begun n) (hc : f.complete = true) :
    outWord s p .fi = frameWord (wireBytes s p f) true false f.sent := by
  simp [outWord, hp, he, hf, hw, outputSoFar, hc]

theorem frameWord_iff (bytes : Bytes) (k : Nat) (w : FrameWord) : frameWord bytes true false k = some w ↔
    8 * k < bytes.length ∧
      w = { data := laneWord bytes k, sop := decide (k = 0), eop := decide (bytes.length ≤ 8 * k + 8)
            nbytes := BitVec.ofNat 4 (Nat.min 8 (bytes.length - 8 * k)), err := false } := by
  have hmin : ∀ n, Nat.min 8 n = min 8 n := fun _ => rfl
  have hsop : (k == 0) = decide (k = 0) := rfl
  unfold frameWord
  by_cases hmore : 8 * k + 8 < bytes.length
  · have hlast : ¬ bytes.length ≤ 8 * k + 8 := by omega
    have hin : 8 * k < bytes.length := by omega
    have hfull : Nat.min 8 (bytes.length - 8 * k) = 8 := by rw [hmin]; omega
    simp [hmore, hlast, hin, hfull, hsop, eq_comm]
  · by_cases hin : 8 * k < bytes.length
    · have hlast : bytes.length ≤ 8 * k + 8 := by omega
      have hpart : Nat.min 8 (bytes.length - 8 * k) = bytes.length - 8 * k := by rw [hmin]; omega
      simp [hmore, hlast, hin, hpart, hsop, eq_comm]
    · simp [hmore, hin]

/-! ### Late binding (R140) -/

theorem exec_lateBinding {s : State} (p : Port) (h : pathOn s = true) : exec (.lateBinding p) s =
    .next (setDir s p.val .fi { dirOf s p.val .fi with frames := (dirOf s p.val .fi).frames.map (bindLate s.now) }) := by
  simp [exec, execLateBinding, h]

theorem bindLate_begun {now n : Nat} {e : Stamps} {f : QFrame} (hw : f.phase = .begun n) (hg : f.egress = some e)
    (hl : f.late = none) :
    bindLate now f = if e.cycle < now then { f with late := some (lateFieldsOf e f.bytes) } else f := by
  simp [bindLate, hw, hg, hl]

/-! ### What settlement leaves in the shims (R145, R160) -/

/-- The bytes of the frames of a direction, and the frame that last left it. -/
def dirView (d : ShimDir) : List Bytes × Option OutFrame := (d.frames.map QFrame.bytes, d.lastOut)

/-- The Port Shims hold the same frames' bytes, and the same last output. -/
def SameFrames (s t : State) : Prop := ∀ p side, dirView (dirOf t p side) = dirView (dirOf s p side)

theorem SameFrames.of_shims {s t : State} (h : t.shims = s.shims) : SameFrames s t := by
  intro p side
  cases side <;> simp [dirOf, shim, h]

theorem SameFrames.trans {s t u : State} (h : SameFrames s t) (g : SameFrames t u) : SameFrames s u :=
  fun p side => (g p side).trans (h p side)

theorem forgetFrame_bytes (c : Nat) (i : SlotId) (f : QFrame) : (forgetFrame c i f).bytes = f.bytes := by
  unfold forgetFrame
  split
  · split <;> rfl
  · rfl

theorem forgetDir_view (c : Nat) (i : SlotId) (d : ShimDir) : dirView (forgetDir c i d) = dirView d := by
  simp [dirView, forgetDir, Function.comp_def, forgetFrame_bytes]

theorem spFind_map {α β : Type} (f : α → β) (m : Sparse α) (n : Nat) :
    spFind (m.map (fun e => (e.1, f e.2))) n = (spFind m n).map f := by
  induction m with
  | nil => rfl
  | cons e m ih =>
    simp only [List.map_cons, spFind, ih]
    split <;> rfl

/-- A shim whose frames no longer refer to a slot. -/
def forgetShim (c : Nat) (i : SlotId) (x : Shim) : Shim := { tx := forgetDir c i x.tx, rx := forgetDir c i x.rx }

theorem shim_forgetSlot (s : State) (c : Nat) (i : SlotId) (p : Nat) :
    shim (forgetSlot s c i) p = forgetShim c i (shim s p) := by
  change (spFind (s.shims.map fun e => (e.1, forgetShim c i e.2)) p).getD (shimDefault p) =
    forgetShim c i ((spFind s.shims p).getD (shimDefault p))
  rw [spFind_map]
  cases spFind s.shims p <;> rfl

theorem forgetSlot_sameFrames (s : State) (c : Nat) (i : SlotId) : SameFrames s (forgetSlot s c i) := by
  intro p side
  cases side <;> simp [dirOf, shim_forgetSlot, forgetShim, forgetDir_view]

@[simp] theorem releaseKey_shims (s : State) (k : W16) : (releaseKey s k).shims = s.shims := by
  unfold releaseKey; split <;> rfl

theorem emptyOld_sameFrames (s : State) (c : Nat) (i : SlotId) : SameFrames s (emptyOld s c i) := by
  unfold emptyOld clearSlot
  dsimp only
  split
  · split
    · exact .of_shims rfl
    · exact (SameFrames.of_shims (by simp)).trans (forgetSlot_sameFrames _ _ _)
  · exact .of_shims rfl

theorem settleSlot_sameFrames (s : State) (plan : CipherPlan) : SameFrames s (settleSlot s plan) := by
  unfold settleSlot
  dsimp only
  split
  · exact (SameFrames.of_shims rfl).trans (emptyOld_sameFrames _ _ _)
  · exact .of_shims rfl

theorem applyTally_shims (p : Nat) (s : State) (t : Tally) : (applyTally p s t).shims = s.shims := by
  cases t with
  | port sub => rfl
  | context c w n => simp only [applyTally, tallyContext]; split <;> rfl
  | cause b => exact raiseCause_shims _ _ _ _
  | event src d => exact raise_shims _ _ _

theorem foldl_applyTally_shims (p : Nat) (l : List Tally) (s : State) : (l.foldl (applyTally p) s).shims = s.shims := by
  induction l generalizing s with
  | nil => rfl
  | cons t l ih => rw [List.foldl_cons, ih, applyTally_shims]

theorem settleTallies_sameFrames (s : State) (p : Nat) (f : QFrame) : SameFrames s (settleTallies s p f) := by
  have htallies : SameFrames s (f.tallies.foldl (applyTally p) s) := .of_shims (foldl_applyTally_shims p f.tallies s)
  unfold settleTallies
  dsimp only
  split
  · exact htallies.trans (settleSlot_sameFrames _ _)
  · exact htallies

theorem pushStamp_shims (s : State) (e : Bytes) : (pushStamp s e).shims = s.shims := by
  unfold pushStamp
  dsimp only
  split
  · rfl
  · split
    · rfl
    · rw [raise_shims]; rfl

theorem settleEgress_shims (s : State) (t : Stamps) (p : Nat) (bs : Bytes) : (settleEgress s t p bs).shims = s.shims := by
  unfold settleEgress
  dsimp only
  split
  · rfl
  · split
    · rfl
    · rw [pushStamp_shims]
      (repeat' split) <;> rfl

theorem settleIngress_shims (s : State) (t : Stamps) (p : Nat) (bs : Bytes) : (settleIngress s t p bs).shims = s.shims := by
  unfold settleIngress
  split
  · rfl
  · split
    · rfl
    · rw [pushStamp_shims]
      split <;> rfl

theorem learnFrom_shims (s : State) (p : Nat) (f : QFrame) (bs : Bytes) : (learnFrom s p f bs).shims = s.shims := by
  unfold learnFrom pushLearn
  dsimp only
  split
  · split <;> rfl
  · rfl

theorem settleSent_sameFrames (s : State) (p : Nat) (f : QFrame) : SameFrames s (settleSent s p f) := by
  unfold settleSent
  dsimp only
  split
  · exact (settleTallies_sameFrames _ _ _).trans (.of_shims (settleEgress_shims _ _ _ _))
  · exact settleTallies_sameFrames _ _ _

theorem settleDelivered_sameFrames (s : State) (p : Nat) (f : QFrame) : SameFrames s (settleDelivered s p f) :=
  (settleTallies_sameFrames _ _ _).trans (.of_shims ((learnFrom_shims _ _ _ _).trans (settleIngress_shims _ _ _ _)))

/-! ### The first frame leaves (R62, R145) -/

theorem popFrame_dir (s : State) (p : Nat) (side : Side) (out : Option OutFrame) (ended : Bool) :
    OnlyPort p s (popFrame s p side out ended) ∧ ∃ r, dirOf (popFrame s p side out ended) p side =
      { dirOf s p side with frames := (dirOf s p side).frames.drop 1, lastOut := out.orElse (fun _ => (dirOf s p side).lastOut)
                            stuck := if ended then false else (dirOf s p side).stuck, readyLow := r } := by
  obtain ⟨r, hr⟩ := dirOf_updateReady (setDir s p side { dirOf s p side with
    frames := (dirOf s p side).frames.drop 1, lastOut := out.orElse (fun _ => (dirOf s p side).lastOut)
    stuck := if ended then false else (dirOf s p side).stuck }) p side
  exact ⟨(onlyPort_setDir _ _ _ _).trans (onlyPort_updateReady _ _), r, hr.trans (by rw [dirOf_setDir_same])⟩

/-- After the frame's counters have settled, it leaves as what stood at the output. -/
theorem popFrame_settled {s u : State} {p : Nat} {side : Side} {f : QFrame} {fs : List QFrame}
    (hf : (dirOf s p side).frames = f :: fs) (hu : SameFrames s u) (out : OutFrame) :
    (dirOf (popFrame u p side (some out) true) p side).frames.map (fun g => g.bytes) = fs.map (fun g => g.bytes) ∧
      (dirOf (popFrame u p side (some out) true) p side).lastOut = some out ∧
      (dirOf (popFrame u p side (some out) true) p side).stuck = false := by
  obtain ⟨-, r, hr⟩ := popFrame_dir u p side (some out) true
  have hbytes : (dirOf u p side).frames.map QFrame.bytes = f.bytes :: fs.map QFrame.bytes := by
    have h := congrArg Prod.fst (hu p side)
    simpa [dirView, hf] using h
  rw [hr]
  refine ⟨?_, rfl, rfl⟩
  have h := congrArg (List.drop 1) hbytes
  simpa [List.map_drop] using h

section
variable {p : Port} {side : Side} {f : QFrame} {fs : List QFrame} {s : State} (hp : pathOn s = true)
  (hf : (dirOf s p.val side).frames = f :: fs)
include hp hf

theorem exec_frameSettle : exec (.frameSettle p side) s = .next (settleFirst s p.val side f) := by
  simp [exec, execFrameSettle, hf, hp]

theorem exec_settle_discarded {k : Nat} (hw : f.phase = .discarded) (ht : f.tallies = [.port k]) (hd : f.disp = .waiting) :
    exec (.frameSettle p side) s = .next (popFrame (bump s (0x2841 + p.val) k) p.val side none false) := by
  rw [exec_frameSettle hp hf]
  simp [settleFirst, hw, settleTallies, ht, hd, applyTally]

theorem exec_settle_closed (hw : f.phase = .closed) : exec (.frameSettle p side) s =
    .next (popFrame (settleTallies s p.val f) p.val side (some closingWord) true) := by
  rw [exec_frameSettle hp hf]
  simp [settleFirst, hw]

theorem exec_settle_done {n : Nat} (hw : f.phase = .begun n) (hd : outputDone side f = true) :
    ∃ u, SameFrames s u ∧ exec (.frameSettle p side) s = .next (popFrame u p.val side
      (some ⟨if side = .fi then wireBytes s p.val f else fabricBytes s p.val f, false⟩) true) := by
  rw [exec_frameSettle hp hf]
  cases side with
  | fi => exact ⟨_, settleSent_sameFrames s p.val f, by simp [settleFirst, hw, hd]⟩
  | wi => exact ⟨_, settleDelivered_sameFrames s p.val f, by simp [settleFirst, hw, hd]⟩

theorem exec_settle_incomplete {n : Nat} (hw : f.phase = .begun n) (hd : outputDone side f = false) :
    exec (.frameSettle p side) s = .next s := by
  rw [exec_frameSettle hp hf]
  simp [settleFirst, hw, hd]

end

/-- Settles O34: by where the head frame stands at the output, and whether its next word is there. -/
theorem framesAreReleasedAndSettledInOrder : Obligations.FramesAreReleasedAndSettledInOrder := by
  refine ⟨fun p side f fs s hp he hf hw hg hd => ⟨fun h => ?released, fun h => ?early⟩,
    fun p side f fs n e s hp he hf hw hg hd => ⟨fun w h => ?word, fun h => ?noWord, fun hside hc => ?shown⟩,
    frameWord_iff, fun p s => exec_lateBinding p, fun now n e f => bindLate_begun,
    fun p side f fs s hp hf => ⟨fun k hw ht hd => ?discarded, fun hw => ?closed, fun n hw hd => ?done,
      fun n hw hd => exec_settle_incomplete hp hf hw hd⟩⟩
  case released => rw [exec_release_waiting hp he hf hd hw hg, if_pos h]
  case early => rw [exec_release_waiting hp he hf hd hw hg, if_neg (Nat.not_le.2 h)]
  case word => rw [exec_release_begun hp he hf hd hw hg, h]; rfl
  case noWord => rw [exec_release_begun hp he hf hd hw hg, h]; rfl
  case shown => subst hside; exact outWord_complete hp he hf hw hc
  case discarded =>
    obtain ⟨hone, r, hdir⟩ := popFrame_dir (bump s (0x2841 + p.val) k) p.val side none false
    rw [dirOf_bump] at hdir
    refine ⟨_, exec_settle_discarded hp hf hw ht hd, ?_, ?_, (hone.ctr _ _).trans (ctr_bump_same _ _ _), ?_⟩
    · rw [hdir, hf]; rfl
    · rw [hdir]; rfl
    · have h := hone.1
      rw [h]; rfl
  case closed =>
    exact ⟨_, exec_settle_closed hp hf hw, popFrame_settled hf (settleTallies_sameFrames _ _ _) closingWord⟩
  case done =>
    obtain ⟨u, hu, hrun⟩ := exec_settle_done hp hf hw hd
    obtain ⟨hbytes, hout, -⟩ := popFrame_settled hf hu
      ⟨if side = .fi then wireBytes s p.val f else fabricBytes s p.val f, false⟩
    exact ⟨_, hrun, hbytes, hout⟩

end Sys2Proof.Machine

/-! PROOF. Frames that are late: a gap, an underrun, a stuck output, a period boundary (R61, R66, R110, R112, R168, R169). -/

namespace Sys2Proof.Machine

theorem brokenDir_frames {side : Side} {d : ShimDir} {o : OpenIn} (hd : d.inp = some o) : (brokenDir side d).frames =
    if o.live then modLast (endFrame (abortTallies side)) d.frames else d.frames := by
  unfold brokenDir
  rw [hd]
  dsimp only
  split <;> rfl

section
variable {p : Port} {side : Side} {s : State}

/-! ### A gap in a frame (Table 2.2) -/

section
variable {o : OpenIn} (ho : (dirOf s p.val side).inp = some o)
include ho

theorem exec_gap_early (h : s.now ≤ o.lastWord + 4096) : exec (.frameGapTimeout p side) s = .next s := by
  simp [exec, execFrameGapTimeout, ho, Nat.not_lt.2 h]

theorem exec_gap_late (hp : pathOn s = true) (h : o.lastWord + 4096 < s.now) : exec (.frameGapTimeout p side) s =
    .next (updateReady (skipRest (structuralError s p.val side) p.val side) p.val) := by
  simp [exec, execFrameGapTimeout, ho, hp, h]

/-! ### An input past its schedule (R110, R112) -/

theorem exec_underrun_early (h : missed s p.val o = false) : exec (.inputUnderrun p side) s = .next s := by
  simp [exec, execInputUnderrun, ho, h]

theorem exec_underrun_missed (hp : pathOn s = true) (h : missed s p.val o = true) : exec (.inputUnderrun p side) s =
    .next (updateReady (setDir s p.val side { stopFeeding (dirOf s p.val side) with
      frames := modLast (endFrame [.port 13, .cause 3]) (dirOf s p.val side).frames }) p.val) := by
  have hlive : o.live = true := by
    simp only [missed, Bool.and_eq_true] at h
    exact h.1.1
  simp [exec, execInputUnderrun, ho, hp, h, endOpen_live _ _ _ _ ho hlive]

end

/-! ### A stuck output (R66) -/

section
variable {f : QFrame} {fs : List QFrame} {n : Nat} (hf : (dirOf s p.val side).frames = f :: fs) (ho : isOpen f = true)
  (hn : presentedSince s p.val f = some n)
include hf ho hn

theorem exec_stuck_early (h : s.now ≤ n + stallLimit s p.val) : exec (.portStuck p side) s = .next s := by
  simp [exec, execPortStuck, hf, splitHead_open ho, hn, Nat.not_lt.2 h]

theorem exec_stuck_late (hp : pathOn s = true) (he : portEnabled s p.val = true) (hs : (dirOf s p.val side).stuck = false)
    (h : n + stallLimit s p.val < s.now) : exec (.portStuck p side) s = .next (enterStuck s p.val side) := by
  simp [exec, execPortStuck, hf, splitHead_open ho, hn, hp, he, hs, h]

omit hf ho hn in
theorem fedOrStopped_keeps (fed : Bool) (d : ShimDir) :
    (if fed then d else stopFeeding d).stuck = d.stuck ∧ (if fed then d else stopFeeding d).frames = d.frames := by
  cases fed
  · exact ⟨stopFeeding_stuck d, stopFeeding_frames d⟩
  · exact ⟨rfl, rfl⟩

omit hn in
theorem enterStuck_dir : OnlyPort p.val (raiseCause s (evPort p.val) 2 p.val) (enterStuck s p.val side) ∧
    (dirOf (enterStuck s p.val side) p.val side).stuck = true ∧
    (dirOf (enterStuck s p.val side) p.val side).frames =
      (if isBegun f then f else { f with phase := .begun s.now }) :: fs.map (dropWaiting [.port 18]) := by
  unfold enterStuck
  simp only [hf, splitHead_open ho, List.nil_append]
  refine ⟨(onlyPort_setDir _ _ _ _).trans (onlyPort_updateReady _ _), ?_⟩
  obtain ⟨r, hr⟩ := dirOf_updateReady (setDir (raiseCause s (evPort p.val) 2 p.val) p.val side _) p.val side
  rw [hr, dirOf_setDir_same]
  exact fedOrStopped_keeps _ _

end
end

/-! ### A boundary of a periodic context (R168, R169) -/

theorem dropFramesOf_frames (c word : Nat) (hit : QFrame → Bool) (d : ShimDir) : (dropFramesOf c word hit d).frames =
    d.frames.map (fun f => if hit f then endFrame [.context c word 1] f else f) := by
  unfold dropFramesOf
  dsimp only
  split
  · split
    · rfl
    · exact stopFeeding_frames _
  · rfl

section
variable {s : State} {c bound : Nat}

theorem boundaryOf_none (h : ∀ f ∈ (dirOf s (context s c).port.toNat (contextSide (context s c))).frames,
    earlier c bound s.time.epochL f = false) : boundaryOf s c bound = s := by
  have hany : (dirOf s (context s c).port.toNat (contextSide (context s c))).frames.any (earlier c bound s.time.epochL) = false := by
    rw [List.any_eq_false]
    exact fun f hf => by simp [h f hf]
  simp [boundaryOf, hany]

theorem boundaryOf_some (hp : (context s c).periodic = true)
    (h : ∃ f ∈ (dirOf s (context s c).port.toNat (contextSide (context s c))).frames, earlier c bound s.time.epochL f = true) :
    OnlyPort (context s c).port.toNat (raise s 36 c) (boundaryOf s c bound) ∧
      (dirOf (boundaryOf s c bound) (context s c).port.toNat (contextSide (context s c))).frames =
        (dirOf s (context s c).port.toNat (contextSide (context s c))).frames.map (fun f =>
          if earlier c bound s.time.epochL f then endFrame [.context c (deadlineWord (context s c)) 1] f else f) := by
  have hany : (dirOf s (context s c).port.toNat (contextSide (context s c))).frames.any (earlier c bound s.time.epochL) = true :=
    List.any_eq_true.2 h
  simp only [boundaryOf, hp, hany, Bool.and_self, if_true]
  refine ⟨(onlyPort_setDir _ _ _ _).trans (onlyPort_updateReady _ _), ?_⟩
  obtain ⟨r, hr⟩ := dirOf_updateReady (setDir (raise s evDeadlineDrop c) (context s c).port.toNat (contextSide (context s c))
    (dropFramesOf c (deadlineWord (context s c)) (earlier c bound s.time.epochL)
      (dirOf s (context s c).port.toNat (contextSide (context s c))))) (context s c).port.toNat (contextSide (context s c))
  rw [hr, dirOf_setDir_same]
  exact dropFramesOf_frames _ _ _ _

end

theorem exec_periodBoundary {s : State} (c : Fin 8192) (hp : pathOn s = true) (hz : (context s c.val).period ≠ 0) :
    exec (.periodBoundary c) s = .next (boundaryOf s c.val
      (lastBoundaryNs (context s c.val).period.toNat (context s c.val).phase.toNat (localNs s))) := by
  have hdue : (pathOn s && (context s c.val).period != 0) = true := by simpa [hp] using hz
  exact congrArg _ (if_pos hdue)

/-- Settles O35: each ends its frames once its own limit has passed. -/
theorem lateFramesAreEnded : Obligations.LateFramesAreEnded := by
  refine ⟨fun p side o s ho => ⟨fun hp hc h => ?gap, exec_gap_early ho, fun hp h => ?underrun, exec_underrun_early ho⟩,
    fun p side n f fs s hp hc he hf ho hn => ⟨fun h hs => ?stuck, exec_stuck_early hf ho hn⟩,
    fun c s bound p side word hp hc hper hz hport hside hword hbound => ?boundary⟩
  case gap =>
    obtain ⟨hone, hdir⟩ := skipBroken_dir s p.val side
    obtain ⟨r, hr⟩ := dirOf_updateReady (skipRest (structuralError s p.val side) p.val side) p.val side
    have hall := hone.trans (onlyPort_updateReady _ _)
    obtain ⟨hcount, hpending, -⟩ := errorRaised_recorded hc p.isLt
    refine ⟨_, exec_gap_late ho hp h, ?_, ?_, (hall.ctr _ _).trans hcount, hall.events ▸ hpending, ?_⟩
    all_goals rw [hr, hdir]
    · rfl
    · exact brokenDir_frames ho
  case underrun =>
    obtain ⟨r, hr⟩ := dirOf_updateReady (setDir s p.val side { stopFeeding (dirOf s p.val side) with
      frames := modLast (endFrame [.port 13, .cause 3]) (dirOf s p.val side).frames }) p.val side
    refine ⟨_, exec_underrun_missed ho hp h, ?_, ?_, ((onlyPort_setDir _ _ _ _).trans (onlyPort_updateReady _ _)).1⟩
    all_goals rw [hr, dirOf_setDir_same]
    exact stopFeeding_inp ho
  case stuck =>
    obtain ⟨hone, hstuck, hframes⟩ := enterStuck_dir (p := p) hf ho
    obtain ⟨hpending, hcause⟩ := raiseCause_recorded (s := s) (src := evPort p.val) (b := 2) p.val hc
      (by simp only [evPort]; omega) (by decide)
    exact ⟨_, exec_stuck_late hf ho hn hp he hs h, hstuck, hone.events ▸ hpending, hone.events ▸ hcause, hframes⟩
  case boundary =>
    have hdeadline : word = deadlineWord (context s c.val) := hword
    have hcontext : side = contextSide (context s c.val) := hside
    subst hport hcontext hdeadline hbound
    refine ⟨fun h => ?_, fun h => ?_⟩
    · obtain ⟨hone, hframes⟩ := boundaryOf_some hper h
      exact ⟨_, exec_periodBoundary c hp hz, hone.events ▸ raise_pending_self _ hc (by decide), hframes⟩
    · rw [exec_periodBoundary c hp hz, boundaryOf_none h]

end Sys2Proof.Machine

/-! PROOF. The DRBG: its commands, the samples it collects, and the random words that the host reads (R96, R237, R238, R460). -/

namespace Sys2Proof.Machine

/-! ### A refused host read (R459) -/

theorem commandRead_host_refused {sec : Bool} {priv : BitVec 2} {idx sub : Nat} {s t : State} {c : W32}
    {eff : State → State × Except W32 Bytes} (h : hostReads sec priv idx sub s = true) (he : eff s = (t, .error c)) :
    commandRead (.host sec priv) idx sub eff s = hostRefused sec priv c t := by
  simp only [hostReads, Bool.and_eq_true, Option.isNone_iff_eq_none] at h
  simp only [commandRead, accepts, h.1, h.2, authOf, he, Bool.not_true, Bool.false_eq_true, if_false, hostRefused]

theorem takeSnapshot_frame (idx sub : Nat) (v : Bytes) (s : State) :
    takeSnapshot idx sub v s = { s with server := (takeSnapshot idx sub v s).server } := by
  unfold takeSnapshot; split <;> rfl

/-! ### The commands (R237, R238) -/

section
variable {s : State}

theorem drbgCommand_one_idle (pass : Bool) (h : s.keys.drbg.phase = .uninstantiated) :
    drbgCommand pass [1] s = done (startInstantiation s pass) := by
  simp [drbgCommand, h]

theorem drbgCommand_one_busy (pass : Bool) (h : s.keys.drbg.phase ≠ .uninstantiated) :
    drbgCommand pass [1] s = refuse errState s := by
  have hv : valueOf [(1 : Byte)] = 1 := rfl
  unfold drbgCommand
  split
  · contradiction
  · rfl
  all_goals simp_all

theorem drbgCommand_two_ready (pass : Bool) (h : s.keys.drbg.phase = .ready) :
    drbgCommand pass [2] s = done (startCollect s .reseeding) := by
  simp [drbgCommand, h]

theorem drbgCommand_two_reseeding (pass : Bool) (h : s.keys.drbg.phase = .reseeding) : drbgCommand pass [2] s = done s := by
  simp [drbgCommand, h]

theorem drbgReady_eq_false_iff : drbgReady s = false ↔
    s.keys.drbg.phase = .uninstantiated ∨ s.keys.drbg.phase = .instantiating := by
  rw [drbgReady]
  cases s.keys.drbg.phase <;> decide

theorem drbgCommand_two_notReady (pass : Bool) (h : drbgReady s = false) : drbgCommand pass [2] s = refuse errState s := by
  rcases drbgReady_eq_false_iff.1 h with h | h <;> simp [drbgCommand, h]

end

/-! ### A sample joins the collection (R96) -/

section
variable {v : W32} {s : State} {need : Nat} {finish : State → State}

/-- How often a sample has come in a row with the one that arrives. -/
def runWith (d : Drbg) (v : W32) : Nat :=
  match d.repeated with
  | some (w, n) => if w = v then n + 1 else 1
  | none => 1

/-- The DRBG with one more sample. -/
def sampled (s : State) (v : W32) : Drbg :=
  { s.keys.drbg with
    samples := s.keys.drbg.samples ++ wordBytes v, entropyBits := s.keys.drbg.entropyBits + regN s 0x3808 1
    repeated := some (v, runWith s.keys.drbg v), sampleSeen := true }

theorem collectSample_eq (s : State) (v : W32) (need : Nat) (finish : State → State) : collectSample s v need finish =
    if 4 ≤ runWith s.keys.drbg v then raise (startCollect s s.keys.drbg.phase) 71 0
    else if need ≤ s.keys.drbg.entropyBits + regN s 0x3808 1 then finish (setDrbg s (sampled s v))
    else setDrbg s (sampled s v) := rfl

theorem runWith_repeated {n : Nat} (h : s.keys.drbg.repeated = some (v, n)) : runWith s.keys.drbg v = n + 1 := by
  simp [runWith, h]

theorem runWith_lt_four (h : ∀ n, s.keys.drbg.repeated = some (v, n) → n < 3) : runWith s.keys.drbg v < 4 := by
  unfold runWith
  split
  · rename_i w n hr
    split
    · rename_i hw
      subst hw
      have := h n hr
      omega
    · decide
  · decide

theorem collectSample_fourth {n : Nat} (hn : 3 ≤ n) (h : s.keys.drbg.repeated = some (v, n)) :
    collectSample s v need finish = raise (startCollect s s.keys.drbg.phase) 71 0 := by
  rw [collectSample_eq, if_pos (by rw [runWith_repeated h]; omega)]

section
variable (h : ∀ n, s.keys.drbg.repeated = some (v, n) → n < 3)
include h

theorem collectSample_more (hneed : s.keys.drbg.entropyBits + regN s 0x3808 1 < need) :
    collectSample s v need finish = setDrbg s (sampled s v) := by
  rw [collectSample_eq, if_neg (Nat.not_le.2 (runWith_lt_four h)), if_neg (Nat.not_le.2 hneed)]

theorem collectSample_enough (hneed : need ≤ s.keys.drbg.entropyBits + regN s 0x3808 1) :
    collectSample s v need finish = finish (setDrbg s (sampled s v)) := by
  rw [collectSample_eq, if_neg (Nat.not_le.2 (runWith_lt_four h)), if_pos hneed]

end
end

/-! ### The collection has its entropy (R231, R237, R238) -/

theorem afterDrbg_collecting {s : State} (h : s.keys.drbg.phase = .instantiating) : afterDrbg s = s := by
  unfold afterDrbg
  split
  · simp_all
  · rfl

/-- A DRBG that becomes ready ends an exit that waits for it, and leaves the keys. -/
theorem afterDrbg_keys (s : State) : (afterDrbg s).keys = s.keys := by
  unfold afterDrbg
  split
  · exact reportS0_keys _ _
  · rfl

theorem afterDrbg_ready {s : State} {k : BitVec 3} (hp : s.keys.drbg.phase = .ready) (ht : s.power.transition = .entropy k) :
    afterDrbg s = reportS0 s k := by
  simp [afterDrbg, hp, ht]

theorem finishInstantiation_power (s : State) : (finishInstantiation s).power = s.power := by
  unfold finishInstantiation
  dsimp only
  split <;> rfl

theorem finishInstantiation_keys (s : State) : (finishInstantiation s).keys.drbg.phase = .ready ∧
    (finishInstantiation s).keys.drbg.samples = [] ∧ (finishInstantiation s).keys.remaskStart = s.now ∧
    (finishInstantiation s).keys.permDrawn = true := by
  unfold finishInstantiation
  dsimp only
  split
  · rename_i h; exact ⟨rfl, rfl, rfl, h⟩
  · exact ⟨rfl, rfl, rfl, rfl⟩

theorem drbgReady_of_ready {s : State} (h : s.keys.drbg.phase = .ready) : drbgReady s = true := by
  simp [drbgReady, h]

/-! ### The input en_data -/

section
variable {v : W32} {s : State}

theorem exec_entropySample_instantiating (hc : ctlOn s = true) (h : s.keys.drbg.phase = .instantiating) :
    exec (.entropySample v) s = .next (afterDrbg (collectSample s v 384 finishInstantiation)) := by
  simp [exec, execEntropySample, hc, h]

theorem exec_entropySample_reseeding (hc : ctlOn s = true) (h : s.keys.drbg.phase = .reseeding) :
    exec (.entropySample v) s = .next (collectSample s v 256 finishReseed) := by
  simp [exec, execEntropySample, hc, h]

theorem exec_entropySample_idle (h : s.keys.drbg.phase = .uninstantiated ∨ s.keys.drbg.phase = .ready) :
    exec (.entropySample v) s = .next s := by
  rcases h with h | h <;> simp [exec, execEntropySample, h]

/-- The collection is one of an instantiation, which needs 384 bits, or one of a reseed, which needs 256. -/
def Collects (s : State) (need : Nat) : Prop :=
  (s.keys.drbg.phase = .instantiating ∧ need = 384) ∨ (s.keys.drbg.phase = .reseeding ∧ need = 256)

/-- While the collection goes on nothing waits for its end. -/
theorem exec_entropySample_goesOn {need : Nat} (hc : ctlOn s = true) (h : Collects s need) {t : State}
    (ht : ∀ finish, collectSample s v need finish = t) (hphase : t.keys.drbg.phase = s.keys.drbg.phase) :
    exec (.entropySample v) s = .next t := by
  rcases h with ⟨h, rfl⟩ | ⟨h, rfl⟩
  · rw [exec_entropySample_instantiating hc h, ht, afterDrbg_collecting (hphase.trans h)]
  · rw [exec_entropySample_reseeding hc h, ht]

section
variable (hc : ctlOn s = true) (hn : ∀ n, s.keys.drbg.repeated = some (v, n) → n < 3)
include hc hn

theorem exec_entropySample_instantiated (h : s.keys.drbg.phase = .instantiating)
    (hneed : 384 ≤ s.keys.drbg.entropyBits + regN s 0x3808 1) :
    ∃ t, exec (.entropySample v) s = .next t ∧ t.keys.drbg.phase = .ready ∧ t.keys.drbg.samples = [] ∧
      t.keys.remaskStart = s.now ∧ t.keys.permDrawn = true ∧
      ∀ k, s.power.transition = .entropy k → t.power.transition = .idle ∧ t.power.present = 0 ∧ t.power.lastLeft = k := by
  obtain ⟨hphase, hsamples, hstart, hperm⟩ := finishInstantiation_keys (setDrbg s (sampled s v))
  have hpower : (finishInstantiation (setDrbg s (sampled s v))).power = s.power := finishInstantiation_power _
  refine ⟨_, by rw [exec_entropySample_instantiating hc h, collectSample_enough hn hneed], ?_, ?_, ?_, ?_, fun k hk => ?_⟩
  · rw [afterDrbg_keys]; exact hphase
  · rw [afterDrbg_keys]; exact hsamples
  · rw [afterDrbg_keys]; exact hstart
  · rw [afterDrbg_keys]; exact hperm
  · rw [afterDrbg_ready hphase (hpower ▸ hk), reportS0_power]
    exact ⟨rfl, rfl, rfl⟩

theorem exec_entropySample_reseeded (h : s.keys.drbg.phase = .reseeding)
    (hneed : 256 ≤ s.keys.drbg.entropyBits + regN s 0x3808 1) :
    exec (.entropySample v) s = .next (finishReseed (setDrbg s (sampled s v))) := by
  rw [exec_entropySample_reseeding hc h, collectSample_enough hn hneed]

end
end

/-! ### Limits and reads -/

theorem exec_reseedInterval (s : State) : exec .reseedInterval s = .next (if s.keys.drbg.phase = .ready ∧
    elapsed s s.keys.drbg.reseedStart (secCycles (regN s 0x3808 5)) = true then startCollect s .reseeding else s) := by
  simp [exec, execReseedInterval]

theorem exec_entropyAbsent {s : State} (hp : s.keys.drbg.phase = .instantiating ∨ s.keys.drbg.phase = .reseeding)
    (hs : s.keys.drbg.sampleSeen = false) (ha : s.keys.drbg.absentRaised = false) :
    exec .entropyAbsent s = .next (if elapsed s s.keys.drbg.collectStart (msCycles 10) then
      raise (setDrbg s { s.keys.drbg with absentRaised := true }) 72 0 else s) := by
  simp [exec, execEntropyAbsent, hp, hs, ha, evEntropyAbsent]

theorem exec_drbgOutputRead {sec : Bool} {priv : BitVec 2} {s : State} (h : hostReads sec priv 0x3808 4 s = true) :
    exec (.drbgOutputRead (.host sec priv)) s = .next (if drbgServes s then
      hpAnswer 0 ((hostWords (draw s 8).1).getLastD 0) (takeSnapshot 0x3808 4 (draw s 8).1 (draw s 8).2)
    else hostRefused sec priv errState s) := by
  have heff : drbgOutput s = if drbgServes s then ((draw s 8).2, .ok (draw s 8).1) else (s, .error errState) := rfl
  rw [exec, execDrbgOutputRead]
  split
  · rename_i hs
    rw [if_pos hs] at heff
    rw [commandRead_host h heff]
  · rename_i hs
    rw [if_neg hs] at heff
    rw [commandRead_host_refused h heff]

/-- Settles O45: by the phase of the DRBG, the run of equal samples, and the entropy collected. -/
theorem theDrbgCollectsAndServes : Obligations.TheDrbgCollectsAndServes := by
  refine ⟨fun sec priv pass s hw => ⟨fun h => ?starts, fun h => ?started⟩,
    fun sec priv s hw => ⟨fun h => ?reseeds, fun h => ?joins, fun h => ?notReady⟩, exec_reseedInterval,
    fun v s need hc h => ⟨fun n hn hr => ?fourth, fun hn => ⟨fun hneed => ?more, fun hneed => ?enough⟩⟩,
    fun v s => exec_entropySample_idle, fun s => exec_entropyAbsent, fun sec priv s hr => ⟨fun h => ?reads, fun h => ?refused⟩⟩
  case starts =>
    rw [exec, execDrbgInstantiate, commandWrite_host_done hw (drbgCommand_one_idle pass h)]
    rfl
  case started => rw [exec, execDrbgInstantiate, commandWrite_host_refused hw (drbgCommand_one_busy pass h)]
  case reseeds => rw [exec, execDrbgReseed, commandWrite_host_done hw (drbgCommand_two_ready true h)]
  case joins => rw [exec, execDrbgReseed, commandWrite_host_done hw (drbgCommand_two_reseeding true h)]
  case notReady => rw [exec, execDrbgReseed, commandWrite_host_refused hw (drbgCommand_two_notReady true h)]
  case fourth =>
    have hkeys : (raise (startCollect s s.keys.drbg.phase) 71 0).keys = (startCollect s s.keys.drbg.phase).keys := raise_keys _ _ _
    refine ⟨_, exec_entropySample_goesOn hc h (fun finish => collectSample_fourth hn hr) (by rw [hkeys]; rfl), ?_, ?_, ?_,
      raise_pending_self _ hc (by decide)⟩
    all_goals rw [hkeys]; rfl
  case more =>
    exact ⟨_, exec_entropySample_goesOn hc h (fun finish => collectSample_more hn hneed) rfl, rfl, rfl, rfl, rfl⟩
  case enough =>
    rcases h with ⟨h, rfl⟩ | ⟨h, rfl⟩
    · obtain ⟨t, ht, hphase, hsamples, hstart, hperm, hexit⟩ := exec_entropySample_instantiated hc hn h hneed
      exact ⟨t, ht, drbgReady_of_ready hphase, hphase, hsamples, fun h => by simp at h, fun _ => ⟨hstart, hperm, hexit⟩⟩
    · exact ⟨_, exec_entropySample_reseeded hc hn h hneed, drbgReady_of_ready rfl, rfl, rfl,
        fun _ => ⟨rfl, rfl, ctr_bump_same _ _ _⟩, fun h => by simp at h⟩
  case reads =>
    rw [exec_drbgOutputRead hr, if_pos h]
    refine ⟨_, rfl, rfl, ?_, ?_⟩
    all_goals rw [takeSnapshot_frame]; rfl
  case refused => rw [exec_drbgOutputRead hr, h]; rfl

end Sys2Proof.Machine

/-! PROOF. Giving up: what the endings of heavy operations leave of the arbiter's record (R428 to R431, Table 12.6). -/

namespace Sys2Proof.Machine

/-! ### What an ending leaves of the arbiter

An operation that ends gives up grants, places in a queue and its handshake. It obtains none, takes no part in `pg_grant`
and counts nothing in 0x4A01. -/

/-- State `s` is state `a` after endings. -/
structure GivesUp (a s : State) : Prop where
  pgGrant : s.grants.pgGrant = a.grants.pgGrant
  pgReq : a.grants.pgReq = false → s.grants.pgReq = false
  handshake : a.grants.handshake = none → s.grants.handshake = none
  withdrawn : a.grants.withdrawn = true → s.grants.withdrawn = true
  held : ∀ op, grantHeld a op = false → grantHeld s op = false
  queued : ∀ op, grantQueued a op = false → grantQueued s op = false
  counts : ∀ j < 256, ctr s 0x4A01 j = ctr a 0x4A01 j

theorem GivesUp.trans {a b c : State} (h : GivesUp a b) (k : GivesUp b c) : GivesUp a c where
  pgGrant := k.pgGrant.trans h.pgGrant
  pgReq hq := k.pgReq (h.pgReq hq)
  handshake hq := k.handshake (h.handshake hq)
  withdrawn hq := k.withdrawn (h.withdrawn hq)
  held op hq := k.held op (h.held op hq)
  queued op hq := k.queued op (h.queued op hq)
  counts j hj := (k.counts j hj).trans (h.counts j hj)

theorem GivesUp.of_eq {a s : State} (hg : s.grants = a.grants) (hc : s.ctrs = a.ctrs) : GivesUp a s where
  pgGrant := by rw [hg]
  pgReq := by rw [hg]; exact id
  handshake := by rw [hg]; exact id
  withdrawn := by rw [hg]; exact id
  held op := by rw [grantHeld, grantHeld, hg]; exact id
  queued op := by rw [grantQueued, grantQueued, hg]; exact id
  counts j _ := by rw [ctr, ctr, hc]

theorem GivesUp.refl (a : State) : GivesUp a a := .of_eq rfl rfl

/-- A count in another object is none of the arbiter's. -/
theorem GivesUp.bumpBy {i : Nat} (s : State) (j n : Nat) (hi : i ≠ 0x4A01) (hj : j < 256) : GivesUp s (bumpBy s i j n) where
  pgGrant := rfl
  pgReq := id
  handshake := id
  withdrawn := id
  held _ := id
  queued _ := id
  counts k hk := ctr_bumpBy_ne s i j n 0x4A01 k (by simp only [oa]; omega)

theorem GivesUp.raise (s : State) (src d : Nat) : GivesUp s (raise s src d) := .of_eq (by simp) (by simp)

/-- A fold of steps that each give up gives up. -/
theorem GivesUp.foldl {α : Type} {f : State → α → State} (hf : ∀ s x, GivesUp s (f s x)) (l : List α) (s : State) :
    GivesUp s (l.foldl f s) := by
  induction l generalizing s with
  | nil => exact .refl s
  | cons x l ih => exact (hf s x).trans (ih (f s x))

/-! ### A release -/

section
variable (s : State) (op : HeavyOp)

/-- A release withdraws the handshake of its operation and leaves any other. -/
theorem inHandshake_releaseGrant (o : HeavyOp) :
    inHandshake (releaseGrant s op).grants o = (inHandshake s.grants o && !inHandshake s.grants op) := by
  have h : (releaseGrant s op).grants.handshake = if inHandshake s.grants op then none else s.grants.handshake := rfl
  rcases hh : inHandshake s.grants op with _ | _
  · rw [hh, if_neg Bool.false_ne_true] at h
    simp [inHandshake, h]
  · rw [hh, if_pos rfl] at h
    simp [inHandshake, h]

theorem releaseGrant_notQueued : grantQueued (releaseGrant s op) op = false := by
  rw [grantQueued, inHandshake_releaseGrant]
  simp [releaseGrant]

theorem releaseGrant_givesUp : GivesUp s (releaseGrant s op) where
  pgGrant := rfl
  pgReq h := by simp [releaseGrant, h]
  handshake h := by simp [releaseGrant, h]
  withdrawn h := by simp [releaseGrant, h]
  held o h := by
    simp only [grantHeld, releaseGrant, List.any_filter, List.any_eq_false] at h ⊢
    intro g hg
    simp [h g hg]
  queued o h := by
    simp only [grantQueued, Bool.or_eq_false_iff, List.any_eq_false] at h ⊢
    obtain ⟨⟨hi, he⟩, hs⟩ := h
    refine ⟨⟨?_, ?_⟩, ?_⟩
    · simp only [releaseGrant, List.mem_filter]
      exact fun g hg => hi g hg.1
    · simp only [releaseGrant, List.mem_filter]
      exact fun g hg => he g hg.1
    · rw [inHandshake_releaseGrant, hs]; rfl
  counts _ _ := rfl

/-- `pg_req` falls with the release of an external grant (R429 step 3). -/
theorem releaseGrant_pgReq {g : GrantHeld} (hm : g ∈ s.grants.held) (ho : g.op = op) (he : g.external = true) :
    (releaseGrant s op).grants.pgReq = false := by
  have h : s.grants.held.any (fun g => g.op == op && g.external) = true := List.any_eq_true.mpr ⟨g, hm, by simp [ho, he]⟩
  simp [releaseGrant, h]

/-- A released operation that asks again waits without a limit (R431). -/
theorem requestGrant_again (b : Bool) : grantHeld (requestGrant (releaseGrant s op) op b) op = false ∧
    grantQueued (requestGrant (releaseGrant s op) op b) op = true ∧
    ∀ x ∈ (requestGrant (releaseGrant s op) op b).grants.internalQ ++ (requestGrant (releaseGrant s op) op b).grants.externalQ,
      x.op = op → x.noTimeout = b := by
  have hh := releaseGrant_gone s op
  have hq := releaseGrant_notQueued s op
  have hout : ∀ x ∈ (releaseGrant s op).grants.internalQ ++ (releaseGrant s op).grants.externalQ, x.op = op → x.noTimeout = b := by
    intro x hx ho
    simp [releaseGrant, ho] at hx
  rw [requestGrant, hh, hq]
  simp only [Bool.or_self, Bool.false_eq_true, if_false]
  split
  · refine ⟨hh, by simp [grantQueued], fun x hx ho => ?_⟩
    simp only [List.append_assoc, List.mem_append, List.mem_singleton] at hx hout
    rcases hx with hx | rfl | hx
    · exact hout x (.inl hx) ho
    · rfl
    · exact hout x (.inr hx) ho
  · refine ⟨hh, by simp [grantQueued], fun x hx ho => ?_⟩
    simp only [List.mem_append, List.mem_singleton] at hx hout
    rcases hx with hx | hx | rfl
    · exact hout x (.inl hx) ho
    · exact hout x (.inr hx) ho
    · rfl

theorem requestGrant_pgGrant (b : Bool) : (requestGrant s op b).grants.pgGrant = s.grants.pgGrant := by
  rw [requestGrant]; dsimp only; (repeat' split) <;> rfl

theorem requestGrant_pgReq (b : Bool) : (requestGrant s op b).grants.pgReq = s.grants.pgReq := by
  rw [requestGrant]; dsimp only; (repeat' split) <;> rfl

end

/-! ### The key store: batches and stagings -/

theorem unstage_frame (s : State) (k : W16) : unstage s k = { s with keys := (unstage s k).keys } := by
  unfold unstage; dsimp only; split <;> rfl

theorem unstage_givesUp (s : State) (k : W16) : GivesUp s (unstage s k) := by
  rw [unstage_frame]; exact .of_eq rfl rfl

theorem abortStaging_givesUp (s : State) (c : BitVec 4) : GivesUp s (abortStaging s c) := by
  unfold abortStaging
  split
  · exact .refl s
  · exact (unstage_givesUp s _).trans (.of_eq rfl rfl)

theorem foldl_unstage_frame (f : Nat → W16) (l : List Nat) (s : State) :
    l.foldl (fun s i => unstage s (f i)) s = { s with keys := (l.foldl (fun s i => unstage s (f i)) s).keys } := by
  induction l generalizing s with
  | nil => rfl
  | cons i l ih => rw [List.foldl_cons, ih, unstage_frame]

/-- The end of a batch changes the key store, and releases the derivation's grant when there was a batch. -/
theorem endBatch_frame (s : State) (c : BitVec 4) : endBatch s c = { s with
    keys := (endBatch s c).keys, grants := if s.keys.batch = none then s.grants else (releaseGrant s .derivation).grants } := by
  unfold endBatch
  split
  · next h => rw [h, if_pos rfl]
  · next b h =>
    rw [h, if_neg (Option.some_ne_none b)]
    dsimp only
    rw [foldl_unstage_frame]
    rfl

theorem endBatch_givesUp (s : State) (c : BitVec 4) : GivesUp s (endBatch s c) := by
  rw [endBatch_frame]
  split
  · exact .of_eq rfl rfl
  · exact (releaseGrant_givesUp s .derivation).trans (.of_eq rfl rfl)

theorem endBatch_deriveCode {s : State} (c : BitVec 4) (h : s.keys.batch.isSome = true) : (endBatch s c).keys.deriveCode = c := by
  obtain ⟨b, hb⟩ := Option.isSome_iff_exists.mp h
  simp only [endBatch, hb]
  rfl

/-- A zeroization releases the grant of a derivation only. -/
theorem zeroizeBank_grantHeld (s : State) (r : Bool) {op : HeavyOp} (ho : op ≠ .derivation) (h : grantHeld s op = true) :
    grantHeld (zeroizeBank s r) op = true := by
  have ha : ∀ s : State, ∀ c, (abortStaging s c).grants = s.grants := by
    intro s c
    unfold abortStaging
    split
    · rfl
    · next st _ =>
      show (unstage s st.target).grants = _
      rw [unstage_frame]
  have he : ∀ s : State, ∀ c, grantHeld s op = true → grantHeld (endBatch s c) op = true := by
    intro s c h
    rw [endBatch_frame]
    split
    · exact h
    · obtain ⟨g, hg, hop⟩ := List.any_eq_true.mp h
      refine List.any_eq_true.mpr ⟨g, List.mem_filter.mpr ⟨hg, ?_⟩, hop⟩
      simpa [eq_of_beq hop] using ho
  exact he _ _ (by rw [grantHeld, ha]; exact h)

/-! ### Attestation, the classifier, regions, the spare pipelines and the trunks -/

theorem noteRefusal_frame (s : State) : noteRefusal s = { s with
    ctrs := (bump s 0x3A03 4).ctrs, events := (noteRefusal s).events, attest := (noteRefusal s).attest } := by
  unfold noteRefusal; dsimp only
  split
  · rfl
  · rw [raise_frame]; rfl

theorem noteRefusal_givesUp (s : State) : GivesUp s (noteRefusal s) := by
  rw [noteRefusal_frame]
  exact (GivesUp.bumpBy (i := 0x3A03) s 4 1 (by decide) (by decide)).trans (.of_eq rfl rfl)

theorem endRequest_givesUp (s : State) (c : BitVec 4) : GivesUp s (endRequest s c) :=
  (releaseGrant_givesUp s .signing).trans (.of_eq rfl rfl)

theorem abandonRequest_givesUp (s : State) (c : BitVec 4) : GivesUp s (abandonRequest s c) := by
  unfold abandonRequest
  split
  · exact endRequest_givesUp s c
  · exact .refl s

theorem abandonRequest_ends (s : State) (c : BitVec 4) : (abandonRequest s c).attest.running = none ∧
    (s.attest.running.isSome = true → (abandonRequest s c).attest.code = c) := by
  rcases h : s.attest.running with _ | q
  · simp [abandonRequest, h]
  · simp [abandonRequest, h, endRequest]

theorem signingDenied_givesUp (s : State) : GivesUp s (signingDenied s) := by
  unfold signingDenied
  split
  · exact (noteRefusal_givesUp s).trans (endRequest_givesUp _ 6)
  · exact .refl s

theorem signingDenied_ends (s : State) : (signingDenied s).attest.running = none ∧
    (s.attest.running.isSome = true → (signingDenied s).attest.code = 6) := by
  rcases h : s.attest.running with _ | q
  · simp [signingDenied, h]
  · simp [signingDenied, h, endRequest]

theorem endRebuild_givesUp (s : State) (c : BitVec 4) : GivesUp s (endRebuild s c) := by
  unfold endRebuild
  split
  · exact .refl s
  · exact (releaseGrant_givesUp s .rebuild).trans (.of_eq rfl rfl)

theorem endRebuild_ends (s : State) (c : BitVec 4) : (endRebuild s c).cls.rebuild = none ∧
    (s.cls.rebuild.isSome = true → (endRebuild s c).cls.rebuildCode = c) := by
  rcases h : s.cls.rebuild with _ | q
  · simp [endRebuild, h]
  · simp [endRebuild, h, setCls]

theorem releaseKey_frame (s : State) (k : W16) : releaseKey s k = { s with keys := (releaseKey s k).keys } := by
  unfold releaseKey
  split <;> rfl

theorem releaseKey_givesUp (s : State) (k : W16) : GivesUp s (releaseKey s k) := by
  rw [releaseKey_frame]; exact .of_eq rfl rfl

theorem endRun_givesUp (s : State) (r : Region) (c : BitVec 4) : GivesUp s (endRun s r c) :=
  GivesUp.trans (b := setRegionDyn s r { regionDyn s r with run := none, code := c }) (.of_eq rfl rfl) (releaseGrant_givesUp _ _)

theorem endRun_ends (s : State) (r : Region) (c : BitVec 4) :
    (regionDyn (endRun s r c) r).run = none ∧ (regionDyn (endRun s r c) r).code = c := by
  have h : regionDyn (endRun s r c) r = { regionDyn s r with run := none, code := c } :=
    spGet_spSet_same regionDefault s.mem.regions r.val _
  rw [h]
  exact ⟨rfl, rfl⟩

theorem regionDenied_none {s : State} {r : Region} (h : (regionDyn s r).run = none) : regionDenied s r = s := by
  simp only [regionDenied, h]

/-- A region command without a grant ends with code 3; a rekey has let go of its next key. -/
theorem regionDenied_some {s : State} {r : Region} (h : (regionDyn s r).run ≠ none) :
    ∃ s1, GivesUp s s1 ∧ s1.events = s.events ∧ regionDenied s r = endRun s1 r 3 := by
  obtain ⟨run, hr⟩ := Option.ne_none_iff_exists'.mp h
  simp only [regionDenied, hr]
  split
  · have hk := releaseKey_givesUp s (regionDyn s r).nextRef
    refine ⟨setRegionDyn (releaseKey s (regionDyn s r).nextRef) r { regionDyn (releaseKey s (regionDyn s r).nextRef) r with
      nextBound := false, nextRef := keyNone }, hk.trans (.of_eq rfl rfl), ?_, rfl⟩
    show (releaseKey s (regionDyn s r).nextRef).events = s.events
    rw [releaseKey_frame]
  · exact ⟨s, .refl s, rfl, rfl⟩

theorem regionDenied_givesUp (s : State) (r : Region) : GivesUp s (regionDenied s r) := by
  by_cases h : (regionDyn s r).run = none
  · rw [regionDenied_none h]; exact .refl s
  · obtain ⟨s1, h1, -, he⟩ := regionDenied_some h
    rw [he]
    exact h1.trans (endRun_givesUp s1 r 3)

theorem regionDenied_ends (s : State) (r : Region) : (regionDyn (regionDenied s r) r).run = none ∧
    ((regionDyn s r).run.isSome = true → (regionDyn (regionDenied s r) r).code = 3) := by
  by_cases h : (regionDyn s r).run = none
  · rw [regionDenied_none h, h]
    exact ⟨rfl, nofun⟩
  · obtain ⟨s1, -, -, he⟩ := regionDenied_some h
    rw [he]
    exact ⟨(endRun_ends s1 r 3).1, fun _ => (endRun_ends s1 r 3).2⟩

theorem endBist_givesUp (s : State) (c : BitVec 3) : GivesUp s (endBist s c) :=
  GivesUp.trans (b := setFaults s { s.faults with bist := .none, bistResult := c }) (.of_eq rfl rfl) (releaseGrant_givesUp _ _)

theorem spareNotRun_givesUp (s : State) : GivesUp s (spareNotRun s) :=
  GivesUp.trans (b := setFaults s { s.faults with spareBist := .none, spareLast := 3, spareStart := s.now }) (.of_eq rfl rfl)
    (releaseGrant_givesUp _ _)

/-- The third column of Table 12.6 for training: backoff, with the code of the failure. -/
theorem trainingFailure_eq (s : State) (t : Trunk) (c : Nat) : ∃ s1, GivesUp s s1 ∧
    trainingFailure s t c = updTrunk s1 t (fun x => { quiet x with
      state := .backoff, failures := (trunk s t).failures + 1, failRaised := true, lastFail := c, backoffStart := s.now }) := by
  have h : GivesUp s (releaseGrant (mgmtCtr s t 3 1) (.training t)) :=
    (GivesUp.bumpBy (i := 0x4015 + t.val) s 3 1 (by omega) (by decide)).trans (releaseGrant_givesUp _ _)
  unfold trainingFailure
  dsimp only
  split
  · exact ⟨_, h.trans (.raise _ _ _), rfl⟩
  · exact ⟨_, h, rfl⟩

theorem trainingFailure_givesUp (s : State) (t : Trunk) (c : Nat) : GivesUp s (trainingFailure s t c) := by
  obtain ⟨s1, h, he⟩ := trainingFailure_eq s t c
  rw [he]
  exact h.trans (.of_eq rfl rfl)

@[simp] theorem trunk_updTrunk_same (s : State) (t : Trunk) (f : TrunkSt → TrunkSt) : trunk (updTrunk s t f) t = f (trunk s t) :=
  spGet_spSet_same trunkDefault s.trunks t.val _

theorem trainingFailure_ends (s : State) (t : Trunk) (c : Nat) :
    (trunk (trainingFailure s t c) t).state = .backoff ∧ (trunk (trainingFailure s t c) t).lastFail = c := by
  obtain ⟨s1, -, he⟩ := trainingFailure_eq s t c
  rw [he, trunk_updTrunk_same]
  exact ⟨rfl, rfl⟩

theorem trainingRevoked_givesUp (s : State) (t : Trunk) : GivesUp s (trainingRevoked s t) := by
  unfold trainingRevoked
  split
  · exact trainingFailure_givesUp s t 5
  · exact trainingFailure_givesUp s t 5
  · exact trainingFailure_givesUp s t 5
  · exact .refl s

/-! ### A denied request (second column of Table 12.6) -/

theorem deniedGrant_givesUp (s : State) (op : HeavyOp) : GivesUp s (deniedGrant s op) := by
  cases op with
  | derivation => exact endBatch_givesUp s 8
  | signing => exact signingDenied_givesUp s
  | rebuild => exact endRebuild_givesUp s 3
  | regionOp r => exact regionDenied_givesUp s r
  | fullBist => exact endBist_givesUp s 3
  | spareBist => exact spareNotRun_givesUp s
  | remask => exact .refl s
  | training t => exact .refl s
  | renorm k => exact .refl s

theorem deniedGrant_pending {s : State} {e : Nat} (op : HeavyOp) (h : s.events.pending.getLsbD e = true) :
    (deniedGrant s op).events.pending.getLsbD e = true := by
  cases op with
  | derivation => rw [deniedGrant, endBatch_frame]; exact h
  | signing =>
    rw [deniedGrant, signingDenied]
    split
    · show (noteRefusal s).events.pending.getLsbD e = true
      unfold noteRefusal
      dsimp only
      split
      · exact h
      · exact raise_pending_of_pending _ _ (s := bump s 0x3A03 4) h
    · exact h
  | rebuild =>
    rw [deniedGrant, endRebuild]
    split <;> exact h
  | regionOp r =>
    rw [deniedGrant]
    by_cases hr : (regionDyn s r).run = none
    · rw [regionDenied_none hr]; exact h
    · obtain ⟨s1, -, h1, he⟩ := regionDenied_some hr
      rw [he]
      show s1.events.pending.getLsbD e = true
      rw [h1]; exact h
  | fullBist => exact h
  | spareBist => exact h
  | remask => exact h
  | training t => exact h
  | renorm k => exact h

end Sys2Proof.Machine

/-! PROOF. An abandoned full BIST leaves the arbiter as any ending does (R441, R480, log of Table 12.6). -/

namespace Sys2Proof.Machine

/-! ### Arrays in cold-reset content

A row that fails has its unit retired. In the tables and the counter cache the content of that unit would move elsewhere, but
an array whose test has ended is empty, so there is nothing to move. -/

/-- Array `n`, when it is a table or the counter cache, holds nothing. -/
def ColdArray (n : Nat) (s : State) : Prop :=
  match n with
  | 3 => s.cls.stream = [] ∧ s.cls.stash = []
  | 4 => s.cls.station = []
  | 5 => s.cls.pfxEntries = []
  | 6 => s.mem.cache = []
  | _ => True

/-- State `s` is state `a` after steps of a test: endings, and no array filled. -/
structure Tests (a s : State) : Prop where
  givesUp : GivesUp a s
  cold : ∀ n, ColdArray n a → ColdArray n s

theorem Tests.trans {a b c : State} (h : Tests a b) (k : Tests b c) : Tests a c :=
  ⟨h.givesUp.trans k.givesUp, fun n hn => k.cold n (h.cold n hn)⟩

theorem ColdArray.of_eq {a s : State} (hc : s.cls = a.cls) (hm : s.mem = a.mem) (n : Nat) (h : ColdArray n a) : ColdArray n s := by
  unfold ColdArray at h ⊢
  rw [hc, hm]
  exact h

theorem Tests.of_givesUp {a s : State} (h : GivesUp a s) (hc : s.cls = a.cls) (hm : s.mem = a.mem) : Tests a s :=
  ⟨h, ColdArray.of_eq hc hm⟩

theorem Tests.of_eq {a s : State} (hg : s.grants = a.grants) (hn : s.ctrs = a.ctrs) (hc : s.cls = a.cls) (hm : s.mem = a.mem) :
    Tests a s := .of_givesUp (.of_eq hg hn) hc hm

/-- A step of a test after a change of fields that a test does not speak of. -/
theorem Tests.after {a b s : State} (k : Tests b s) (hg : b.grants = a.grants) (hn : b.ctrs = a.ctrs) (hc : b.cls = a.cls)
    (hm : b.mem = a.mem) : Tests a s := (Tests.of_eq hg hn hc hm).trans k

theorem Tests.refl (a : State) : Tests a a := .of_eq rfl rfl rfl rfl

theorem Tests.raise (s : State) (src d : Nat) : Tests s (raise s src d) := .of_eq (by simp) (by simp) (by simp) (by simp)

theorem Tests.setCls {s : State} {c : Classifier} (h : ∀ n, ColdArray n s → ColdArray n (setCls s c)) : Tests s (setCls s c) :=
  ⟨.of_eq rfl rfl, h⟩

theorem Tests.foldl {α : Type} {f : State → α → State} (hf : ∀ s x, Tests s (f s x)) (l : List α) (s : State) :
    Tests s (l.foldl f s) := by
  induction l generalizing s with
  | nil => exact .refl s
  | cons x l ih => exact (hf s x).trans (ih (f s x))

theorem remarkRetired_tests (s : State) : Tests s (remarkRetired s) := by
  refine Tests.foldl (fun s e => ?_) _ s
  dsimp only
  (repeat' split) <;> exact .of_eq rfl rfl rfl rfl

/-- Entries taken out of a store by their numbers leave what the others hold. -/
theorem spFind_filter {α : Type} (p : Nat → Bool) (m : Sparse α) {n : Nat} (hn : p n = true) :
    spFind (m.filter (fun e => p e.1)) n = spFind m n := by
  induction m with
  | nil => rfl
  | cons e m ih =>
    obtain ⟨k, v⟩ := e
    by_cases hk : k = n
    · subst hk
      rw [List.filter_cons_of_pos (p := fun e : Nat × α => p e.1) hn]
      simp [spFind]
    · rw [List.filter_cons]
      split
      · rw [spFind, spFind, if_neg hk, if_neg hk, ih]
      · rw [spFind, if_neg hk, ih]

/-- The arbiter's counters are none of the array counters. -/
theorem ctr_loseItems (s : State) {j : Nat} (hj : j < 256) (t : State)
    (ht : t.ctrs = s.ctrs.filter (fun e => !(decide (oa 0x14800 0 ≤ e.1) && decide (e.1 < oa 0x14900 0)))) :
    ctr t 0x4A01 j = ctr s 0x4A01 j := by
  have hlt : ¬ oa 0x14800 0 ≤ oa 0x4A01 j := by simp only [oa]; omega
  have hk : (!(decide (oa 0x14800 0 ≤ oa 0x4A01 j) && decide (oa 0x4A01 j < oa 0x14900 0))) = true := by
    rw [decide_eq_false hlt]
    rfl
  rw [ctr, ctr, ht, spGet, spGet,
    spFind_filter (fun k => !(decide (oa 0x14800 0 ≤ k) && decide (k < oa 0x14900 0))) s.ctrs hk]

/-- A tested array goes to its cold-reset content; no other array is filled. -/
theorem coldArray_tests (s : State) (n : Nat) : Tests s (coldArray s n) := by
  unfold coldArray
  split
  · exact (remarkRetired_tests _).after rfl rfl rfl rfl
  · exact .refl s
  · exact (remarkRetired_tests _).after rfl rfl rfl rfl
  · exact .setCls fun n h => by unfold ColdArray at h ⊢; split <;> simp_all [setCls]
  · exact .setCls fun n h => by unfold ColdArray at h ⊢; split <;> simp_all [setCls]
  · exact .setCls fun n h => by unfold ColdArray at h ⊢; split <;> simp_all [setCls]
  · exact ⟨.of_eq rfl rfl, fun n h => by unfold ColdArray at h ⊢; split <;> simp_all⟩
  · exact .of_eq rfl rfl rfl rfl
  · exact .of_eq rfl rfl rfl rfl
  · exact .of_eq rfl rfl rfl rfl
  · exact .of_eq rfl rfl rfl rfl
  · exact .of_eq rfl rfl rfl rfl
  · exact .of_eq rfl rfl rfl rfl
  · refine ⟨⟨rfl, id, id, id, fun _ => id, fun _ => id, fun j hj => ctr_loseItems s hj _ rfl⟩, fun n h => ?_⟩
    unfold ColdArray at h ⊢
    split
    · exact h
    · exact h
    · exact h
    · rfl
    · trivial
  · exact .of_eq rfl rfl rfl rfl

theorem coldArray_cold (s : State) (n : Nat) : ColdArray n (coldArray s n) := by
  unfold ColdArray
  split
  · exact ⟨rfl, rfl⟩
  · rfl
  · rfl
  · rfl
  · trivial

/-- Every array begun is in its cold-reset content. -/
theorem foldl_coldArray (l : List Nat) (s : State) :
    Tests s (l.foldl coldArray s) ∧ ∀ n ∈ l, ColdArray n (l.foldl coldArray s) := by
  induction l generalizing s with
  | nil => exact ⟨.refl s, nofun⟩
  | cons n l ih =>
    obtain ⟨ht, hc⟩ := ih (coldArray s n)
    refine ⟨(coldArray_tests s n).trans ht, fun m hm => ?_⟩
    rcases List.mem_cons.mp hm with rfl | hm
    · exact ht.cold _ (coldArray_cold s _)
    · exact hc m hm

/-! ### A row that fails -/

theorem setFaults_tests (s : State) (f : Faults) : Tests s (setFaults s f) := .of_eq rfl rfl rfl rfl

theorem spareEvents_tests (s : State) (a i l d : Nat) : Tests s (spareEvents s a i l d) := by
  unfold spareEvents
  dsimp only
  split
  · split
    · exact ((setFaults_tests s _).trans (.raise _ _ _)).trans ((setFaults_tests _ _).trans (.raise _ _ _))
    · exact (setFaults_tests s _).trans (.raise _ _ _)
  · split
    · exact (setFaults_tests s _).trans (.raise _ _ _)
    · exact .refl s

theorem abortStaging_tests (s : State) (c : BitVec 4) : Tests s (abortStaging s c) := by
  refine .of_givesUp (abortStaging_givesUp s c) ?_ ?_
  all_goals
    unfold abortStaging
    split
    · rfl
    · next st _ =>
      simp only [setKeys]
      rw [unstage_frame]

theorem endBatch_tests (s : State) (c : BitVec 4) : Tests s (endBatch s c) := by
  refine .of_givesUp (endBatch_givesUp s c) ?_ ?_
  · rw [endBatch_frame]
  · rw [endBatch_frame]

theorem setSlot_tests (s : State) (k : W16) (x : KeySlot) : Tests s (setSlot s k x) := .of_eq rfl rfl rfl rfl

theorem setPair_tests (s : State) (k : W16) (x : RetPair) : Tests s (setPair s k x) := .of_eq rfl rfl rfl rfl

theorem retireSlot_tests (s : State) (k : W16) : Tests s (retireSlot s k) := by
  have h1 : Tests s (if stagingOn s k then abortStaging s 14 else s) := by
    split
    · exact abortStaging_tests s 14
    · exact .refl s
  have h2 : ∀ s, Tests s (if batchOn s k then endBatch s 3 else s) := by
    intro s
    split
    · exact endBatch_tests s 3
    · exact .refl s
  have h3 : ∀ x, Tests s (setSlot _ k x) := fun x => (h1.trans (h2 _)).trans (setSlot_tests _ k x)
  unfold retireSlot
  dsimp only
  split
  · exact (h3 _).trans (setPair_tests _ k _)
  · exact h3 _

theorem clearSlot_tests (s : State) (c : Nat) (i : SlotId) : Tests s (clearSlot s c i) := by
  unfold clearSlot
  dsimp only
  split
  · exact .refl s
  · rw [releaseKey_frame]
    exact .of_eq rfl rfl rfl rfl

theorem retireContext_tests (s : State) (c : Nat) : Tests s (retireContext s c) :=
  ((clearSlot_tests s c .A).trans (clearSlot_tests _ c .B)).trans ((Tests.raise _ _ _).after rfl rfl rfl rfl)

theorem retireStream_cold {s : State} (u : Nat) (b : Bool) (h : ColdArray 3 s) : retireStream s u b = s := by
  obtain ⟨hs, hx⟩ := h
  have : streamAt s u = none := by
    unfold streamAt
    split
    · rw [hs]; rfl
    · rw [hx]; rfl
  simp only [retireStream, this]

theorem retireStation_cold {s : State} (u : Nat) (b : Bool) (h : ColdArray 4 s) : retireStation s u b = s := by
  have : stationAt s u = none := by
    rw [stationAt, show s.cls.station = [] from h]
    rfl
  simp only [retireStation, this]

theorem retirePrefix_cold {s : State} (b : Nat) (h : ColdArray 5 s) : retirePrefix s b = s := by
  have hp : s.cls.pfxEntries = [] := h
  unfold retirePrefix
  generalize List.range 4 = l
  induction l with
  | nil => rfl
  | cons j l ih =>
    rw [List.foldl_cons]
    simp only [hp, spFind]
    exact ih

theorem retireWay_cold {s : State} (n : Nat) (b : Bool) (h : ColdArray 6 s) : retireWay s n b = s := by
  have : spFind s.mem.cache n = none := by
    rw [show s.mem.cache = [] from h]
    rfl
  simp only [retireWay, this]

theorem retireContent_tests {s : State} {a : Nat} (u : Nat) (b : Bool) (h : ColdArray a s) : Tests s (retireContent s a u b) := by
  unfold retireContent
  split
  · exact (retireSlot_tests s _).trans (.raise _ _ _)
  · exact (retireSlot_tests s _).trans (.raise _ _ _)
  · exact retireContext_tests s u
  · rw [retireStream_cold u b h]; exact .raise _ _ _
  · rw [retireStation_cold u b h]; exact .raise _ _ _
  · rw [retirePrefix_cold u h]; exact .raise _ _ _
  · rw [retireWay_cold u b h]; exact .raise _ _ _
  · exact .raise _ _ _

theorem arrayCtr_tests (s : State) (a : Nat) {k : Nat} (n : Nat) (hk : k < 256) : Tests s (arrayCtr s a k n) :=
  .of_givesUp (.bumpBy s k n (by omega) hk) rfl rfl

theorem retireUnit_tests {s : State} {a : Nat} (u : Nat) (b : Bool) (h : ColdArray a s) : Tests s (retireUnit s a u b) := by
  unfold retireUnit
  dsimp only
  split
  · exact .refl s
  · have h1 : Tests s (arrayCtr (setFaults s { s.faults with retired := spSet boolFalse s.faults.retired (a * 2 ^ 32 + u) true }) a 7 1) :=
      (arrayCtr_tests _ a 1 (by decide)).after rfl rfl rfl rfl
    exact h1.trans (retireContent_tests u b (h1.cold a h))

/-- A row that fails in a tested array: a spare row, or the retirement of a unit that holds nothing. -/
theorem bistRow_tests {s : State} (f : Fin 46 × Nat) (h : ColdArray f.1.val s) : Tests s (bistRow s f) := by
  have h1 : Tests s (raise (countLasting s) evBistFail f.1.val) := (Tests.raise _ _ _).after rfl rfl rfl rfl
  unfold bistRow
  dsimp only
  split
  · exact .refl s
  · split
    · exact h1
    · split
      · exact h1.trans ((spareEvents_tests _ _ _ _ _).after rfl rfl rfl rfl)
      · exact h1.trans (retireUnit_tests _ false (h1.cold _ h))

theorem foldl_bistRow_tests (l : List (Fin 46 × Nat)) (s : State) (h : ∀ f ∈ l, ColdArray f.1.val s) :
    Tests s (l.foldl bistRow s) := by
  induction l generalizing s with
  | nil => exact .refl s
  | cons f l ih =>
    have hf := bistRow_tests f (h f List.mem_cons_self)
    exact hf.trans (ih _ fun g hg => hf.cold _ (h g (List.mem_cons_of_mem _ hg)))

/-! ### The end of a run -/

theorem abandonBist_givesUp (s : State) : GivesUp s (abandonBist s) := by
  unfold abandonBist
  split
  · exact .refl s
  · exact endBist_givesUp s 3
  · dsimp only
    obtain ⟨ht, hc⟩ := foldl_coldArray (testedArrays.take (Config.bistFindings s.now).1) s
    refine (ht.trans (foldl_bistRow_tests _ _ fun f hf => hc _ ?_)).givesUp.trans
      ((setFaults_tests _ _).givesUp.trans (endBist_givesUp _ 4))
    have := (List.mem_filter.mp hf).2
    exact List.dropLast_subset _ (List.contains_iff_mem.mp this)

theorem abandonBist_ends (s : State) : (abandonBist s).faults.bist = .none ∧
    (s.faults.bist = .running → (abandonBist s).faults.bistResult = 4) := by
  unfold abandonBist
  split
  · next h => exact ⟨h, by rw [h]; exact nofun⟩
  · next h => exact ⟨rfl, by rw [h]; exact nofun⟩
  · exact ⟨rfl, fun _ => rfl⟩

end Sys2Proof.Machine

/-! PROOF. The Power Grant Arbiter decides: grants, limits, revocations and the external handshake (R428 to R432, Table
12.6). -/

namespace Sys2Proof.Machine

/-! ### Granting -/

/-- The operations of Table 12.6 that only take up their work once they hold the grant. -/
def GrantsQuietly (op : HeavyOp) : Prop := op = .derivation ∨ op = .signing ∨ op = .remask ∨ op = .rebuild

theorem granted_quietly {op : HeavyOp} (h : GrantsQuietly op) (s : State) : granted s op = s := by
  rcases h with rfl | rfl | rfl | rfl <;> rfl

theorem isRenorm_of_quietly {op : HeavyOp} (h : GrantsQuietly op) : isRenorm op = false := by
  rcases h with rfl | rfl | rfl | rfl <;> rfl

theorem usedOther_append {g : Grants} {h : GrantHeld} (he : h.external = false) (hr : isRenorm h.op = false) :
    usedOther { g with held := g.held ++ [h] } = usedOther g + h.step := by
  simp [usedOther, List.filter_append, he, hr]

theorem grantIssue_closed {s : State} (h : arbiterOpen s = false) : exec .grantIssue s = .next s := by
  show execGrantIssue s = _
  rw [execGrantIssue, h, if_neg Bool.false_ne_true]

theorem grantIssue_open {s : State} (h : arbiterOpen s = true) : exec .grantIssue s = .next (issueExternal (issueInternal s)) := by
  show execGrantIssue s = _
  rw [execGrantIssue, h, if_pos rfl]

theorem issueInternal_empty {s : State} (h : s.grants.internalQ = []) : issueInternal s = s := by
  simp only [issueInternal, h]

theorem issueExternal_empty {s : State} (h : s.grants.externalQ = []) : issueExternal s = s := by
  simp only [issueExternal, h]

section
variable {s : State} {q : GrantReq} {rest : List GrantReq}

theorem issueInternal_short (h : s.grants.internalQ = q :: rest) (hs : regN s 0x4A00 1 < usedOther s.grants + q.step + 4) :
    issueInternal s = s := by
  simp only [issueInternal, h]
  rw [if_neg (by omega)]

theorem issueInternal_granted (h : s.grants.internalQ = q :: rest) (hs : usedOther s.grants + q.step + 4 ≤ regN s 0x4A00 1) :
    issueInternal s = granted (holdGrant (setGrants s { s.grants with internalQ := rest }) q.op false) q.op := by
  simp only [issueInternal, h]
  rw [if_pos hs]

theorem issueExternal_busy (h : s.grants.externalQ = q :: rest) (hb : s.grants.pgReq = true ∨ s.grants.pgGrant = true) :
    issueExternal s = s := by
  simp only [issueExternal, h]
  rw [if_pos (by simpa only [Bool.or_eq_true] using hb)]

theorem issueExternal_free (h : s.grants.externalQ = q :: rest) (hr : s.grants.pgReq = false) (hg : s.grants.pgGrant = false) :
    issueExternal s = setGrants s (if s.grants.pgStep.toNat = q.step then
        { s.grants with externalQ := rest, handshake := some q, pgReq := true, pgSince := s.now, withdrawn := false }
      else { s.grants with pgStep := BitVec.ofNat 8 q.step }) := by
  simp only [issueExternal, h, hr, hg, Bool.or_self, Bool.false_eq_true, if_false]
  by_cases hq : s.grants.pgStep.toNat = q.step
  · rw [if_pos hq, if_neg (not_not_intro hq)]
  · rw [if_neg hq, if_pos hq]

/-- A request is granted internally when the sum stays 0x04 below the budget (R428). -/
theorem grantIssue_internal (ho : arbiterOpen s = true) (h : s.grants.internalQ = q :: rest) (hx : s.grants.externalQ = [])
    (hs : usedOther s.grants + q.step + 4 ≤ regN s 0x4A00 1) (hq : GrantsQuietly q.op) :
    exec .grantIssue s = .next (bump (setGrants s { s.grants with
      internalQ := rest, held := s.grants.held ++ [{ op := q.op, step := stepOf q.op, since := s.now, external := false }] }) 0x4A01 1) := by
  rw [grantIssue_open ho, issueInternal_granted h hs, granted_quietly hq, issueExternal_empty (by exact hx)]
  rfl

/-- The reserve of 0x04 stays free (R428). -/
theorem grantIssue_reserve (ho : arbiterOpen s = true) (h : s.grants.internalQ = q :: rest) (hx : s.grants.externalQ = [])
    (hs : usedOther s.grants + q.step + 4 ≤ regN s 0x4A00 1) (hq : GrantsQuietly q.op) (hstep : q.step = stepOf q.op) (r : State)
    (hr : exec .grantIssue s = .next r) : usedOther r.grants + 4 ≤ regN s 0x4A00 1 := by
  rw [grantIssue_internal ho h hx hs hq] at hr
  cases hr
  have hu := usedOther_append (g := { s.grants with internalQ := rest })
    (h := { op := q.op, step := stepOf q.op, since := s.now, external := false }) rfl (isRenorm_of_quietly hq)
  calc _ = usedOther s.grants + stepOf q.op + 4 := congrArg (· + 4) hu
    _ ≤ regN s 0x4A00 1 := hstep ▸ hs

end

/-! ### pg_grant rises -/

section
variable {s : State} (hg : s.grants.pgGrant = false) (hc : ctlOn s = true)
include hg hc

theorem pgGrantRise_unrequested (hr : s.grants.pgReq = false) : exec .pgGrantRise s = .next
    (if s.grants.withdrawn then setGrants s { s.grants with pgGrant := true, withdrawn := false }
     else raise (bump (setGrants s { s.grants with pgGrant := true, withdrawn := false }) 0x4A01 6) 198 0) := by
  show execPgGrantRise s = _
  simp [execPgGrantRise, hg, hc, hr, evGrantProtocol]

theorem pgGrantRise_granted {q : GrantReq} (hr : s.grants.pgReq = true) (hq : s.grants.handshake = some q) :
    exec .pgGrantRise s = .next (granted (bump (setGrants s { s.grants with pgGrant := true, withdrawn := false, handshake := none, held := s.grants.held ++ [{ op := q.op, step := stepOf q.op, since := s.now, external := true }] }) 0x4A01 1) q.op) := by
  show execPgGrantRise s = _
  simp only [execPgGrantRise, hg, hc, hr, hq]
  rfl

end

theorem pgGrantRise_spareBist {s : State} (hg : s.grants.pgGrant = false) (hc : ctlOn s = true) {q : GrantReq}
    (hr : s.grants.pgReq = true) (hq : s.grants.handshake = some q) (ho : q.op = .spareBist) :
    ∃ r, exec .pgGrantRise s = .next r ∧ r.faults.spareBist = .running ∧ grantHeld r .spareBist = true := by
  refine ⟨_, pgGrantRise_granted hg hc hr hq, ?_⟩
  rw [ho]
  exact ⟨rfl, by simp [granted, spareGranted, grantHeld, setFaults, setGrants]⟩

theorem pgGrantRise_nothing {s : State} (h : s.grants.pgGrant = true ∨ ctlOn s = false) : exec .pgGrantRise s = .next s := by
  show execPgGrantRise s = _
  rcases h with h | h <;> simp [execPgGrantRise, h]

/-- Full BIST begins: the main bank is zeroized, and the grant is kept (R480). -/
theorem bistGranted_begins {s : State} (h : grantHeld s .fullBist = true) :
    (bistGranted s).faults.bist = .running ∧ grantHeld (bistGranted s) .fullBist = true ∧
      ∀ k : W16, k.toNat < 2 ^ 15 → (slotOf (bistGranted s) k).state = .empty ∨ (slotOf (bistGranted s) k).state = .retired := by
  refine ⟨rfl, zeroizeBank_grantHeld s false nofun h, fun k hk => ?_⟩
  exact zeroizeBank_vacant (s := s) (.inl (decide_eq_false (by omega)))

/-! ### The limits -/

theorem grantWaitExpiry_none {op : HeavyOp} {s : State} (h : findReq (s.grants.internalQ ++ s.grants.externalQ) op = none) :
    exec (.grantWaitExpiry op) s = .next s := by
  show execGrantWaitExpiry op s = _
  simp only [execGrantWaitExpiry, h]

section
variable {op : HeavyOp} {s : State} {q : GrantReq} (hq : findReq (s.grants.internalQ ++ s.grants.externalQ) op = some q)
include hq

theorem grantWaitExpiry_early (h : q.noTimeout = true ∨ elapsed s q.since (msCycles (regN s 0x4A00 3)) = false) :
    exec (.grantWaitExpiry op) s = .next s := by
  show execGrantWaitExpiry op s = _
  simp only [execGrantWaitExpiry, hq]
  rw [if_pos (by rcases h with h | h <;> simp [h])]

variable (hn : q.noTimeout = false) (he : elapsed s q.since (msCycles (regN s 0x4A00 3)) = true)
include hn he

theorem grantWaitExpiry_due : exec (.grantWaitExpiry op) s = .next (if keepsWaiting op then
      setGrants (bump s 0x4A01 2) { s.grants with
        internalQ := s.grants.internalQ.map (unlimit op), externalQ := s.grants.externalQ.map (unlimit op) }
    else deniedGrant (releaseGrant (bump s 0x4A01 2) op) op) := by
  show execGrantWaitExpiry op s = _
  simp only [execGrantWaitExpiry, hq, hn, he]
  rfl

end

theorem unlimit_op (op : HeavyOp) (q : GrantReq) : (unlimit op q).op = q.op := by
  unfold unlimit
  split <;> rfl

theorem unlimit_noTimeout (op : HeavyOp) (q : GrantReq) (h : (unlimit op q).op = op) : (unlimit op q).noTimeout = true := by
  rw [unlimit_op] at h
  rw [unlimit, if_pos h]

/-- The operations that keep waiting stay queued, now without a limit. -/
theorem unlimited_waits {op : HeavyOp} {s : State} {q : GrantReq}
    (hq : findReq (s.grants.internalQ ++ s.grants.externalQ) op = some q) :
    let r := setGrants (bump s 0x4A01 2) { s.grants with
      internalQ := s.grants.internalQ.map (unlimit op), externalQ := s.grants.externalQ.map (unlimit op) }
    grantQueued r op = true ∧ ∀ x ∈ r.grants.internalQ ++ r.grants.externalQ, x.op = op → x.noTimeout = true := by
  have hm := List.mem_of_find?_eq_some hq
  have ho := List.find?_some hq
  refine ⟨?_, fun x hx hop => ?_⟩
  · simp only [grantQueued, setGrants, List.any_map, Function.comp_def, unlimit_op, Bool.or_eq_true, List.any_eq_true]
    rcases List.mem_append.mp hm with hm | hm
    · exact .inl (.inl ⟨q, hm, ho⟩)
    · exact .inl (.inr ⟨q, hm, ho⟩)
  · change x ∈ s.grants.internalQ.map (unlimit op) ++ s.grants.externalQ.map (unlimit op) at hx
    rw [← List.map_append] at hx
    obtain ⟨y, -, rfl⟩ := List.mem_map.mp hx
    exact unlimit_noTimeout op y hop

theorem keepsWaiting_iff (op : HeavyOp) : keepsWaiting op = true ↔ op = .remask ∨ ∃ t, op = .training t := by
  cases op <;> simp [keepsWaiting]

theorem keepsWaiting_false {op : HeavyOp} (h : ¬(op = .remask ∨ ∃ t, op = .training t)) : keepsWaiting op = false :=
  Bool.eq_false_iff.mpr fun hk => h ((keepsWaiting_iff op).mp hk)

/-- The operations that end without a grant (second column of Table 12.6). -/
theorem deniedGrant_ends (s : State) (op : HeavyOp) : let r := deniedGrant (releaseGrant s op) op
    (op = .rebuild → r.cls.rebuild = none ∧ (s.cls.rebuild.isSome = true → r.cls.rebuildCode = 3) ∧ grantQueued r op = false) ∧
    (op = .derivation → r.keys.batch = none ∧ (s.keys.batch.isSome = true → r.keys.deriveCode = 8) ∧ grantQueued r op = false) ∧
    (op = .signing → r.attest.running = none ∧ (s.attest.running.isSome = true → r.attest.code = 6)) ∧
    (∀ g, op = .regionOp g → (regionDyn r g).run = none ∧ ((regionDyn s g).run.isSome = true → (regionDyn r g).code = 3)) ∧
    (op = .fullBist → r.faults.bist = .none ∧ r.faults.bistResult = 3) ∧
    (op = .spareBist → r.faults.spareBist = .none ∧ r.faults.spareLast = 3) := by
  have hgone := (deniedGrant_givesUp (releaseGrant s op) op).queued op (releaseGrant_notQueued s op)
  refine ⟨?_, ?_, ?_, ?_, ?_, ?_⟩
  · rintro rfl
    obtain ⟨hr, hc⟩ := endRebuild_ends (releaseGrant s .rebuild) 3
    exact ⟨hr, hc, hgone⟩
  · rintro rfl
    exact ⟨endBatch_batch _ 8, fun h => endBatch_deriveCode (s := releaseGrant s _) 8 h, hgone⟩
  · rintro rfl
    exact signingDenied_ends (releaseGrant s .signing)
  · rintro g rfl
    exact regionDenied_ends (releaseGrant s (.regionOp g)) g
  · rintro rfl
    exact ⟨rfl, rfl⟩
  · rintro rfl
    exact ⟨rfl, rfl⟩

/-! ### The handshake's limit -/

theorem pgTimeout_early {s : State} (h : s.grants.handshake = none ∨ s.grants.pgReq = false ∨
    elapsed s s.grants.pgSince (msCycles (regN s 0x4A00 4)) = false) : exec .pgTimeout s = .next s := by
  show execPgTimeout s = _
  rcases hh : s.grants.handshake with _ | q
  · simp only [execPgTimeout, hh]
  · simp only [execPgTimeout, hh]
    rw [if_pos]
    rcases h with h | h | h
    · rw [hh] at h; cases h
    · simp [h]
    · simp [h]

/-- The arbiter's record once a handshake has run out: withdrawn, counted and reported (R429). -/
def timedOut (s : State) : State :=
  raise (bump (setGrants s { s.grants with pgReq := false, handshake := none, withdrawn := true }) 0x4A01 5) evGrantTimeout 0

theorem timedOut_grants (s : State) :
    (timedOut s).grants = { s.grants with pgReq := false, handshake := none, withdrawn := true } := raise_grants _ _ _

theorem timedOut_count (s : State) : ctr (timedOut s) 0x4A01 5 = satAdd64 (ctr s 0x4A01 5) 1 :=
  (ctr_raise _ _ _ 0x4A01 5).trans (ctr_bump_same _ 0x4A01 5)

theorem timedOut_pending {s : State} (h : ctlOn s = true) : (timedOut s).events.pending.getLsbD 197 = true :=
  raise_pending_self (s := bump (setGrants s _) 0x4A01 5) 0 h (by decide)

theorem pgTimeout_due {s : State} {q : GrantReq} (hq : s.grants.handshake = some q) (hr : s.grants.pgReq = true)
    (he : elapsed s s.grants.pgSince (msCycles (regN s 0x4A00 4)) = true) :
    exec .pgTimeout s = .next (if q.noTimeout || keepsWaiting q.op then
        setGrants (timedOut s) { (timedOut s).grants with externalQ := (timedOut s).grants.externalQ ++ [{ q with noTimeout := true }] }
      else deniedGrant (timedOut s) q.op) := by
  show execPgTimeout s = _
  simp only [execPgTimeout, hq, hr, he]
  rfl

/-! ### A grant is given up -/

theorem grantHoldExpiry_due {op : HeavyOp} {s : State} {g : GrantHeld}
    (hg : s.grants.held.find? (fun g => g.op == op) = some g) (he : elapsed s g.since (msCycles (regN s 0x4A00 2)) = true) :
    exec (.grantHoldExpiry op) s = .next (yieldGrant (bump s 0x4A01 3) op) := by
  show execGrantHoldExpiry op s = _
  simp only [execGrantHoldExpiry, hg]
  rw [if_pos he]

theorem grantRevocation_due {s : State} {g : GrantHeld} (hg : s.grants.held.find? (fun g => g.external) = some g)
    (hp : s.grants.pgGrant = true) (hr : s.grants.pgReq = true) :
    exec .grantRevocation s = .next (yieldGrant (bump (setGrants s { s.grants with pgGrant := false }) 0x4A01 4) g.op) := by
  show execGrantRevocation s = _
  simp only [execGrantRevocation, hp, hr, setGrants, hg]
  rfl

/-- What every operation that yields leaves of the arbiter: its external `pg_req` falls, `pg_grant` and the counters of
limits stay. -/
theorem yieldGrant_arbiter (s : State) (op : HeavyOp) (k : Nat) (hk : k ≠ 1) (hk' : k < 256) :
    ctr (yieldGrant s op) 0x4A01 k = ctr s 0x4A01 k ∧ (yieldGrant s op).grants.pgGrant = s.grants.pgGrant ∧
      ((∃ g ∈ s.grants.held, g.op = op ∧ g.external = true) → (yieldGrant s op).grants.pgReq = false) := by
  have hrel := releaseGrant_givesUp s op
  have hreq : (∃ g ∈ s.grants.held, g.op = op ∧ g.external = true) → (releaseGrant s op).grants.pgReq = false :=
    fun ⟨g, hm, ho, he⟩ => releaseGrant_pgReq s op hm ho he
  have hgive : ∀ r, GivesUp (releaseGrant s op) r → ctr r 0x4A01 k = ctr s 0x4A01 k ∧ r.grants.pgGrant = s.grants.pgGrant ∧
      ((∃ g ∈ s.grants.held, g.op = op ∧ g.external = true) → r.grants.pgReq = false) := fun r h =>
    ⟨(h.counts k hk').trans (hrel.counts k hk'), h.pgGrant, fun hx => h.pgReq (hreq hx)⟩
  have hagain : ctr (requestGrant (releaseGrant s op) op true) 0x4A01 k = ctr s 0x4A01 k ∧
      (requestGrant (releaseGrant s op) op true).grants.pgGrant = s.grants.pgGrant ∧
      ((∃ g ∈ s.grants.held, g.op = op ∧ g.external = true) →
        (requestGrant (releaseGrant s op) op true).grants.pgReq = false) := by
    refine ⟨?_, requestGrant_pgGrant _ _ _, fun hx => (requestGrant_pgReq _ _ _).trans (hreq hx)⟩
    rw [ctr, requestGrant_ctrs]
    exact hrel.counts k hk'
  cases op with
  | derivation => exact hgive _ (endBatch_givesUp _ 8)
  | signing => exact hgive _ (abandonRequest_givesUp _ 6)
  | rebuild => exact hgive _ (endRebuild_givesUp _ 3)
  | fullBist => exact hgive _ (abandonBist_givesUp _)
  | spareBist => exact hgive _ (spareNotRun_givesUp _)
  | training t => exact hgive _ (trainingRevoked_givesUp _ t)
  | remask => exact hagain
  | regionOp r => exact hagain
  | renorm c =>
    have hne : oa 0x4A01 k ≠ oa 0x4A01 1 := by simp only [oa]; omega
    refine ⟨(ctr_bumpBy_ne _ 0x4A01 1 1 0x4A01 k hne).trans (hrel.counts k hk'), rfl, hreq⟩

/-- The operations that end on a revocation, and those that wait again (third column of Table 12.6). -/
theorem yieldGrant_ends (s : State) (op : HeavyOp) : let r := yieldGrant s op
    (op = .derivation → grantHeld r op = false ∧ r.keys.batch = none ∧ (s.keys.batch.isSome = true → r.keys.deriveCode = 8)) ∧
    (op = .signing → grantHeld r op = false ∧ r.attest.running = none ∧ (s.attest.running.isSome = true → r.attest.code = 6)) ∧
    (op = .rebuild → grantHeld r op = false ∧ r.cls.rebuild = none ∧ (s.cls.rebuild.isSome = true → r.cls.rebuildCode = 3)) ∧
    (op = .remask ∨ (∃ a, op = .regionOp a) → grantHeld r op = false ∧ grantQueued r op = true ∧
      (∀ x ∈ r.grants.internalQ ++ r.grants.externalQ, x.op = op → x.noTimeout = true) ∧ r.mem = s.mem) ∧
    (op = .spareBist → grantHeld r op = false ∧ r.faults.spareBist = .none ∧ r.faults.spareLast = 3) ∧
    (op = .fullBist → grantHeld r op = false ∧ r.faults.bist = .none ∧ (s.faults.bist = .running → r.faults.bistResult = 4)) ∧
    (∀ t, op = .training t → grantHeld r op = false ∧
      ((trunk s t).state = .align → (trunk r t).state = .backoff ∧ (trunk r t).lastFail = 5)) := by
  have hgone := releaseGrant_gone s op
  refine ⟨?_, ?_, ?_, ?_, ?_, ?_, ?_⟩
  · rintro rfl
    exact ⟨(endBatch_givesUp _ 8).held _ hgone, endBatch_batch _ 8, fun h => endBatch_deriveCode (s := releaseGrant s _) 8 h⟩
  · rintro rfl
    exact ⟨(abandonRequest_givesUp _ 6).held _ hgone, abandonRequest_ends (releaseGrant s _) 6⟩
  · rintro rfl
    exact ⟨(endRebuild_givesUp _ 3).held _ hgone, endRebuild_ends (releaseGrant s _) 3⟩
  · intro h
    have hy : yieldGrant s op = requestGrant (releaseGrant s op) op true := by
      rcases h with rfl | ⟨a, rfl⟩ <;> rfl
    rw [hy]
    obtain ⟨hh, hq, hx⟩ := requestGrant_again s op true
    exact ⟨hh, hq, hx, requestGrant_mem _ _ _⟩
  · rintro rfl
    exact ⟨(spareNotRun_givesUp _).held _ hgone, rfl, rfl⟩
  · rintro rfl
    exact ⟨(abandonBist_givesUp _).held _ hgone, abandonBist_ends (releaseGrant s _)⟩
  · rintro t rfl
    refine ⟨(trainingRevoked_givesUp _ t).held _ hgone, fun h => ?_⟩
    have hy : yieldGrant s (.training t) = trainingFailure (releaseGrant s (.training t)) t 5 := by
      show trainingRevoked (releaseGrant s (.training t)) t = _
      unfold trainingRevoked
      rw [show (trunk (releaseGrant s (.training t)) t).state = .align from h]
    rw [hy]
    exact trainingFailure_ends _ t 5

/-! ### The obligation -/

/-- A grant past its limit, and one that `pg_grant` revokes, is counted and given up (R431, R101). -/
theorem grant_isGivenUp {s : State} {op : HeavyOp} {c : Instr} {k : Nat} {g : GrantHeld} (hheld : s.grants.held = [g]) (hop : g.op = op)
    (hdue : (c = .grantHoldExpiry op ∧ k = 3 ∧ elapsed s g.since (msCycles (regN s 0x4A00 2)) = true) ∨
      (c = .grantRevocation ∧ k = 4 ∧ g.external = true ∧ s.grants.pgGrant = true ∧ s.grants.pgReq = true)) :
    ∃ a, exec c s = .next (yieldGrant a op) ∧ a = { s with grants := a.grants, ctrs := a.ctrs } ∧
      ctr (yieldGrant a op) 0x4A01 k = satAdd64 (ctr s 0x4A01 k) 1 ∧
      (g.external = true → (yieldGrant a op).grants.pgReq = false) ∧ (k = 4 → (yieldGrant a op).grants.pgGrant = false) := by
  have hin : g.external = true → ∃ h ∈ s.grants.held, h.op = op ∧ h.external = true :=
    fun he => ⟨g, by rw [hheld]; exact List.mem_singleton_self g, hop, he⟩
  rcases hdue with ⟨rfl, rfl, he⟩ | ⟨rfl, rfl, hx, hp, hr⟩
  · have hf : s.grants.held.find? (fun g => g.op == op) = some g := by simp [hheld, hop]
    obtain ⟨hc, -, hq⟩ := yieldGrant_arbiter (bump s 0x4A01 3) op 3 (by decide) (by decide)
    exact ⟨_, grantHoldExpiry_due hf he, rfl, hc.trans (ctr_bump_same s 0x4A01 3), fun he => hq (hin he), nofun⟩
  · have hf : s.grants.held.find? (fun g => g.external) = some g := by simp [hheld, hx]
    have he := grantRevocation_due hf hp hr
    rw [hop] at he
    obtain ⟨hc, hgr, hq⟩ := yieldGrant_arbiter (bump (setGrants s { s.grants with pgGrant := false }) 0x4A01 4) op 4
      (by decide) (by decide)
    exact ⟨_, he, rfl, hc.trans (ctr_bump_same _ 0x4A01 4), fun he => hq (hin he), fun _ => hgr⟩

/-- Settles O58: every command of the arbiter is its decision, and every end of an operation in Table 12.6 gives up what the
operation held. -/
theorem grantsAreIssuedAndGivenUp : Obligations.GrantsAreIssuedAndGivenUp := by
  unfold Obligations.GrantsAreIssuedAndGivenUp
  refine ⟨fun s q rest => ?issue, fun s => ⟨pgGrantRise_nothing, fun hg hc => ?rise⟩, fun op s => ⟨grantWaitExpiry_none, fun q hq =>
    ⟨grantWaitExpiry_early hq, fun hn he => ⟨_, grantWaitExpiry_due hq hn he, ?wait⟩⟩⟩, fun s => ⟨pgTimeout_early,
    fun q hq hr he => ⟨_, pgTimeout_due hq hr he, ?timeout⟩⟩, fun s op c k g hheld hop hdue => ?yield, fun s => ?idle⟩
  case issue =>
    refine ⟨grantIssue_closed, fun ho hi hx => ⟨fun hs => ?_, fun hs hq hstep =>
      ⟨grantIssue_internal ho hi hx hs hq, grantIssue_reserve ho hi hx hs hq hstep⟩⟩, fun ho hi hx => ?_, fun ho hi hx =>
      ⟨fun hb => ?_, fun hr hg => ?_⟩⟩
    · rw [grantIssue_open ho, issueInternal_short hi hs, issueExternal_empty hx]
    · rw [grantIssue_open ho, issueInternal_empty hi, issueExternal_empty hx]
    · rw [grantIssue_open ho, issueInternal_empty hi, issueExternal_busy hx hb]
    · rw [grantIssue_open ho, issueInternal_empty hi, issueExternal_free hx hr hg]
  case rise =>
    refine ⟨fun hr hw => ?_, fun hr hw => ?_, fun q hr hq => ⟨fun ho => ?_, pgGrantRise_spareBist hg hc hr hq, fun ho =>
      ⟨_, pgGrantRise_granted hg hc hr hq, ?_⟩⟩⟩
    · rw [pgGrantRise_unrequested hg hc hr, hw, if_neg Bool.false_ne_true]
    · rw [pgGrantRise_unrequested hg hc hr, hw, if_pos rfl]
    · rw [pgGrantRise_granted hg hc hr hq, granted_quietly ho]
    · rw [ho]
      exact bistGranted_begins (by simp [grantHeld, setGrants])
  case wait =>
    by_cases hk : op = .remask ∨ ∃ t, op = .training t
    · rw [(keepsWaiting_iff op).mpr hk, if_pos rfl]
      refine ⟨ctr_bump_same s 0x4A01 2, fun _ => unlimited_waits hq, ?_⟩
      rcases hk with rfl | ⟨t, rfl⟩
      · exact ⟨nofun, nofun, nofun, nofun, nofun, nofun⟩
      · exact ⟨nofun, nofun, nofun, nofun, nofun, nofun⟩
    · rw [keepsWaiting_false hk, if_neg Bool.false_ne_true]
      have hcount := (deniedGrant_givesUp (releaseGrant (bump s 0x4A01 2) op) op).counts 2 (by decide)
      exact ⟨hcount.trans (ctr_bump_same s 0x4A01 2), fun h => absurd h hk, deniedGrant_ends (bump s 0x4A01 2) op⟩
  case timeout =>
    have hg := timedOut_grants s
    by_cases hk : q.noTimeout = true ∨ q.op = .remask ∨ ∃ t, q.op = .training t
    · rw [if_pos (by rw [Bool.or_eq_true, keepsWaiting_iff]; exact hk), hg]
      refine ⟨timedOut_count s, timedOut_pending, rfl, rfl, rfl, fun _ => rfl, fun hn ho => ?_⟩
      rcases hk with hk | hk | ⟨t, hk⟩
      · rw [hn] at hk; cases hk
      · rw [ho] at hk; cases hk
      · rw [ho] at hk; cases hk
    · rw [if_neg (by rw [Bool.or_eq_true, keepsWaiting_iff]; exact hk)]
      have hd := deniedGrant_givesUp (timedOut s) q.op
      refine ⟨(hd.counts 5 (by decide)).trans (timedOut_count s), fun hc => deniedGrant_pending q.op (timedOut_pending hc),
        hd.pgReq (by rw [hg]), hd.handshake (by rw [hg]), hd.withdrawn (by rw [hg]), fun h => absurd h hk, fun _ ho => ?_⟩
      rw [ho]
      refine ⟨rfl, rfl, ?_⟩
      show (timedOut s).grants.externalQ.filter _ = _
      rw [hg]
  case yield =>
    obtain ⟨a, hexec, ha, hc, hr, hp⟩ := grant_isGivenUp hheld hop hdue
    refine ⟨_, hexec, hc, hr, hp, ?_⟩
    have hends := yieldGrant_ends a op
    rw [ha] at hends ⊢
    exact hends
  case idle =>
    refine ⟨fun op h => ?_, fun op g h he => ?_, fun h => ?_, fun hg hr => ?_, fun h => ?_⟩
    · show execGrantHoldExpiry op s = _
      simp only [execGrantHoldExpiry, h]
    · show execGrantHoldExpiry op s = _
      simp only [execGrantHoldExpiry, h]
      rw [if_neg (by simp [he])]
    · show execGrantRevocation s = _
      rcases h with h | h <;> simp [execGrantRevocation, h]
    · show execPgGrantFall s = _
      simp [execPgGrantFall, hg, hr]
    · show execPgGrantFall s = _
      rcases h with h | h <;> simp [execPgGrantFall, h]

end Sys2Proof.Machine

/-! PROOF. The trunks: what the shared operations of a trunk leave of it, of the other trunk and of the rest (R346, R370,
R372). -/

namespace Sys2Proof.Machine

/-! ### Reading a trunk -/

section
variable (s : State) (t : Trunk)

@[simp] theorem trunk_setTrunk_same (x : TrunkSt) : trunk (setTrunk s t x) t = x := spGet_spSet_same trunkDefault s.trunks t.val x

theorem trunk_setTrunk_ne {u : Trunk} (h : u ≠ t) (x : TrunkSt) : trunk (setTrunk s t x) u = trunk s u :=
  spGet_spSet_ne trunkDefault s.trunks t.val u.val x fun e => h (Fin.ext e)

@[simp] theorem trunk_raise (src d : Nat) : trunk (raise s src d) t = trunk s t := by simp [trunk]
@[simp] theorem trunk_raiseTrunk (u : Trunk) (j : Nat) : trunk (raiseTrunk s u j) t = trunk s t := trunk_raise s t _ _
@[simp] theorem trunk_bumpBy (i j n : Nat) : trunk (bumpBy s i j n) t = trunk s t := rfl
@[simp] theorem trunk_transportCtr (u : Trunk) (k : Nat) : trunk (transportCtr s u k) t = trunk s t := rfl
@[simp] theorem trunk_mgmtCtr (u : Trunk) (k n : Nat) : trunk (mgmtCtr s u k n) t = trunk s t := rfl

@[simp] theorem trunkUp_eq : trunkUp s t = true ↔ (trunk s t).state = .up := by simp [trunkUp]

theorem ctr_transportCtr (k : Nat) : ctr (transportCtr s t k) (0x4011 + t.val) k = satAdd64 (ctr s (0x4011 + t.val) k) 1 :=
  ctr_bump_same s _ k

theorem ctr_transportCtr_ne {j k : Nat} (h : j ≠ k) :
    ctr (transportCtr s t k) (0x4011 + t.val) j = ctr s (0x4011 + t.val) j :=
  ctr_bumpBy_ne s _ k 1 _ j (by simp only [oa]; omega)

end

/-! ### Steps that change one trunk -/

/-- State `r` is state `s` with trunk `t` become `x`. -/
structure OnlyTrunk (t : Trunk) (x : TrunkSt) (s r : State) : Prop where
  frame : r = { s with trunks := r.trunks }
  own : trunk r t = x
  other : ∀ u, u ≠ t → trunk r u = trunk s u

theorem OnlyTrunk.refl (t : Trunk) (s : State) : OnlyTrunk t (trunk s t) s s := ⟨rfl, rfl, fun _ _ => rfl⟩

theorem onlyTrunk_set (t : Trunk) (x : TrunkSt) (s : State) : OnlyTrunk t x s (setTrunk s t x) :=
  ⟨rfl, trunk_setTrunk_same s t x, fun _ hu => trunk_setTrunk_ne s t hu x⟩

theorem OnlyTrunk.trans {t : Trunk} {x y : TrunkSt} {s r q : State} (h : OnlyTrunk t x s r) (g : OnlyTrunk t y r q) :
    OnlyTrunk t y s q :=
  ⟨by rw [g.frame, h.frame], g.own, fun u hu => (g.other u hu).trans (h.other u hu)⟩

theorem OnlyTrunk.set {t : Trunk} {x : TrunkSt} {s r : State} (h : OnlyTrunk t x s r) (y : TrunkSt) :
    OnlyTrunk t y s (setTrunk r t y) := h.trans (onlyTrunk_set t y r)

theorem OnlyTrunk.upd {t : Trunk} {x : TrunkSt} {s r : State} (h : OnlyTrunk t x s r) (f : TrunkSt → TrunkSt) :
    OnlyTrunk t (f x) s (updTrunk r t f) := by
  have hf : f (trunk r t) = f x := by rw [h.own]
  exact hf ▸ h.set (f (trunk r t))

theorem OnlyTrunk.updTo {t : Trunk} {x y : TrunkSt} {s r : State} {f : TrunkSt → TrunkSt} (h : OnlyTrunk t x s r) (hf : f x = y) :
    OnlyTrunk t y s (updTrunk r t f) := hf ▸ h.upd f

theorem onlyTrunk_upd (t : Trunk) (s : State) (f : TrunkSt → TrunkSt) : OnlyTrunk t (f (trunk s t)) s (updTrunk s t f) :=
  onlyTrunk_set t _ s

section
variable {t : Trunk} {x : TrunkSt} {s r : State} (h : OnlyTrunk t x s r)
include h

theorem OnlyTrunk.now : r.now = s.now := by rw [h.frame]
theorem OnlyTrunk.ctrs : r.ctrs = s.ctrs := by rw [h.frame]
theorem OnlyTrunk.events : r.events = s.events := by rw [h.frame]
theorem OnlyTrunk.reg (i j : Nat) : reg r i j = reg s i j := by rw [h.frame]; rfl
theorem OnlyTrunk.nodeId (u : Trunk) : nodeId r u = nodeId s u := by rw [Machine.nodeId, Machine.nodeId, h.reg]
theorem OnlyTrunk.pathOn : pathOn r = pathOn s := by rw [h.frame]; rfl

end

/-! ### Waits for credit (R370) -/

/-- A trunk with other marks of its waits for credit. -/
def withWaits (hs : Sparse (Option Nat)) (st : Sparse Bool) (x : TrunkSt) : TrunkSt := { x with headSince := hs, starved := st }

/-- State `r` is state `s` with other marks of the waits of trunk `t`. -/
def WaitsMoved (t : Trunk) (s r : State) : Prop := ∃ hs st, OnlyTrunk t (withWaits hs st (trunk s t)) s r

theorem noteWait_waitsMoved {t : Trunk} {s r : State} (v : Nat) (h : WaitsMoved t s r) : WaitsMoved t s (noteWait t r v) := by
  obtain ⟨hs, st, h⟩ := h
  unfold noteWait
  dsimp only
  split
  · split
    · exact ⟨hs, st, h⟩
    · exact ⟨spSet sinceNone hs v (some r.now), st, h.updTo rfl⟩
  · exact ⟨spSet sinceNone hs v none, spSet boolFalse st v false, h.updTo rfl⟩

theorem noteWaits_waitsMoved (s : State) (t : Trunk) : WaitsMoved t s (noteWaits s t) := by
  have hfold : ∀ (l : List Nat) (r : State), WaitsMoved t s r → WaitsMoved t s (l.foldl (noteWait t) r) := by
    intro l
    induction l with
    | nil => exact fun r h => h
    | cons v l ih => exact fun r h => ih _ (noteWait_waitsMoved v h)
  exact hfold _ s ⟨(trunk s t).headSince, (trunk s t).starved, .refl t s⟩

/-! ### A trunk goes down (R372) -/

/-- What is left of a trunk that goes down with a cause, with or without its enable bit. -/
def downed (cause : Nat) (enabled : Bool) (x : TrunkSt) : TrunkSt :=
  let y := { quiet x with lastDown := cause }
  let z := if cause = 8 ∨ !enabled then { quiet y with state := .disabled, lanes := [], partnerGood := 0, partnerDegraded := 0 } else y
  if enabled then { z with state := .grant } else z

theorem downed_state (c : Nat) (b : Bool) (x : TrunkSt) : (downed c b x).state = if b then .grant else .disabled := by
  cases b <;> simp [downed]

theorem downed_notUp (c : Nat) (b : Bool) (x : TrunkSt) : (downed c b x).state ≠ .up := by
  rw [downed_state]
  cases b <;> simp

theorem downed_lastDown (c : Nat) (b : Bool) (x : TrunkSt) : (downed c b x).lastDown = c := by
  unfold downed
  dsimp only
  (repeat' split) <;> rfl

theorem downed_keeps (c : Nat) (b : Bool) (x : TrunkSt) : (downed c b x).entries = x.entries ∧ (downed c b x).txQ = x.txQ ∧
    (downed c b x).rxStarted = x.rxStarted := by
  unfold downed
  dsimp only
  (repeat' split) <;> exact ⟨rfl, rfl, rfl⟩

section
variable (s : State) (t : Trunk) (c : Nat)

theorem enterDisabled_frame : enterDisabled s t =
    { s with trunks := (enterDisabled s t).trunks, grants := (enterDisabled s t).grants } := rfl

theorem enterGrant_frame : enterGrant s t = { s with trunks := (enterGrant s t).trunks, grants := (enterGrant s t).grants } := by
  unfold enterGrant
  rw [requestGrant_frame]
  rfl

theorem trunkDown_frame : trunkDown s t c = { raiseTrunk (mgmtCtr s t 1 1) t 1 with
    trunks := (trunkDown s t c).trunks, grants := (trunkDown s t c).grants } := by
  unfold trunkDown
  dsimp only
  split
  · rw [enterGrant_frame]
    split
    · rw [enterDisabled_frame]; rfl
    · rfl
  · split
    · rw [enterDisabled_frame]; rfl
    · rfl

theorem trunk_enterGrant_same : trunk (enterGrant s t) t = { trunk s t with state := .grant } := by
  rw [trunk, enterGrant, requestGrant_trunks]
  exact trunk_updTrunk_same s t _

theorem trunk_enterGrant_ne {u : Trunk} (h : u ≠ t) : trunk (enterGrant s t) u = trunk s u := by
  rw [trunk, enterGrant, requestGrant_trunks]
  exact trunk_setTrunk_ne s t h _

theorem trunk_enterDisabled_same : trunk (enterDisabled s t) t =
    { quiet (trunk s t) with state := .disabled, lanes := [], partnerGood := 0, partnerDegraded := 0 } :=
  trunk_updTrunk_same s t (fun x => { quiet x with state := .disabled, lanes := [], partnerGood := 0, partnerDegraded := 0 })

theorem trunk_enterDisabled_ne {u : Trunk} (h : u ≠ t) : trunk (enterDisabled s t) u = trunk s u := trunk_setTrunk_ne s t h _

theorem trunk_trunkDown_same : trunk (trunkDown s t c) t = downed c (trunkEnabled s t) (trunk s t) := by
  unfold trunkDown downed
  dsimp only
  cases trunkEnabled s t
  · simp [trunk_enterDisabled_same]
  · by_cases hc : c = 8
    · simp [hc, trunk_enterDisabled_same, trunk_enterGrant_same]
    · simp [hc, trunk_enterGrant_same]

theorem trunk_trunkDown_ne {u : Trunk} (h : u ≠ t) : trunk (trunkDown s t c) u = trunk s u := by
  have h2 : trunk (updTrunk (raiseTrunk (mgmtCtr s t 1 1) t 1) t (fun x => { quiet x with lastDown := c })) u = trunk s u := by
    rw [updTrunk, trunk_setTrunk_ne _ _ h, trunk_raiseTrunk, trunk_mgmtCtr]
  unfold trunkDown
  dsimp only
  split
  · rw [trunk_enterGrant_ne _ _ h]
    split
    · rw [trunk_enterDisabled_ne _ _ h, h2]
    · exact h2
  · split
    · rw [trunk_enterDisabled_ne _ _ h, h2]
    · exact h2

theorem trunkDown_ends : (trunk (trunkDown s t c) t).state ≠ .up ∧ (trunk (trunkDown s t c) t).lastDown = c := by
  rw [trunk_trunkDown_same]
  exact ⟨downed_notUp _ _ _, downed_lastDown _ _ _⟩

theorem trunkDown_events : (trunkDown s t c).events = (raiseTrunk (mgmtCtr s t 1 1) t 1).events := by rw [trunkDown_frame]

theorem trunkDown_ctrs : (trunkDown s t c).ctrs = (mgmtCtr s t 1 1).ctrs := by
  rw [trunkDown_frame]
  exact raise_ctrs _ _ _

theorem trunkDown_count : ctr (trunkDown s t c) (0x4015 + t.val) 1 = satAdd64 (ctr s (0x4015 + t.val) 1) 1 := by
  rw [ctr, trunkDown_ctrs]
  exact ctr_bumpBy_same s _ 1 1

/-- Going down takes no event away, and adds trunk-down. -/
theorem trunkDown_pending_of_pending {e : Nat} (h : s.events.pending.getLsbD e = true) :
    (trunkDown s t c).events.pending.getLsbD e = true := by
  rw [trunkDown_events]
  exact raise_pending_of_pending (s := mgmtCtr s t 1 1) _ _ h

theorem trunkDown_pending (h : ctlOn s = true) : (trunkDown s t c).events.pending.getLsbD (129 + 16 * t.val) = true := by
  have he : evTrunk t.val 1 = 129 + 16 * t.val := by simp only [evTrunk]; omega
  rw [trunkDown_events, ← he]
  exact raise_pending_self (s := mgmtCtr s t 1 1) _ h (by rw [he]; omega)

end

/-- A trunk event of Table 13.6 is pending once raised. -/
theorem raiseTrunk_pending {s : State} (t : Trunk) {j e : Nat} (h : ctlOn s = true) (hj : j < 16) (he : e = 128 + 16 * t.val + j) :
    (raiseTrunk s t j).events.pending.getLsbD e = true := by
  subst he
  exact raise_pending_self (s := s) _ h (by simp only [evTrunk]; omega)

end Sys2Proof.Machine

/-! PROOF. The words of `tf_tx_` become a payload (R74, R75, R316, Table 2.2). -/

namespace Sys2Proof.Machine

/-! ### The transmit queues -/

@[simp] theorem txQueue_setTxQueue_same (x : TrunkSt) (v : Nat) (q : List TxPayload) : txQueue (setTxQueue x v q) v = q :=
  spGet_spSet_same qNone x.txQ v q

theorem txQueue_setTxQueue_ne (x : TrunkSt) {v u : Nat} (h : u ≠ v) (q : List TxPayload) :
    txQueue (setTxQueue x v q) u = txQueue x u := spGet_spSet_ne qNone x.txQ v u q h

theorem ceilDiv_mono {a b c : Nat} (h : a ≤ b) : ceilDiv a c ≤ ceilDiv b c := Nat.div_le_div_right (by omega)

theorem tfBytes_length {w : TfWord} (h : w.nbytes.toNat ≤ 32) : (tfBytes w).length = w.nbytes.toNat := by
  rw [tfBytes, List.length_take, wordBytes_length]
  omega

theorem tfBytes_full {w : TfWord} (h : w.nbytes = 32) : (tfBytes w).length = 32 := by
  rw [tfBytes_length (by rw [h]; decide), h]
  rfl

/-! ### A payload being accepted -/

/-- A trunk with a payload being accepted. -/
def filling (x : TrunkSt) (o : TfOpen) : TrunkSt := { x with tfSkip := false, tfOpen := some o }

/-- A payload with more bytes. -/
def TfOpen.more (o : TfOpen) (bs : Bytes) : TfOpen := { o with bytes := o.bytes ++ bs }

/-- A word that continues a payload: full, error-free and of its channel and destination. -/
def Continues (o : TfOpen) (w : TfWord) : Prop := w.vc = o.vc ∧ w.dst = o.dst ∧ w.eop = false ∧ w.nbytes = 32 ∧ w.err = false

section
variable {t : Trunk} {x : TrunkSt} {o : TfOpen} {s r : State} {w : TfWord}

theorem Continues.length (h : Continues o w) : (tfBytes w).length = 32 := tfBytes_full h.2.2.2.1

variable (h : OnlyTrunk t (filling x o) s r)
include h

theorem takeTf_continues (hw : Continues o w) (ho : o.lastWord = s.now) (hl : o.bytes.length + 32 ≤ 2048) :
    OnlyTrunk t (filling x (o.more (tfBytes w))) s (takeTf r t w) := by
  have hlen := hw.length
  obtain ⟨hv, hd, he, hn, hr⟩ := hw
  have hopen : (trunk r t).tfOpen = some o := by rw [h.own]; rfl
  have hbad : tfBad w = false := by simp [tfBad, hn, he]
  have hgood : ¬(o.vc ≠ w.vc ∨ o.dst ≠ w.dst ∨ w.err = true ∨ 2048 < (o.bytes ++ tfBytes w).length ∨ tfBad w = true) := by
    rw [List.length_append, hlen, hv, hd, hr, hbad]
    simp
    omega
  simp only [takeTf, hopen]
  rw [if_neg hgood, if_pos (by rw [he]; rfl)]
  refine h.updTo ?_
  rw [h.now, ← ho]
  rfl

/-- A word whose channel has room for it, inside the payload, is taken. -/
theorem acceptTf_inside (hp : pathOn s = true) (hu : x.state = .up) (hs : w.sop = false) (hv : w.vc = o.vc)
    (hroom : (txQueue x o.vc.toNat).foldl (fun a p => a + ceilDiv p.payload.length 64) 0 + ceilDiv (o.bytes.length + 32) 64 ≤
      queueCapacity s t o.vc.toNat) : acceptTf t r w = takeTf r t w := by
  have hcap : queueCapacity r t o.vc.toNat = queueCapacity s t o.vc.toNat := by rw [h.frame]; rfl
  have hunits : queueUnits (trunk r t) o.vc.toNat 32 =
      (txQueue x o.vc.toNat).foldl (fun a p => a + ceilDiv p.payload.length 64) 0 + ceilDiv (o.bytes.length + 32) 64 := by
    rw [h.own]
    simp [queueUnits, filling, txQueue]
  have hready : tfReady r t w.vc.toNat = true := by
    have hup : trunkUp r t = true := by rw [trunkUp_eq, h.own]; exact hu
    rw [tfReady, h.pathOn, hp, hup, hv, hunits, hcap, decide_eq_true hroom]
    rfl
  have hskip : (trunk r t).tfSkip = false := by rw [h.own]; rfl
  have hopen : (trunk r t).tfOpen.isNone = false := by rw [h.own]; rfl
  simp only [acceptTf, hready, hs, hskip, hopen]
  rfl

end

/-- Bytes of words. -/
def tfBytesOf (ws : List TfWord) : Bytes := ws.flatMap tfBytes

theorem tfBytesOf_length {ws : List TfWord} (h : ∀ w ∈ ws, w.nbytes = 32) : (tfBytesOf ws).length = 32 * ws.length := by
  induction ws with
  | nil => rfl
  | cons w ws ih =>
    have hw := tfBytes_full (h w List.mem_cons_self)
    have hi := ih fun v hv => h v (List.mem_cons_of_mem _ hv)
    simp only [tfBytesOf, List.flatMap_cons, List.length_append, List.length_cons] at hi ⊢
    omega

theorem TfOpen.more_more (o : TfOpen) (a b : Bytes) : (o.more a).more b = o.more (a ++ b) := by
  simp [TfOpen.more]

/-- Words inside a payload that has room for them all extend it. -/
theorem foldl_acceptTf_continues {t : Trunk} {x : TrunkSt} {s : State} (hp : pathOn s = true) (hu : x.state = .up) (ws : List TfWord) :
    ∀ {o : TfOpen} {r : State}, OnlyTrunk t (filling x o) s r → o.lastWord = s.now → (∀ w ∈ ws, Continues o w ∧ w.sop = false) →
      o.bytes.length + 32 * ws.length ≤ 2048 →
      (txQueue x o.vc.toNat).foldl (fun a p => a + ceilDiv p.payload.length 64) 0 + ceilDiv (o.bytes.length + 32 * ws.length) 64 ≤
        queueCapacity s t o.vc.toNat →
      OnlyTrunk t (filling x (o.more (tfBytesOf ws))) s (ws.foldl (acceptTf t) r) := by
  induction ws with
  | nil =>
    intro o r h _ _ _ _
    simpa [tfBytesOf, TfOpen.more] using h
  | cons w ws ih =>
    intro o r h ho hws hlen hroom
    obtain ⟨hw, hsop⟩ := hws w List.mem_cons_self
    rw [List.length_cons] at hlen hroom
    have hfirst : ceilDiv (o.bytes.length + 32) 64 ≤ ceilDiv (o.bytes.length + 32 * (ws.length + 1)) 64 := ceilDiv_mono (by omega)
    have hmore : (o.more (tfBytes w)).bytes.length = o.bytes.length + 32 := by
      rw [TfOpen.more, List.length_append, hw.length]
    have hrest : (o.more (tfBytes w)).bytes.length + 32 * ws.length = o.bytes.length + 32 * (ws.length + 1) := by omega
    rw [List.foldl_cons, acceptTf_inside h hp hu hsop hw.1 (by omega)]
    have := ih (takeTf_continues h hw ho (by omega)) ho (fun v hv => hws v (List.mem_cons_of_mem _ hv)) (by omega)
      (by rw [hrest]; exact hroom)
    rwa [TfOpen.more_more] at this

/-! ### The last word -/

section
variable {t : Trunk} {x : TrunkSt} {o : TfOpen} {s r : State} {w : TfWord} (h : OnlyTrunk t (filling x o) s r)
include h

/-- A last word with an error drops the payload (R75). -/
theorem takeTf_error (he : w.err = true) (hl : w.eop = true) : takeTf r t w = dropTf r t false := by
  have hopen : (trunk r t).tfOpen = some o := by rw [h.own]; rfl
  simp only [takeTf, hopen]
  rw [if_pos (.inr (.inr (.inl he))), hl]
  rfl

/-- The trunk once the payload with its last word has joined its queue. -/
def queued (x : TrunkSt) (o : TfOpen) : TrunkSt :=
  { setTxQueue (filling x o) o.vc.toNat (txQueue x o.vc.toNat ++ [⟨o.dst, o.bytes, o.acceptedAt, o.acceptedIn⟩]) with tfOpen := none }

theorem takeTf_last (hv : w.vc = o.vc) (hd : w.dst = o.dst) (he : w.err = false) (hl : w.eop = true) (hn : 1 ≤ w.nbytes.toNat)
    (hn' : w.nbytes.toNat ≤ 32) (hlen : 32 ≤ (o.bytes ++ tfBytes w).length) (hlen' : (o.bytes ++ tfBytes w).length ≤ 2048) :
    OnlyTrunk t (queued x (o.more (tfBytes w))) s (takeTf r t w) := by
  have hopen : (trunk r t).tfOpen = some o := by rw [h.own]; rfl
  have hz : w.nbytes ≠ 0 := by rintro h0; rw [h0] at hn; simp at hn
  have hbad : tfBad w = false := by
    have hbeq : (w.nbytes == 0) = false := beq_eq_false_iff_ne.mpr hz
    rw [tfBad, hbeq, hl, decide_eq_false (by omega)]
    rfl
  have hgood : ¬(o.vc ≠ w.vc ∨ o.dst ≠ w.dst ∨ w.err = true ∨ 2048 < (o.bytes ++ tfBytes w).length ∨ tfBad w = true) := by
    rw [hv, hd, he, hbad]
    simpa using hlen'
  simp only [takeTf, hopen]
  rw [if_neg hgood, hl, if_neg (by simp), if_neg (by omega)]
  exact h.updTo rfl

end

/-! ### A whole payload -/

section
variable {s : State} {t : Trunk} {w : TfWord}

/-- A first word opens its payload with the stamps of its cycle, and is taken as its first bytes. -/
theorem acceptTf_first (hp : pathOn s = true) (hu : trunkUp s t = true) (ho : (trunk s t).tfOpen = none) (hs : w.sop = true)
    (hroom : queueUnits (trunk s t) w.vc.toNat 32 ≤ queueCapacity s t w.vc.toNat) :
    acceptTf t s w = takeTf (openTf s t w) t w := by
  have hready : tfReady s t w.vc.toNat = true := by rw [tfReady, hp, hu, decide_eq_true hroom]; rfl
  simp only [acceptTf, hready, hs, ho]
  rfl

/-- The payload that a first word opens. -/
def opened (s : State) (v : BitVec 2) (dst : W16) : TfOpen :=
  { vc := v, dst := dst, bytes := [], acceptedAt := localNs s, acceptedIn := s.now, lastWord := s.now }

theorem openTf_only (s : State) (t : Trunk) (w : TfWord) :
    OnlyTrunk t (filling (trunk s t) (opened s w.vc w.dst)) s (openTf s t w) := by
  unfold openTf
  exact (OnlyTrunk.refl t s).updTo rfl

end

/-- The words of one payload with room for all of it, up to the last: the last one is taken over the bytes of the others. -/
theorem foldl_acceptTf_payload {s : State} {t : Trunk} {v : BitVec 2} {dst : W16} {ws : List TfWord} {w : TfWord} (hp : pathOn s = true)
    (hu : trunkUp s t = true) (ho : (trunk s t).tfOpen = none)
    (hws : ∀ i x, (ws ++ [w])[i]? = some x → x.vc = v ∧ x.dst = dst ∧ (x.sop = true ↔ i = 0))
    (hfull : ∀ x ∈ ws, x.eop = false ∧ x.nbytes = 32 ∧ x.err = false) (hlen : 32 * ws.length ≤ 2048)
    (hroom : queueUnits (trunk s t) v.toNat (32 * (ws.length + 1)) ≤ queueCapacity s t v.toNat) :
    ∃ r, OnlyTrunk t (filling (trunk s t) ((opened s v dst).more (tfBytesOf ws))) s r ∧
      (ws ++ [w]).foldl (acceptTf t) s = takeTf r t w := by
  have hup : (trunk s t).state = .up := trunkUp_eq s t |>.mp hu
  have hunits : ∀ n, queueUnits (trunk s t) v.toNat n =
      (txQueue (trunk s t) v.toNat).foldl (fun a p => a + ceilDiv p.payload.length 64) 0 + ceilDiv n 64 := by
    intro n
    simp [queueUnits, ho]
  rw [hunits] at hroom
  have hlast := hws ws.length w (by simp)
  have hmono : ∀ n, n ≤ 32 * (ws.length + 1) → queueUnits (trunk s t) v.toNat n ≤ queueCapacity s t v.toNat := fun n hn => by
    have := ceilDiv_mono (c := 64) hn
    rw [hunits]
    omega
  rcases ws with _ | ⟨w0, ws⟩
  · obtain ⟨rfl, rfl, hs⟩ := hlast
    refine ⟨_, openTf_only s t w, ?_⟩
    rw [List.nil_append, List.foldl_cons, List.foldl_nil, acceptTf_first hp hu ho (hs.mpr rfl) (hmono 32 (by simp))]
  · obtain ⟨hv0, hd0, hs0⟩ := hws 0 w0 rfl
    have hcont : ∀ x ∈ ws, Continues (opened s v dst) x ∧ x.sop = false := by
      intro x hx
      obtain ⟨i, hi⟩ := List.mem_iff_getElem?.mp hx
      have hi' : (w0 :: ws ++ [w])[i + 1]? = some x := by
        rw [List.cons_append, List.getElem?_cons_succ]
        exact List.getElem?_append_left (List.getElem?_eq_some_iff.mp hi).1 |>.trans hi
      obtain ⟨hv, hd, hs⟩ := hws (i + 1) x hi'
      obtain ⟨he, hn, hr⟩ := hfull x (List.mem_cons_of_mem _ hx)
      exact ⟨⟨hv, hd, he, hn, hr⟩, Bool.eq_false_iff.mpr fun h => absurd (hs.mp h) (by simp)⟩
    obtain ⟨he0, hn0, hr0⟩ := hfull w0 List.mem_cons_self
    have hw0 : Continues (opened s v dst) w0 := ⟨hv0, hd0, he0, hn0, hr0⟩
    have hopen : OnlyTrunk t (filling (trunk s t) (opened s v dst)) s (openTf s t w0) := by
      have := openTf_only s t w0
      rwa [hv0, hd0] at this
    have hfirst := takeTf_continues hopen hw0 rfl (by simp [opened])
    have hbytes : ((opened s v dst).more (tfBytes w0)).bytes.length = 32 := by
      rw [TfOpen.more, List.length_append, hw0.length]
      rfl
    rw [List.length_cons] at hlen hroom hmono
    have hmid := foldl_acceptTf_continues hp hup ws hfirst rfl hcont (by omega) (by
      have := ceilDiv_mono (a := 32 + 32 * ws.length) (b := 32 * (ws.length + 1 + 1)) (c := 64) (by omega)
      rw [hbytes]
      exact Nat.le_trans (Nat.add_le_add_left this _) hroom)
    rw [TfOpen.more_more] at hmid
    refine ⟨_, hmid, ?_⟩
    rw [List.cons_append, List.foldl_cons, List.foldl_append, List.foldl_cons, List.foldl_nil,
      acceptTf_first hp hu ho (hs0.mpr rfl) (by rw [hv0]; exact hmono 32 (by omega))]
    refine acceptTf_inside hmid hp hup (Bool.eq_false_iff.mpr fun h => absurd (hlast.2.2.mp h) (by simp)) hlast.1 ?_
    have hl : ((opened s v dst).more (tfBytesOf (w0 :: ws))).bytes.length + 32 = 32 * (ws.length + 1 + 1) := by
      have := tfBytesOf_length (ws := w0 :: ws) fun x hx => (hfull x hx).2.1
      rw [TfOpen.more, List.length_append, this]
      simp [opened]
      omega
    have hb : tfBytes w0 ++ tfBytesOf ws = tfBytesOf (w0 :: ws) := rfl
    rw [hb, hl]
    exact hroom

end Sys2Proof.Machine

/-! PROOF. Units on the line: the length of a packet, what is sent at a unit boundary and in which order (R305, R316, R317,
R319, R321, R324, Table 9.8). -/

namespace Sys2Proof.Machine

/-! ### Lengths -/

@[simp] theorem zeros_length (n : Nat) : (zeros n).length = n := List.length_replicate

@[simp] theorem fitTo_length (n : Nat) (bs : Bytes) : (fitTo n bs).length = n := by
  rw [fitTo, List.length_take, List.length_append, zeros_length]
  omega

@[simp] theorem flitsOf_length (n : Nat) (bs : Bytes) : (flitsOf n bs).length = n := by
  induction n generalizing bs with
  | zero => rfl
  | succ n ih => rw [flitsOf, List.length_cons, ih]

theorem packetUnits_length (bs : Bytes) : (packetUnits bs).length = ceilDiv bs.length 32 := by
  have h := flitsOf_length (ceilDiv bs.length 32) bs
  unfold packetUnits
  split
  · next hf => rw [hf] at h; exact h
  · next f fs hf =>
    rw [hf] at h
    rw [← h, List.length_cons, List.length_cons, List.length_map]

@[simp] theorem keystream_length (e : Block → Block) (j : Block) (n i : Nat) : (keystream e j n i).length = 16 * n := by
  induction n generalizing i with
  | zero => rfl
  | succ n ih =>
    rw [keystream, List.length_append, toBE_length, ih]
    omega

@[simp] theorem ctrCrypt_length (e : Block → Block) (j : Block) (pt : Bytes) : (ctrCrypt e j pt).length = pt.length := by
  rw [ctrCrypt, xorBytes, List.length_zipWith, keystream_length, ceilDiv]
  omega

theorem headerBytes_length (vc : BitVec 2) (kp : Bool) (r len : Nat) (seq ack src dst : W16) (cvc : BitVec 2) (ccum : BitVec 12) :
    (headerBytes vc kp r len seq ack src dst cvc ccum).length = 12 := wordBytes_length _

theorem packetBytes_length {k : UnitKey} {iv : BitVec 96} {hdr : Bytes} {bx : Bool} {payload : Bytes} (h : hdr.length = 12) :
    (packetBytes k iv hdr bx payload).length = 32 * ceilDiv (payload.length + 32) 32 := by
  have hbody : ∀ body : Bytes, body.length = payload.length → ∀ tag : Nat, ∀ crc : Nat,
      (hdr ++ toBE 4 crc ++ body ++ toBE 16 tag).length = payload.length + 32 := by
    intro body hb tag crc
    rw [List.length_append, List.length_append, List.length_append, toBE_length, toBE_length, h, hb]
    omega
  unfold packetBytes
  dsimp only
  rw [fitTo_length, hbody _ (by cases bx <;> simp)]

/-! ### Groups are sent whole -/

section
variable {t : Trunk} {x : TrunkSt} {s r : State}

theorem sendGroups_short (n : Nat) (h : (trunk r t).lineOut.length < 20 * widthOf (trunk r t).active) : sendGroups t (n + 1) r = r := by
  unfold sendGroups
  dsimp only
  rw [if_pos (.inr h)]

/-- Units that do not fill the group stay on the line. -/
theorem OnlyTrunk.emit {us : List (Bool × Bytes)} (h : OnlyTrunk t x s r)
    (hl : x.lineOut.length + us.length < 20 * widthOf x.active) :
    OnlyTrunk t { x with lineOut := x.lineOut ++ us } s (emit r t us) := by
  have hu := h.upd fun x => { x with lineOut := x.lineOut ++ us }
  unfold Machine.emit
  rw [sendGroups_short 4]
  · exact hu
  · rw [hu.own]
    simpa using hl

theorem OnlyTrunk.noteWaits (h : OnlyTrunk t x s r) : ∃ hs st, OnlyTrunk t (withWaits hs st x) s (noteWaits r t) := by
  obtain ⟨hs, st, hw⟩ := noteWaits_waitsMoved r t
  rw [h.own] at hw
  exact ⟨hs, st, h.trans hw⟩

end

theorem fitsBeforeSwitch_calm {x : TrunkSt} (h : x.changing = []) (n : Nat) : fitsBeforeSwitch x n = true := by
  rw [fitsBeforeSwitch, h]
  rfl

/-! ### A transmission of an entry (R319) -/

/-- The units that carry an entry. -/
def entryUnits (s : State) (t : Trunk) (k : UnitKey) (e : ReplayEntry) : List (Bool × Bytes) :=
  let x := trunk s t
  packetUnits (packetBytes k (unitIv k.salt (ivDir s t true) false e.r e.esn)
    (headerBytes e.vc x.txKp e.r (e.payload.length - 1) (BitVec.ofNat 16 e.esn) (BitVec.ofNat 16 x.e) (nodeId s t) e.dst
      (vcBits (chooseCvc x).1) (cRetOf x (chooseCvc x).1)) (e.vc == 3) e.payload)

/-- What a header tells of its trunk, besides the entry. -/
structure SameHeader (x y : TrunkSt) : Prop where
  txKp : y.txKp = x.txKp
  e : y.e = x.e
  peerNode : y.peerNode = x.peerNode
  cRet : y.cRet = x.cRet
  changes : y.changes = x.changes
  nextCvc : y.nextCvc = x.nextCvc

theorem SameHeader.chooseCvc {x y : TrunkSt} (h : SameHeader x y) : (chooseCvc y).1 = (chooseCvc x).1 := by
  unfold Machine.chooseCvc
  rw [h.changes, h.nextCvc]
  split <;> rfl

theorem entryUnits_congr {s r : State} {t : Trunk} (h : SameHeader (trunk s t) (trunk r t)) (hn : nodeId r t = nodeId s t)
    (k : UnitKey) (e : ReplayEntry) : entryUnits r t k e = entryUnits s t k e := by
  unfold entryUnits ivDir cRetOf
  dsimp only
  rw [h.chooseCvc, h.txKp, h.e, h.peerNode, h.cRet, hn]

theorem entryUnits_length (s : State) (t : Trunk) (k : UnitKey) (e : ReplayEntry) :
    (entryUnits s t k e).length = ceilDiv (e.payload.length + 32) 32 := by
  rw [entryUnits, packetUnits_length, packetBytes_length (headerBytes_length _ _ _ _ _ _ _ _ _ _), ceilDiv, ceilDiv]
  omega

/-- A trunk with other changes to carry. -/
def withCarried (ch : List (Nat × Nat)) (c : Nat) (x : TrunkSt) : TrunkSt := { x with changes := ch, nextCvc := c }

theorem carried_chooseCvc (x : TrunkSt) (i : Nat) : ∃ ch c, carried i (chooseCvc x).2 = withCarried ch c x := by
  unfold chooseCvc
  split
  · exact ⟨_, x.nextCvc, rfl⟩
  · exact ⟨_, _, rfl⟩

theorem sendEntry_only {s : State} {t : Trunk} (k : UnitKey) {e : ReplayEntry}
    (hl : (trunk s t).lineOut.length + ceilDiv (e.payload.length + 32) 32 < 20 * widthOf (trunk s t).active) :
    ∃ ch c, OnlyTrunk t { withCarried ch c (trunk s t) with lineOut := (trunk s t).lineOut ++ entryUnits s t k e } s
      (sendEntry s t k e) := by
  obtain ⟨ch, c, hc⟩ := carried_chooseCvc (trunk s t) 4
  have hset := onlyTrunk_set t (withCarried ch c (trunk s t)) s
  refine ⟨ch, c, ?_⟩
  unfold sendEntry
  dsimp only
  rw [hc]
  exact hset.emit (us := entryUnits s t k e) (by rw [entryUnits_length]; exact hl)

/-! ### The unit of a boundary (Table 9.8) -/

/-- A trunk up with its transmit key, no lane change and no command to send. -/
structure Steady (s : State) (t : Trunk) (k : UnitKey) : Prop where
  path : pathOn s = true
  up : (trunk s t).state = .up
  changing : (trunk s t).changing = []
  commands : (trunk s t).commands = []
  key : txKey s t = some k
  keeps : maySwitchTx s t = false

section
variable {s : State} {t : Trunk} {k : UnitKey} (h : Steady s t k)
include h

theorem Steady.settled : settleTxKey (switchTxLanes s t) t = s := by
  have hs : switchTxLanes s t = s := by simp only [switchTxLanes, h.changing, List.find?_nil]
  rw [hs, settleTxKey, h.keeps, h.key]
  rfl

theorem Steady.unitBoundary : exec (.unitBoundary t) s = .next (noteWaits (sendUnit s t (chooseUnit s t)) t) := by
  show execUnitBoundary t s = _
  rw [execUnitBoundary, h.path, (trunkUp_eq s t).mpr h.up]
  simp only [Machine.unitBoundary, h.settled]
  rfl

theorem Steady.sendAck : sendUnit s t .ack = sendAck s t k := by
  simp only [sendUnit, fitsBeforeSwitch_calm h.changing, h.key]
  rfl

theorem Steady.sendHeld (e : ReplayEntry) : sendUnit s t (.replay e) = sendHeld s t k e := by
  simp only [sendUnit, fitsBeforeSwitch_calm h.changing, h.key]
  rfl

theorem Steady.sendFresh (v : Nat) (p : TxPayload) : sendUnit s t (.fresh v p) = numberAndSend s t k v p := by
  simp only [sendUnit, fitsBeforeSwitch_calm h.changing, h.key]
  rfl

theorem Steady.choosesAck (hd : ackIsDue s t = true) (hk : (trunk s t).sender ≠ .keyHalt) : chooseUnit s t = .ack := by
  simp only [chooseUnit, h.commands, h.key, hd]
  rw [if_neg hk]
  rfl

theorem Steady.choosesReplay {e : ReplayEntry} (hd : ackIsDue s t = false) (hk : (trunk s t).sender = .replay)
    (he : nextReplay (trunk s t) = some e) : chooseUnit s t = .replay e := by
  simp [chooseUnit, h.commands, h.key, hd, hk, he]

theorem Steady.choosesFresh {v : Nat} {p : TxPayload} {rest : List TxPayload} (hd : ackIsDue s t = false)
    (hk : (trunk s t).sender = .run) (hn : (trunk s t).n ≤ (trunk s t).replayPtr) (hw : freshWinner s t = some v)
    (hq : txQueue (trunk s t) v = p :: rest) : chooseUnit s t = .fresh v p := by
  have hr : nextReplay (trunk s t) = none := by rw [nextReplay, if_pos hn]
  simp [chooseUnit, h.commands, h.key, hd, hk, hr, hw, hq]

/-- PAYLOAD_NUMBERING of the winning channel sends what the unit boundary sends, of another channel nothing. -/
theorem Steady.payloadNumbering {v : Nat} {p : TxPayload} (hc : chooseUnit s t = .fresh v p) (u : BitVec 2) :
    exec (.payloadNumbering t u) s = .next (if v = u.toNat then noteWaits (numberAndSend s t k v p) t else s) := by
  show execPayloadNumbering t u s = _
  rw [execPayloadNumbering, h.path, (trunkUp_eq s t).mpr h.up]
  simp only [h.settled, hc, fitsBeforeSwitch_calm h.changing, h.sendFresh]
  simp

end

/-! ### Acknowledgement (R321) -/

/-- The trunk once an acknowledgement carries its state. -/
def acked (s : State) (t : Trunk) (x : TrunkSt) : TrunkSt :=
  { x with afc := x.afc + 1, ackDue := false, changes := [], lastAck := s.now, nkrSent := nkr s t }

theorem sendAck_only {s : State} {t : Trunk} (k : UnitKey) (hl : (trunk s t).lineOut.length + 1 < 20 * widthOf (trunk s t).active) :
    OnlyTrunk t { acked s t (trunk s t) with lineOut := (trunk s t).lineOut ++ [(false, ackFlit s t k)] } (transportCtr s t 17)
      (sendAck s t k) :=
  OnlyTrunk.emit (onlyTrunk_upd t (transportCtr s t 17) (acked s t)) hl

/-! ### Numbering (R317) -/

/-- The entry that a payload leaves when it is numbered. -/
def numberedEntry (x : TrunkSt) (v : Nat) (p : TxPayload) : ReplayEntry :=
  { esn := x.n, vc := vcBits v, dst := p.dst, r := 0, sent := true, settled := true, charge := chargeOf p.payload.length
    payload := p.payload, lost := false }

/-- The trunk once the head of a channel has its number. -/
def headNumbered (now : Nat) (x : TrunkSt) (v : Nat) (p : TxPayload) : TrunkSt :=
  { setTxQueue (setCr x v (crOf x v - chargeOf p.payload.length)) v ((txQueue x v).drop 1) with
      n := x.n + 1, replayPtr := x.n + 1, entries := x.entries ++ [numberedEntry x v p], esnEnd := decide (x.n + 1 = 2 ^ 64)
      timerStart := if x.timerStart.isSome then x.timerStart else some now
      lastBulk := if v = 0 ∨ v = 3 then vcBits v else x.lastBulk }

theorem headNumbered_sameHeader (now : Nat) (x : TrunkSt) (v : Nat) (p : TxPayload) : SameHeader x (headNumbered now x v p) :=
  ⟨rfl, rfl, rfl, rfl, rfl, rfl⟩

theorem numberAndSend_only {s : State} {t : Trunk} (k : UnitKey) {v : Nat} {p : TxPayload} (hn : (trunk s t).n + 1 < 2 ^ 64)
    (hl : (trunk s t).lineOut.length + ceilDiv (p.payload.length + 32) 32 < 20 * widthOf (trunk s t).active) :
    ∃ ch c, OnlyTrunk t { withCarried ch c (headNumbered s.now (trunk s t) v p) with
        lineOut := (trunk s t).lineOut ++ entryUnits s t k (numberedEntry (trunk s t) v p) }
      (countFirst s t p.payload.length) (numberAndSend s t k v p) := by
  have hset := onlyTrunk_set t (headNumbered s.now (trunk s t) v p) (countFirst s t p.payload.length)
  have hlast : decide ((trunk s t).n + 1 = 2 ^ 64) = false := decide_eq_false (by omega)
  have hsend : numberAndSend s t k v p =
      sendEntry (setTrunk (countFirst s t p.payload.length) t (headNumbered s.now (trunk s t) v p)) t k (numberedEntry (trunk s t) v p) := by
    unfold numberAndSend
    dsimp only
    rw [if_neg (by rw [hlast]; exact Bool.false_ne_true)]
    rfl
  obtain ⟨ch, c, he⟩ := sendEntry_only (s := setTrunk (countFirst s t p.payload.length) t (headNumbered s.now (trunk s t) v p)) (t := t) k
    (e := numberedEntry (trunk s t) v p) (by rw [hset.own]; exact hl)
  refine ⟨ch, c, ?_⟩
  rw [hsend]
  have hunits : entryUnits (setTrunk (countFirst s t p.payload.length) t (headNumbered s.now (trunk s t) v p)) t k
      (numberedEntry (trunk s t) v p) = entryUnits s t k (numberedEntry (trunk s t) v p) := by
    refine entryUnits_congr ?_ (hset.nodeId t) k _
    rw [hset.own]
    exact headNumbered_sameHeader _ _ _ _
  rw [hset.own, hunits] at he
  exact hset.trans he

/-! ### A held entry (R324, R325) -/

/-- The trunk once a held entry has its next transmission. -/
def resent (x : TrunkSt) (e : ReplayEntry) : TrunkSt :=
  let x1 := if e.settled then x else setCr x e.vc.toNat (crOf x e.vc.toNat - e.charge)
  endRound { x1 with replayPtr := e.esn + 1
                     entries := x1.entries.map (fun f => if f.esn = e.esn then { e with r := e.r + 1, settled := true } else f) }

theorem resent_fields (x : TrunkSt) (e : ReplayEntry) : (resent x e).replayPtr = e.esn + 1 ∧ (resent x e).n = x.n ∧
    (resent x e).entries = x.entries.map (fun f => if f.esn = e.esn then { e with r := e.r + 1, settled := true } else f) ∧
    (resent x e).lineOut = x.lineOut ∧ (resent x e).active = x.active := by
  unfold resent endRound
  dsimp only
  split
  · split
    · exact ⟨rfl, rfl, rfl, rfl, rfl⟩
    · exact ⟨rfl, rfl, rfl, rfl, rfl⟩
  · split
    · exact ⟨rfl, rfl, rfl, rfl, rfl⟩
    · exact ⟨rfl, rfl, rfl, rfl, rfl⟩

section
variable {s : State} {t : Trunk} (k : UnitKey) {e : ReplayEntry} (hlost : e.lost = false) (hsent : e.sent = true)
include hlost hsent

theorem sendHeld_only (hr : e.r < 15)
    (hl : (trunk s t).lineOut.length + ceilDiv (e.payload.length + 32) 32 < 20 * widthOf (trunk s t).active) :
    ∃ ch c us, OnlyTrunk t { withCarried ch c (resent (trunk s t) e) with lineOut := us } (transportCtr s t 3) (sendHeld s t k e) := by
  have hset : OnlyTrunk t (resent (trunk s t) e) (transportCtr s t 3) (updTrunk (transportCtr s t 3) t (fun x => resent x e)) :=
    onlyTrunk_upd t (transportCtr s t 3) fun x => resent x e
  obtain ⟨-, -, -, hline, hact⟩ := resent_fields (trunk s t) e
  have hsend : sendHeld s t k e =
      sendEntry (updTrunk (transportCtr s t 3) t (fun x => resent x e)) t k { e with r := e.r + 1, settled := true } := by
    have hmax : (e.sent && e.r == 15) = false := by simp; omega
    unfold sendHeld
    rw [hlost, hmax]
    obtain ⟨esn, vc, dst, r, sent, settled, charge, payload, lost⟩ := e
    dsimp only at hlost hsent
    subst hlost hsent
    rfl
  obtain ⟨ch, c, hgo⟩ := sendEntry_only (s := updTrunk (transportCtr s t 3) t (fun x => resent x e)) (t := t) k
    (e := { e with r := e.r + 1, settled := true }) (by rw [hset.own, hline, hact]; exact hl)
  rw [hset.own] at hgo
  rw [hsend]
  exact ⟨ch, c, _, hset.trans hgo⟩

/-- At r = 15 there is no further transmission: the trunk goes down with cause 2 (R325). -/
theorem sendHeld_exhausted (hr : e.r = 15) : sendHeld s t k e = trunkDown (raise s (evReplayExhausted t.val) t.val) t 2 := by
  have hmax : (e.sent && e.r == 15) = true := by simp [hsent, hr]
  unfold sendHeld
  rw [hlost, hmax]
  rfl

end

end Sys2Proof.Machine

/-! PROOF. Trunk payloads are accepted, numbered, sent again and given up in time (R75, R317, R321, R323, R370, R373). -/

namespace Sys2Proof.Machine

/-! ### Counted and reported steps of one trunk -/

section
variable {t : Trunk} {x : TrunkSt} {s a r : State} (h : OnlyTrunk t x a r)
include h

theorem OnlyTrunk.frame_reported (ha : a = { s with trunks := a.trunks, ctrs := a.ctrs, events := a.events }) :
    r = { s with trunks := r.trunks, ctrs := r.ctrs, events := r.events } := by
  refine h.frame.trans ?_
  rw [h.ctrs, h.events]
  exact congrArg (fun z : State => { z with trunks := r.trunks }) ha

theorem OnlyTrunk.frame_counted (ha : a = { s with trunks := a.trunks, ctrs := a.ctrs }) :
    r = { s with trunks := r.trunks, ctrs := r.ctrs } := by
  refine h.frame.trans ?_
  rw [h.ctrs]
  exact congrArg (fun z : State => { z with trunks := r.trunks }) ha

end

/-! ### Protocol errors (R346) -/

section
variable (s : State) (t : Trunk)

@[simp] theorem trunk_protocolError (u : Trunk) : trunk (protocolError s t) u = trunk s u := by simp [protocolError]

theorem protocolError_trunks : (protocolError s t).trunks = s.trunks := raise_trunks _ _ _

theorem protocolError_frame : protocolError s t = { s with ctrs := (protocolError s t).ctrs, events := (protocolError s t).events } := by
  unfold protocolError raiseTrunk
  rw [raise_frame]
  rfl

theorem ctr_protocolError : ctr (protocolError s t) (0x4011 + t.val) 19 = satAdd64 (ctr s (0x4011 + t.val) 19) 1 :=
  (ctr_raise _ _ _ _ _).trans (ctr_transportCtr s t 19)

theorem protocolError_pending (h : ctlOn s = true) : (protocolError s t).events.pending.getLsbD (138 + 16 * t.val) = true :=
  raiseTrunk_pending (s := transportCtr s t 19) t (j := 10) h (by decide) (by omega)

theorem dropTf_only (k : Bool) : OnlyTrunk t { trunk s t with tfOpen := none, tfSkip := k } (protocolError s t) (dropTf s t k) := by
  have h := onlyTrunk_upd t (protocolError s t) fun x => { x with tfOpen := none, tfSkip := k }
  rwa [trunk_protocolError] at h

end

/-! ### A payload on `tf_tx_` (R74, R75) -/

/-- The last word of a payload, error-free or not, decides on all of it. -/
theorem tfTxPayload_decides {s b : State} {t : Trunk} {o : TfOpen} {w : TfWord} (h : OnlyTrunk t (filling (trunk s t) o) s b)
    (hv : w.vc = o.vc) (hd : w.dst = o.dst) (hl : w.eop = true) (hn : 1 ≤ w.nbytes.toNat)
    (hn' : w.nbytes.toNat ≤ 32) (hlen : 32 ≤ (o.bytes ++ tfBytes w).length) (hlen' : (o.bytes ++ tfBytes w).length ≤ 2048) :
    let r := noteWaits (takeTf b t w) t
    (trunk r t).tfOpen = none ∧ (∀ u, u ≠ t → trunk r u = trunk s u) ∧
      (∀ u, u ≠ o.vc.toNat → txQueue (trunk r t) u = txQueue (trunk s t) u) ∧
      r = { s with trunks := r.trunks, ctrs := r.ctrs, events := r.events } ∧
      (w.err = false → txQueue (trunk r t) o.vc.toNat =
          txQueue (trunk s t) o.vc.toNat ++ [⟨o.dst, o.bytes ++ tfBytes w, o.acceptedAt, o.acceptedIn⟩] ∧
        r.ctrs = s.ctrs ∧ r.events = s.events) ∧
      (w.err = true → txQueue (trunk r t) o.vc.toNat = txQueue (trunk s t) o.vc.toNat ∧
        ctr r (0x4011 + t.val) 19 = satAdd64 (ctr s (0x4011 + t.val) 19) 1 ∧
        (ctlOn s = true → r.events.pending.getLsbD (138 + 16 * t.val) = true)) := by
  intro r
  rcases he : w.err with _ | _
  · obtain ⟨hs, st, hr⟩ := (takeTf_last h hv hd he hl hn hn' hlen hlen').noteWaits
    have hq : ∀ u, txQueue (trunk r t) u = txQueue (setTxQueue (filling (trunk s t) (o.more (tfBytes w))) o.vc.toNat
        (txQueue (trunk s t) o.vc.toNat ++ [⟨o.dst, o.bytes ++ tfBytes w, o.acceptedAt, o.acceptedIn⟩])) u := fun u => by
      rw [hr.own]
      rfl
    refine ⟨?_, hr.other, fun u hu => ?_, ?_, fun _ => ⟨?_, hr.ctrs, hr.events⟩, nofun⟩
    · rw [hr.own]
      rfl
    · rw [hq, txQueue_setTxQueue_ne _ hu]
      rfl
    · exact hr.frame_reported rfl
    · rw [hq, txQueue_setTxQueue_same]
  · have hdrop := dropTf_only b t false
    rw [← takeTf_error h he hl] at hdrop
    obtain ⟨hs, st, hr⟩ := hdrop.noteWaits
    have hq : ∀ u, txQueue (trunk r t) u = txQueue (trunk s t) u := fun u => by
      rw [hr.own, h.own]
      rfl
    have hctrs : ctr r (0x4011 + t.val) 19 = ctr (protocolError b t) (0x4011 + t.val) 19 := by rw [ctr, hr.ctrs]; rfl
    refine ⟨?_, fun u hu => ?_, fun u _ => hq u, ?_, nofun, fun _ => ⟨hq _, ?_, fun hc => ?_⟩⟩
    · rw [hr.own]
      rfl
    · rw [hr.other u hu, trunk_protocolError, h.other u hu]
    · refine hr.frame_reported ((protocolError_frame b t).trans ?_)
      rw [protocolError_trunks]
      exact congrArg (fun z : State => { z with ctrs := (protocolError b t).ctrs, events := (protocolError b t).events }) h.frame
    · rw [hctrs, ctr_protocolError, ctr, h.ctrs]
      rfl
    · rw [hr.events]
      refine protocolError_pending b t ?_
      rw [h.frame]
      exact hc

theorem tfTxGapTimeout_decides (s : State) (t : Trunk) (o : TfOpen) (ho : (trunk s t).tfOpen = some o) :
    (o.lastWord + 4096 < s.now → pathOn s = true → exec (.tfTxGapTimeout t) s = .next (dropTf s t true)) ∧
      (s.now ≤ o.lastWord + 4096 → exec (.tfTxGapTimeout t) s = .next s) := by
  refine ⟨fun hlate hp => ?_, fun hearly => ?_⟩
  · show execTfTxGapTimeout t s = _
    simp only [execTfTxGapTimeout, ho, hp, decide_eq_true hlate]
    rfl
  · show execTfTxGapTimeout t s = _
    simp only [execTfTxGapTimeout, ho, decide_eq_false (Nat.not_lt.mpr hearly), Bool.and_false]
    rfl

/-! ### The unit boundary -/

/-- A numbered payload is charged, kept as an entry and on the line (R317, R319). -/
theorem numberAndSend_numbers {s : State} {t : Trunk} (k : UnitKey) {v : Nat} {p : TxPayload} {rest : List TxPayload} (hn : (trunk s t).n + 1 < 2 ^ 64)
    (hq : txQueue (trunk s t) v = p :: rest)
    (hl : (trunk s t).lineOut.length + ceilDiv (p.payload.length + 32) 32 < 20 * widthOf (trunk s t).active) :
    let r := noteWaits (numberAndSend s t k v p) t
    (trunk r t).n = (trunk s t).n + 1 ∧ crOf (trunk r t) v = crOf (trunk s t) v - chargeOf p.payload.length ∧
      txQueue (trunk r t) v = rest ∧ (trunk r t).entries = (trunk s t).entries ++ [numberedEntry (trunk s t) v p] ∧
      (trunk r t).lineOut = (trunk s t).lineOut ++ entryUnits s t k (numberedEntry (trunk s t) v p) ∧
      (trunk r t).timerStart.isSome = true ∧
      ctr r (0x4011 + t.val) 1 = satAdd64 (ctr s (0x4011 + t.val) 1) 1 ∧
      ctr r (0x4011 + t.val) 2 = satAdd64 (ctr s (0x4011 + t.val) 2) p.payload.length ∧
      (∀ u, u ≠ t → trunk r u = trunk s u) ∧ r = { s with trunks := r.trunks, ctrs := r.ctrs } := by
  intro r
  obtain ⟨ch, c, h⟩ := numberAndSend_only k hn hl
  obtain ⟨hs, st, hr⟩ := h.noteWaits
  have hctr : ∀ j, ctr r (0x4011 + t.val) j = ctr (countFirst s t p.payload.length) (0x4011 + t.val) j := fun j => by
    rw [ctr, hr.ctrs]
    rfl
  have hq' : txQueue (trunk r t) v = (txQueue (trunk s t) v).drop 1 := by
    rw [hr.own]
    exact txQueue_setTxQueue_same _ v _
  have hc : crOf (trunk r t) v = crOf (trunk s t) v - chargeOf p.payload.length := by
    rw [hr.own]
    exact spGet_spSet_same natZero _ v _
  have htimer : (trunk r t).timerStart = if (trunk s t).timerStart.isSome then (trunk s t).timerStart else some s.now := by
    rw [hr.own]
    rfl
  refine ⟨?_, hc, ?_, ?_, ?_, ?_, ?_, ?_, hr.other, ?_⟩
  · rw [hr.own]; rfl
  · rw [hq', hq]; rfl
  · rw [hr.own]; rfl
  · rw [hr.own]; rfl
  · rw [htimer]
    split
    · assumption
    · rfl
  · rw [hctr, countFirst, ctr_bumpBy_ne _ _ _ _ _ _ (by simp only [oa]; omega)]
    exact ctr_transportCtr s t 1
  · rw [hctr, countFirst, ctr_bumpBy_same, ctr_transportCtr_ne s t (by decide)]
  · exact hr.frame_counted rfl

section
variable {s : State} {t : Trunk} {k : UnitKey} (h : Steady s t k)
include h

/-- A due acknowledgement carries every change (R321). -/
theorem Steady.acknowledges (hd : ackIsDue s t = true) (hk : (trunk s t).sender ≠ .keyHalt)
    (hl : (trunk s t).lineOut.length + 1 < 20 * widthOf (trunk s t).active) :
    ∃ r, exec (.unitBoundary t) s = .next r ∧ (trunk r t).lineOut = (trunk s t).lineOut ++ [(false, ackFlit s t k)] ∧
      (trunk r t).afc = (trunk s t).afc + 1 ∧ (trunk r t).ackDue = false ∧ (trunk r t).changes = [] ∧ (trunk r t).lastAck = s.now ∧
      ctr r (0x4011 + t.val) 17 = satAdd64 (ctr s (0x4011 + t.val) 17) 1 ∧
      (trunk r t).entries = (trunk s t).entries ∧ (trunk r t).n = (trunk s t).n := by
  have hexec := h.unitBoundary
  rw [h.choosesAck hd hk, h.sendAck] at hexec
  obtain ⟨hs, st, hr⟩ := (sendAck_only k hl).noteWaits
  refine ⟨_, hexec, ?_⟩
  rw [hr.own]
  refine ⟨rfl, rfl, rfl, rfl, rfl, ?_, rfl, rfl⟩
  rw [ctr, hr.ctrs]
  exact ctr_transportCtr s t 17

/-- A round repeats an entry with r one higher (R324). -/
theorem Steady.repeats {e : ReplayEntry} (hd : ackIsDue s t = false) (hk : (trunk s t).sender = .replay)
    (he : nextReplay (trunk s t) = some e) (hlost : e.lost = false) (hsent : e.sent = true) (hr : e.r < 15)
    (hl : (trunk s t).lineOut.length + ceilDiv (e.payload.length + 32) 32 < 20 * widthOf (trunk s t).active) :
    ∃ r, exec (.unitBoundary t) s = .next r ∧ (trunk r t).replayPtr = e.esn + 1 ∧ (trunk r t).n = (trunk s t).n ∧
      (trunk r t).entries = (trunk s t).entries.map (fun f => if f.esn = e.esn then { e with r := e.r + 1, settled := true } else f) ∧
      ctr r (0x4011 + t.val) 3 = satAdd64 (ctr s (0x4011 + t.val) 3) 1 := by
  have hexec := h.unitBoundary
  rw [h.choosesReplay hd hk he, h.sendHeld] at hexec
  obtain ⟨ch, c, us, hgo⟩ := sendHeld_only k hlost hsent hr hl
  obtain ⟨hs, st, hw⟩ := hgo.noteWaits
  obtain ⟨hptr, hn, hent, -, -⟩ := resent_fields (trunk s t) e
  refine ⟨_, hexec, ?_⟩
  rw [hw.own, ctr, hw.ctrs]
  exact ⟨hptr, hn, hent, ctr_transportCtr s t 3⟩

/-- An entry at r = 15 takes the trunk down with cause 2 (R325). -/
theorem Steady.exhausts {e : ReplayEntry} (hd : ackIsDue s t = false) (hk : (trunk s t).sender = .replay)
    (he : nextReplay (trunk s t) = some e) (hlost : e.lost = false) (hsent : e.sent = true) (hr : e.r = 15) :
    ∃ r, exec (.unitBoundary t) s = .next r ∧ (trunk r t).state ≠ .up ∧ (trunk r t).lastDown = 2 ∧
      (trunk r t).entries = (trunk s t).entries ∧ (ctlOn s = true → r.events.pending.getLsbD (241 + t.val) = true) := by
  have hexec := h.unitBoundary
  rw [h.choosesReplay hd hk he, h.sendHeld, sendHeld_exhausted k hlost hsent hr] at hexec
  obtain ⟨hs, st, hw⟩ := noteWaits_waitsMoved (trunkDown (raise s (evReplayExhausted t.val) t.val) t 2) t
  rw [trunk_trunkDown_same, trunk_raise] at hw
  refine ⟨_, hexec, ?_⟩
  rw [hw.own, hw.events]
  refine ⟨downed_notUp _ _ _, downed_lastDown _ _ _, (downed_keeps _ _ _).1, fun hc => ?_⟩
  exact trunkDown_pending_of_pending _ t 2 (raise_pending_self (src := 241 + t.val) t.val hc (by omega))

end

/-! ### Timers -/

section
variable {s : State} {t : Trunk}

/-- A trunk that is not up, or not reached, sends nothing and waits for nothing. -/
theorem trunk_idle (h : pathOn s = false ∨ (trunk s t).state ≠ .up) : exec (.unitBoundary t) s = .next s ∧
    exec (.ackFlitDue t) s = .next s ∧ exec (.replayTimerExpiry t) s = .next s ∧
    ∀ v, exec (.payloadNumbering t v) s = .next s ∧ exec (.trunkCreditStarved t v) s = .next s := by
  have hup : (pathOn s && trunkUp s t) = false := by
    rcases h with h | h
    · rw [h]; rfl
    · rw [Bool.eq_false_iff.mpr (mt (trunkUp_eq s t).mp h), Bool.and_false]
  refine ⟨?_, ?_, ?_, fun v => ⟨?_, ?_⟩⟩
  · show execUnitBoundary t s = _
    rw [execUnitBoundary, hup]
    rfl
  · show execAckFlitDue t s = _
    rw [execAckFlitDue, hup]
    rfl
  · show execReplayTimerExpiry t s = _
    unfold execReplayTimerExpiry
    dsimp only
    split
    · rw [hup]; rfl
    · rfl
  · show execPayloadNumbering t v s = _
    rw [execPayloadNumbering, hup]
    rfl
  · show execTrunkCreditStarved t v s = _
    unfold execTrunkCreditStarved
    dsimp only
    split
    · rw [hup]; rfl
    · rfl

theorem replayTimerExpiry_early {c : Nat} (hc : (trunk s t).timerStart = some c)
    (he : elapsed s c (usCycles (regN s (0x4001 + t.val) 5)) = false) : exec (.replayTimerExpiry t) s = .next s := by
  show execReplayTimerExpiry t s = _
  simp only [execReplayTimerExpiry, hc, he, Bool.and_false]
  rfl

variable (hp : pathOn s = true) (hu : (trunk s t).state = .up)
include hp hu

theorem ackFlitDue_marks :
    exec (.ackFlitDue t) s = .next (if ackIsDue s t then setTrunk s t { trunk s t with ackDue := true } else s) := by
  show execAckFlitDue t s = _
  rw [execAckFlitDue, hp, (trunkUp_eq s t).mpr hu]
  rfl

/-- The replay timer starts a round at the oldest entry (R323, R324). -/
theorem replayTimerExpiry_due {c : Nat} (hc : (trunk s t).timerStart = some c)
    (he : elapsed s c (usCycles (regN s (0x4001 + t.val) 5)) = true) (hk : (trunk s t).sender ≠ .keyHalt) :
    ∃ r, exec (.replayTimerExpiry t) s = .next r ∧ (trunk r t).sender = .replay ∧ (trunk r t).replayPtr = (trunk s t).u ∧
      (trunk r t).timerStart = some s.now ∧ (trunk r t).entries = (trunk s t).entries ∧
      ctr r (0x4011 + t.val) 4 = satAdd64 (ctr s (0x4011 + t.val) 4) 1 := by
  have hexec : exec (.replayTimerExpiry t) s = .next (noteWaits (updTrunk (transportCtr s t 4) t
      (fun x => { x with sender := .replay, replayPtr := x.u, timerStart := some s.now })) t) := by
    show execReplayTimerExpiry t s = _
    simp only [execReplayTimerExpiry, hc, hp, (trunkUp_eq s t).mpr hu, he]
    rw [if_pos (by simpa using hk)]
  obtain ⟨hs, st, hr⟩ := (onlyTrunk_upd t (transportCtr s t 4)
    (fun x => { x with sender := .replay, replayPtr := x.u, timerStart := some s.now })).noteWaits
  refine ⟨_, hexec, ?_⟩
  rw [hr.own, ctr, hr.ctrs]
  exact ⟨rfl, rfl, rfl, rfl, ctr_transportCtr s t 4⟩

theorem trunkCreditStarved_decides (v : BitVec 2) (c : Nat) (hc : spGet sinceNone (trunk s t).headSince v.toNat = some c) :
    exec (.trunkCreditStarved t v) s = .next (if elapsed s c (usCycles (mgmtN s t 6)) = true ∧
        elapsed s (trunk s t).creditStart (usCycles (mgmtN s t 6)) = false ∧ spGet boolFalse (trunk s t).starved v.toNat = false then
      raise (setTrunk s t { trunk s t with starved := spSet boolFalse (trunk s t).starved v.toNat true }) (136 + 16 * t.val) t.val else s) := by
  have he : evTrunk t.val 8 = 136 + 16 * t.val := by simp only [evTrunk]; omega
  show execTrunkCreditStarved t v s = _
  simp only [execTrunkCreditStarved, hc, hp, (trunkUp_eq s t).mpr hu, raiseTrunk, he, Bool.true_and, Bool.and_eq_true,
    Bool.not_eq_true', and_assoc]
  rfl

end

/-! ### The VC1 boundary (R373) -/

theorem trunkPeriodBoundary_off {s : State} {t : Trunk} (h : pathOn s = false ∨ vc1Period s t = 0) :
    exec (.trunkPeriodBoundary t) s = .next s := by
  show execTrunkPeriodBoundary t s = _
  rcases h with h | h <;> simp [execTrunkPeriodBoundary, h]

/-- The payloads of channel 1 that a boundary keeps. -/
def keptVc1 (x : TrunkSt) (b : Nat) : List TxPayload := (txQueue x 1).filter (fun p => decide (b ≤ p.acceptedAt))

/-- The state once the payloads from before a boundary have gone, with their count and deadline-drop. -/
def vc1Dropped (s : State) (t : Trunk) (b : Nat) : State :=
  raiseTrunk (mgmtCtr (updTrunk s t fun x => setTxQueue x 1 (keptVc1 x b)) t 11
    ((txQueue (trunk s t) 1).length - (keptVc1 (trunk s t) b).length)) t 9

theorem trunkPeriodBoundary_drops {s : State} {t : Trunk} (hp : pathOn s = true) (hv : vc1Period s t ≠ 0)
    (ho : (trunk s t).tfOpen = none)
    (hlate : ∃ p ∈ txQueue (trunk s t) 1, p.acceptedAt < lastBoundaryNs (vc1Period s t) (vc1Phase s t) (localNs s)) :
    exec (.trunkPeriodBoundary t) s =
      .next (noteWaits (vc1Dropped s t (lastBoundaryNs (vc1Period s t) (vc1Phase s t) (localNs s))) t) := by
  generalize hb : lastBoundaryNs (vc1Period s t) (vc1Phase s t) (localNs s) = b at hlate ⊢
  have hfilter : (txQueue (trunk s t) 1).filter (fun p => !decide (p.acceptedAt < b)) = keptVc1 (trunk s t) b :=
    List.filter_congr fun p _ => by rw [Bool.not_eq_eq_eq_not, ← decide_not, decide_eq_decide, Nat.not_le]
  have hfewer : (keptVc1 (trunk s t) b).length < (txQueue (trunk s t) 1).length := by
    obtain ⟨p, hm, hlt⟩ := hlate
    exact List.length_filter_lt_length_iff_exists.mpr ⟨p, hm, by simpa using hlt⟩
  show execTrunkPeriodBoundary t s = _
  rw [execTrunkPeriodBoundary, hp, decide_eq_true hv]
  simp only [Bool.and_self, if_true, hb, dropVc1, ho, hfilter, Bool.toNat_false, Nat.add_zero]
  rw [if_neg (by omega)]
  rfl

theorem vc1Dropped_effect (s : State) (t : Trunk) (b : Nat) : let r := noteWaits (vc1Dropped s t b) t
    txQueue (trunk r t) 1 = keptVc1 (trunk s t) b ∧ (∀ v, v ≠ 1 → txQueue (trunk r t) v = txQueue (trunk s t) v) ∧
      ctr r (0x4015 + t.val) 11 = satAdd64 (ctr s (0x4015 + t.val) 11)
        ((txQueue (trunk s t) 1).length - (txQueue (trunk r t) 1).length) ∧
      (ctlOn s = true → r.events.pending.getLsbD (137 + 16 * t.val) = true) := by
  intro r
  obtain ⟨hs, st, hr⟩ := noteWaits_waitsMoved (vc1Dropped s t b) t
  have htrunk : trunk (vc1Dropped s t b) t = setTxQueue (trunk s t) 1 (keptVc1 (trunk s t) b) := by
    rw [vc1Dropped, trunk_raiseTrunk, trunk_mgmtCtr, trunk_updTrunk_same]
  rw [htrunk] at hr
  have hq : ∀ v, txQueue (trunk r t) v = txQueue (setTxQueue (trunk s t) 1 (keptVc1 (trunk s t) b)) v := fun v => by
    rw [hr.own]
    rfl
  refine ⟨?_, fun v hv => ?_, ?_, fun hc => ?_⟩
  · rw [hq, txQueue_setTxQueue_same]
  · rw [hq, txQueue_setTxQueue_ne _ hv]
  · rw [hq, txQueue_setTxQueue_same, ctr, hr.ctrs]
    exact (ctr_raise _ _ _ (0x4015 + t.val) 11).trans (ctr_bumpBy_same _ _ _ _)
  · rw [hr.events]
    exact raiseTrunk_pending t (j := 9) hc (by decide) (by omega)

/-! ### The obligation -/

/-- Settles O53: a payload is the words taken for it, a boundary sends the one unit of Table 9.8, and each timer does what is due. -/
theorem trunkPayloadsAreNumberedAndReplayed : Obligations.TrunkPayloadsAreNumberedAndReplayed := by
  unfold Obligations.TrunkPayloadsAreNumberedAndReplayed
  refine ⟨?words, fun s t o ho => ?gap, ?boundary, fun s t => trunk_idle, fun s t hp hu => ⟨ackFlitDue_marks hp hu, fun c hc =>
    ⟨replayTimerExpiry_early hc, replayTimerExpiry_due hp hu hc⟩, trunkCreditStarved_decides hp hu⟩,
    fun s t b hb => ⟨trunkPeriodBoundary_off, fun hp hv ho hlate => ⟨_, trunkPeriodBoundary_drops hp hv ho (hb ▸ hlate), ?period⟩⟩⟩
  case words =>
    intro s t v dst ws w bytes hp hu ho hws hfull hl hn hn' hbytes hlen hlen' hroom
    have hb : bytes = tfBytesOf ws ++ tfBytes w := by
      rw [hbytes, List.flatMap_append]
      exact congrArg (tfBytesOf ws ++ ·) (List.append_nil _)
    have h32 : 32 * ws.length ≤ 2048 := by
      rw [hb, List.length_append, tfBytesOf_length fun x hx => (hfull x hx).2.1] at hlen'
      omega
    obtain ⟨b, hfill, hfold⟩ := foldl_acceptTf_payload hp hu ho hws hfull h32 hroom
    obtain ⟨hv, hd, -⟩ := hws ws.length w (by simp)
    have hexec : exec (.tfTxPayload t (ws ++ [w])) s = .next (noteWaits (takeTf b t w) t) := by
      show Host.Outcome.next (noteWaits ((ws ++ [w]).foldl (acceptTf t) s) t) = _
      rw [hfold]
    have hmore : ((opened s v dst).more (tfBytesOf ws)).bytes = tfBytesOf ws := rfl
    have hdec := tfTxPayload_decides hfill hv hd hl hn hn' (by rw [hmore, ← hb]; exact hlen) (by rw [hmore, ← hb]; exact hlen')
    rw [hmore, ← hb] at hdec
    exact ⟨_, hexec, hdec⟩
  case gap =>
    obtain ⟨hlate, hearly⟩ := tfTxGapTimeout_decides s t o ho
    have hdrop := dropTf_only s t true
    refine ⟨fun hl hp => ⟨_, hlate hl hp, hdrop.own, ?_⟩, hearly⟩
    rw [ctr, hdrop.ctrs]
    exact ctr_protocolError s t
  case period =>
    rw [← hb]
    exact vc1Dropped_effect s t b
  case boundary =>
    rintro s t k x hp rfl hu hch hcmd hkey hkeep
    have h : Steady s t k := ⟨hp, hu, hch, hcmd, hkey, hkeep⟩
    refine ⟨h.acknowledges, ?_, fun e hd hk he hlost hsent => ⟨h.repeats hd hk he hlost hsent, h.exhausts hd hk he hlost hsent⟩⟩
    rintro v p rest hdr us hd hk hn hw hv hq hlast rfl rfl hl
    have hc := h.choosesFresh hd hk hn hw hq
    have hvv : (vcBits v).toNat = v := by simp [vcBits]; omega
    have hpl := entryUnits_length s t k (numberedEntry (trunk s t) v p)
    have hsend := numberAndSend_numbers k hlast hq (hpl ▸ hl)
    refine ⟨?_, fun u hu => ?_⟩
    · rintro c (rfl | rfl)
      · refine ⟨_, ?_, hsend⟩
        rw [h.unitBoundary, hc, h.sendFresh]
      · refine ⟨_, ?_, hsend⟩
        rw [h.payloadNumbering hc, if_pos hvv.symm]
    · rw [h.payloadNumbering hc, if_neg]
      rintro rfl
      exact hu (by simp [vcBits])

end Sys2Proof.Machine

/-! PROOF. What everything that a trunk receives, and every lane command, leaves alone: the other trunk, the mark of the
partner's first group, the count of corrected codewords, and the events that are pending (R303, R364 to R368). -/

namespace Sys2Proof.Machine

/-! ### Steps of the receiving side -/

/-- State `s` is state `a` after steps of trunk `t` that correct no codeword. -/
structure Heard (t : Trunk) (a s : State) : Prop where
  other : ∀ u, u ≠ t → trunk s u = trunk a u
  started : (trunk s t).rxStarted = (trunk a t).rxStarted
  corrected : ctr s (0x4011 + t.val) 7 = ctr a (0x4011 + t.val) 7
  pending : ∀ e, a.events.pending.getLsbD e = true → s.events.pending.getLsbD e = true

theorem Heard.refl (t : Trunk) (s : State) : Heard t s s := ⟨fun _ _ => rfl, rfl, rfl, fun _ => id⟩

theorem Heard.trans {t : Trunk} {a b c : State} (h : Heard t a b) (k : Heard t b c) : Heard t a c :=
  ⟨fun u hu => (k.other u hu).trans (h.other u hu), k.started.trans h.started, k.corrected.trans h.corrected,
    fun e he => k.pending e (h.pending e he)⟩

/-- The same, from the last step on. -/
theorem Heard.after {t : Trunk} {a b c : State} (k : Heard t b c) (h : Heard t a b) : Heard t a c := h.trans k

theorem Heard.foldl {α : Type} {t : Trunk} {f : State → α → State} (hf : ∀ s x, Heard t s (f s x)) (l : List α) (s : State) :
    Heard t s (l.foldl f s) := by
  induction l generalizing s with
  | nil => exact .refl t s
  | cons x l ih => exact (hf s x).trans (ih (f s x))

theorem Heard.of_only {t : Trunk} {x : TrunkSt} {s r : State} (h : OnlyTrunk t x s r) (hx : x.rxStarted = (trunk s t).rxStarted) :
    Heard t s r :=
  ⟨h.other, by rw [h.own]; exact hx, by rw [ctr, h.ctrs]; rfl, fun e he => by rw [h.events]; exact he⟩

section
variable (s : State) (t : Trunk)

theorem heard_upd {f : TrunkSt → TrunkSt} (hf : ∀ x, (f x).rxStarted = x.rxStarted) : Heard t s (updTrunk s t f) :=
  .of_only (onlyTrunk_upd t s f) (hf _)

theorem Heard.upd {t : Trunk} {a s : State} (h : Heard t a s) {f : TrunkSt → TrunkSt} (hf : ∀ x, (f x).rxStarted = x.rxStarted) :
    Heard t a (updTrunk s t f) := h.trans (heard_upd s t hf)

theorem heard_raise (src d : Nat) : Heard t s (raise s src d) :=
  ⟨fun u _ => trunk_raise s u src d, by rw [trunk_raise], ctr_raise _ _ _ _ _, fun _ he => raise_pending_of_pending src d he⟩

theorem heard_raiseTrunk (j : Nat) : Heard t s (raiseTrunk s t j) := heard_raise s t _ _

theorem heard_bumpBy {i j : Nat} (n : Nat) (h : oa (0x4011 + t.val) 7 ≠ oa i j) : Heard t s (bumpBy s i j n) :=
  ⟨fun _ _ => rfl, rfl, ctr_bumpBy_ne s i j n _ 7 h, fun _ => id⟩

theorem heard_transportCtr {k : Nat} (h : k ≠ 7) : Heard t s (transportCtr s t k) :=
  heard_bumpBy s t 1 (by simp only [oa]; omega)

theorem heard_mgmtCtr {k : Nat} (n : Nat) (h : k < 256) : Heard t s (mgmtCtr s t k n) :=
  heard_bumpBy s t n (by simp only [oa]; omega)

theorem heard_setReg (i j : Nat) (v : W64) : Heard t s (setReg s i j v) := ⟨fun _ _ => rfl, rfl, rfl, fun _ => id⟩

theorem heard_releaseKey (k : W16) : Heard t s (releaseKey s k) := by
  rw [releaseKey_frame]
  exact ⟨fun _ _ => rfl, rfl, rfl, fun _ => id⟩

theorem heard_protocolError : Heard t s (protocolError s t) :=
  (heard_transportCtr s t (k := 19) (by decide)).trans (heard_raiseTrunk _ t 10)

theorem heard_trunkDown (c : Nat) : Heard t s (trunkDown s t c) where
  other u hu := trunk_trunkDown_ne s t c hu
  started := by rw [trunk_trunkDown_same]; exact (downed_keeps _ _ _).2.2
  corrected := by
    rw [ctr, trunkDown_ctrs]
    exact (heard_mgmtCtr s t (k := 1) 1 (by decide)).corrected
  pending e he := trunkDown_pending_of_pending s t c he

theorem heard_noteWaits : Heard t s (noteWaits s t) := by
  obtain ⟨hs, st, h⟩ := noteWaits_waitsMoved s t
  exact .of_only h rfl

end

/-! ### Groups sent -/

theorem nextCopy_rxStarted (x : TrunkSt) : (nextCopy x).rxStarted = x.rxStarted := by
  unfold nextCopy
  split
  · split <;> rfl
  · rfl

theorem heard_groupSent (s : State) (t : Trunk) : Heard t s (groupSent s t) := by
  have h1 := heard_upd s t (f := fun x => nextCopy { x with txGroup := x.txGroup + 1, retrainIn := false })
    fun _ => nextCopy_rxStarted _
  unfold groupSent
  dsimp only
  split
  · exact h1
  · split
    · exact h1.trans (heard_trunkDown _ t _)
    · split
      · exact h1.upd fun _ => rfl
      · exact h1

theorem heard_sendGroups (t : Trunk) (n : Nat) (s : State) : Heard t s (sendGroups t n s) := by
  induction n generalizing s with
  | zero => exact .refl t s
  | succ n ih =>
    unfold sendGroups
    dsimp only
    split
    · exact .refl t s
    · exact (ih _).after ((heard_groupSent _ t).after (heard_upd s t fun _ => rfl))

theorem heard_emit (s : State) (t : Trunk) (us : List (Bool × Bytes)) : Heard t s (emit s t us) :=
  (heard_sendGroups t 5 _).after (heard_upd s t fun _ => rfl)

theorem heard_retrainAndDown (s : State) (t : Trunk) (c : Nat) (i : W16) : Heard t s (retrainAndDown s t c i) := by
  unfold retrainAndDown
  split
  · exact heard_trunkDown s t c
  · dsimp only
    have h1 := heard_upd s t (f := fun x => { x with lcc := x.lcc + 1, changing := [], retrainLeft := 0 }) fun _ => rfl
    split
    · exact ((h1.trans (heard_emit _ t _)).trans (heard_emit _ t _)).trans (heard_trunkDown _ t c)
    · exact (h1.trans (heard_emit _ t _)).trans (heard_trunkDown _ t c)

theorem retrainAndDown_ends (s : State) (t : Trunk) (c : Nat) (i : W16) :
    (trunk (retrainAndDown s t c i) t).state ≠ .up ∧ (trunk (retrainAndDown s t c i) t).lastDown = c := by
  unfold retrainAndDown
  split
  · exact trunkDown_ends s t c
  · exact trunkDown_ends _ t c

/-! ### Lane changes -/

theorem heard_startLaneReq (s : State) (t : Trunk) (m : Byte) : Heard t s (startLaneReq s t m) := by
  unfold startLaneReq
  dsimp only
  split
  · exact .refl t s
  · exact heard_upd s t fun _ => rfl

theorem heard_considerLanes (s : State) (t : Trunk) : Heard t s (considerLanes s t) := by
  unfold considerLanes
  dsimp only
  split
  · exact .refl t s
  · split
    · exact heard_retrainAndDown s t 4 0
    · split
      · exact .refl t s
      · split
        · exact heard_startLaneReq s t _
        · split
          · exact heard_startLaneReq s t _
          · exact .refl t s

theorem heard_treatDeferred (s : State) (t : Trunk) : Heard t s (treatDeferred s t) := by
  unfold treatDeferred
  dsimp only
  split
  · exact .refl t s
  · split
    · exact .refl t s
    · have h1 := heard_upd s t (f := fun x => { x with deferred := none }) fun _ => rfl
      split
      · exact h1.trans (heard_trunkDown _ t 5)
      · split
        · exact h1.trans (heard_startLaneReq _ t _)
        · exact h1

theorem heard_actOnCmd (s : State) (t : Trunk) (c : LaneCmd) : Heard t s (actOnCmd s t c) := by
  unfold actOnCmd
  split
  · unfold judgeLaneReq
    dsimp only
    split
    · exact heard_upd s t fun _ => rfl
    · exact heard_retrainAndDown s t 9 _
  · exact heard_trunkDown s t 5

theorem heard_acceptCmd (s : State) (t : Trunk) (c : LaneCmd) : Heard t s (acceptCmd s t c) := by
  have h1 : Heard t s (if c.kind = 0x18 then updTrunk s t (fun x => { x with lastCmdSeen := some c.cmdId }) else s) := by
    split
    · exact heard_upd s t fun _ => rfl
    · exact .refl t s
  have hact : ∀ a : State, Heard t a (actOnCmd (updTrunk a t abandonOwn) t c) := fun a =>
    (heard_actOnCmd _ t c).after (heard_upd a t fun _ => rfl)
  unfold acceptCmd
  dsimp only
  split
  · exact .refl t s
  · split
    · exact .refl t s
    · split
      · exact (heard_trunkDown _ t 5).after h1
      · split
        · split
          · exact h1.upd fun _ => rfl
          · exact (hact _).after h1
        · exact (hact _).after h1

/-! ### Keys, credits and acknowledgements received -/

section
variable (s : State) (t : Trunk)

theorem heard_settleRekey : Heard t s (settleRekey s t) := by
  unfold settleRekey
  split
  · exact (heard_raiseTrunk _ t 14).after (((heard_setReg _ t _ _ _).after
      ((heard_setReg _ t _ _ _).after (heard_releaseKey s t _))).upd fun _ => rfl)
  · exact .refl t s

theorem heard_switchRx (kp : Bool) : Heard t s (switchRx s t kp) := by
  unfold switchRx
  split
  · exact .refl t s
  · exact (heard_settleRekey _ t).after (heard_upd s t fun _ => rfl)

theorem heard_applyCredit (v : Nat) (c : BitVec 12) : Heard t s (applyCredit s t v c) := by
  unfold applyCredit
  dsimp only
  split
  · exact .refl t s
  · split
    · exact heard_upd s t fun _ => rfl
    · exact (heard_transportCtr s t (k := 15) (by decide)).trans (heard_raiseTrunk _ t 10)

theorem endRound_rxStarted (x : TrunkSt) : (endRound x).rxStarted = x.rxStarted := by
  unfold endRound
  split <;> rfl

theorem heard_applyAck (a : W16) : Heard t s (applyAck s t a) := by
  unfold applyAck
  dsimp only
  split
  · exact .refl t s
  · split
    · exact heard_upd s t fun _ => endRound_rxStarted _
    · exact (heard_transportCtr s t (k := 15) (by decide)).trans (heard_raiseTrunk _ t 10)

theorem heard_ackCredits (n : Nat) : Heard t s (ackCredits s t n) :=
  Heard.foldl (fun s v => heard_applyCredit s t v _) _ s

theorem heard_lineError : Heard t s (lineError s t) := by
  have h1 := heard_upd s t (f := fun x => { x with lineErrors := (trunk s t).lineErrors + 1 }) fun _ => rfl
  unfold lineError
  dsimp only
  split
  · exact h1.trans (heard_trunkDown _ t 1)
  · exact h1

theorem heard_crcError : Heard t s (crcError s t) :=
  (heard_transportCtr s t (k := 9) (by decide)).trans (heard_lineError _ t)

theorem heard_receiveAck (f : Bytes) : Heard t s (receiveAck s t f) := by
  unfold receiveAck
  dsimp only
  split
  · exact heard_crcError s t
  · split
    · exact heard_transportCtr s t (by decide)
    · split
      · exact heard_transportCtr s t (by decide)
      · exact (heard_switchRx _ t _).after ((heard_ackCredits _ t _).after ((heard_applyAck _ t _).after
          ((heard_transportCtr s t (by decide)).upd fun _ => rfl)))

theorem heard_receiveCmd (f : Bytes) : Heard t s (receiveCmd s t f) := by
  unfold receiveCmd
  dsimp only
  split
  · exact heard_transportCtr s t (by decide)
  · split
    · exact heard_transportCtr s t (by decide)
    · split
      · exact heard_transportCtr s t (by decide)
      · exact (heard_acceptCmd _ t _).after ((heard_switchRx _ t _).after (heard_upd s t fun _ => rfl))

theorem heard_receiveControl (f : Bytes) : Heard t s (receiveControl s t f) := by
  unfold receiveControl
  dsimp only
  split
  · exact .refl t s
  · split
    · exact heard_receiveAck s t f
    · split
      · exact heard_receiveCmd s t f
      · exact heard_protocolError s t

/-! ### Packets and units received -/

theorem noteUncarried_rxStarted (now i : Nat) (x : TrunkSt) : (noteUncarried now i x).rxStarted = x.rxStarted := by
  unfold noteUncarried
  split <;> rfl

theorem heard_acceptPacket (h : PacketHead) : Heard t s (acceptPacket s t h) :=
  (heard_switchRx _ t _).after ((heard_applyCredit _ t _ _).after ((heard_applyAck _ t _).after
    (heard_upd s t fun _ => noteUncarried_rxStarted _ _ _)))

theorem heard_receiveExpected (h : PacketHead) (hdr body tag : Bytes) : Heard t s (receiveExpected s t h hdr body tag) := by
  unfold receiveExpected
  split
  · exact heard_transportCtr s t (by decide)
  · dsimp only
    split
    · exact (heard_transportCtr s t (k := 10) (by decide)).trans (heard_raiseTrunk _ t 11)
    · split
      · exact (heard_raiseTrunk _ t 12).after (((heard_transportCtr _ t (by decide)).after (heard_acceptPacket s t h)).upd
          fun _ => noteUncarried_rxStarted _ _ _)
      · split
        · exact (heard_transportCtr s t (k := 16) (by decide)).trans (heard_raiseTrunk _ t 10)
        · exact ((heard_bumpBy _ t _ (by simp only [oa]; omega)).after
            ((heard_transportCtr _ t (by decide)).after (heard_acceptPacket s t h))).upd fun _ => rfl

theorem heard_receivePacket (f : Bytes) : Heard t s (receivePacket s t f) := by
  unfold receivePacket
  dsimp only
  split
  · exact (heard_crcError _ t).after (heard_upd s t fun _ => rfl)
  · split
    · exact heard_protocolError s t
    · split
      · exact (heard_transportCtr s t (by decide)).upd fun _ => rfl
      · split
        · exact (heard_transportCtr s t (by decide)).upd fun _ => rfl
        · exact heard_receiveExpected s t _ _ _ _

theorem heard_receiveUnit (u : Option (Bool × Bytes)) : Heard t s (receiveUnit t s u) := by
  unfold receiveUnit
  dsimp only
  split
  · exact .refl t s
  · split
    · exact heard_upd s t fun _ => rfl
    · exact (heard_lineError _ t).after (heard_upd s t fun _ => rfl)
    · exact heard_upd s t fun _ => rfl
    · exact heard_receiveControl s t _
    · exact .refl t s
    · split
      · exact heard_upd s t fun _ => rfl
      · exact (heard_receivePacket _ t _).after (heard_upd s t fun _ => rfl)

theorem heard_countSymbol (w c i : Nat) : Heard t s (countSymbol t w c s i) := by
  unfold countSymbol
  dsimp only
  split
  · exact .refl t s
  · split
    · exact (heard_raiseTrunk _ t 5).after (heard_upd s t fun _ => rfl)
    · exact heard_upd s t fun _ => rfl

end

end Sys2Proof.Machine

/-! PROOF. `tf_rx_`, the timers and the lanes of a trunk that is up (R76, R332, R363, R365, R366, R368 to R370). -/

namespace Sys2Proof.Machine

/-! ### Payloads on `tf_rx_` (R76, R332) -/

@[simp] theorem rxQueue_setRxQueue_same (x : TrunkSt) (v : Nat) (q : List RxPayload) : rxQueue (setRxQueue x v q) v = q :=
  spGet_spSet_same rxNone x.rxQ v q

theorem rxQueue_setRxQueue_ne (x : TrunkSt) {v u : Nat} (h : u ≠ v) (q : List RxPayload) :
    rxQueue (setRxQueue x v q) u = rxQueue x u := spGet_spSet_ne rxNone x.rxQ v u q h

/-- The trunk once the last word of a payload has transferred. -/
def presented (now : Nat) (p : RxPayload) (x : TrunkSt) : TrunkSt :=
  returnCredit now p.vc.toNat (payCharge p)
    { x with presenting := none, rxSent := 0, rxStall := none, rxStuckRaised := false, lastRx := some p }

theorem noteUncarried_changes (now i : Nat) (x : TrunkSt) : ∃ ch, noteUncarried now i x = { x with changes := ch } := by
  unfold noteUncarried
  split
  · exact ⟨x.changes, rfl⟩
  · exact ⟨_, rfl⟩

theorem presented_fields (now : Nat) (p : RxPayload) (x : TrunkSt) : (presented now p x).presenting = none ∧
    (presented now p x).lastRx = some p ∧
    cRetOf (presented now p x) p.vc.toNat = cRetOf x p.vc.toNat + BitVec.ofNat 12 (chargeOf p.payload.length) ∧
    (presented now p x).rxQ = x.rxQ := by
  obtain ⟨ch, h⟩ := noteUncarried_changes now p.vc.toNat
    { x with presenting := none, rxSent := 0, rxStall := none, rxStuckRaised := false, lastRx := some p
             cRet := spSet cntZero x.cRet p.vc.toNat (cRetOf x p.vc.toNat + BitVec.ofNat 12 (payCharge p)) }
  have hp : presented now p x = _ := h
  rw [hp]
  exact ⟨rfl, rfl, spGet_spSet_same cntZero _ _ _, rfl⟩

theorem finishPresent_only (s : State) (t : Trunk) (p : RxPayload) :
    OnlyTrunk t (presented s.now p (trunk s t)) s (finishPresent s t p) := onlyTrunk_upd t s _

section
variable {s : State} {t : Trunk} {ready : BitVec 4} {n : Nat} (hp : pathOn s = true)
include hp

theorem tfRxPresent_path : exec (.tfRxPresent t ready n) s = .next (presentRx s t ready n) := by
  show execTfRxPresent t ready n s = _
  rw [execTfRxPresent, hp]
  rfl

theorem tfRxPresent_running {p : RxPayload} (h : (trunk s t).presenting = some p) :
    exec (.tfRxPresent t ready n) s = .next (takeRx s t p n) := by
  rw [tfRxPresent_path hp]
  simp only [presentRx, h]

theorem tfRxPresent_idle (h : (trunk s t).presenting = none)
    (hr : ∀ v, v < 4 → ready.getLsbD v = true → rxQueue (trunk s t) v = []) : exec (.tfRxPresent t ready n) s = .next s := by
  have hnone : presentChannel (trunk s t) ready = none := by
    refine List.find?_eq_none.mpr fun v hv => ?_
    have h4 : v < 4 := by
      simp only [List.mem_cons, List.not_mem_nil, or_false] at hv
      omega
    rcases hb : ready.getLsbD v with _ | _
    · simp
    · simp [hr v h4 hb]
  rw [tfRxPresent_path hp]
  simp only [presentRx, h, hnone]

theorem tfRxPresent_begins {v : Nat} {p : RxPayload} {rest : List RxPayload} (h : (trunk s t).presenting = none)
    (hv : presentChannel (trunk s t) ready = some v) (hq : rxQueue (trunk s t) v = p :: rest) :
    exec (.tfRxPresent t ready n) s =
      .next (takeRx (updTrunk s t (fun x => { setRxQueue x v rest with presenting := some p, rxSent := 0 })) t p n) := by
  rw [tfRxPresent_path hp]
  simp only [presentRx, h, hv, hq]

end

theorem takeRx_last {s : State} {t : Trunk} {p : RxPayload} {n : Nat} (h : rxWords p ≤ (trunk s t).rxSent + n) :
    takeRx s t p n = finishPresent s t p := by
  unfold takeRx
  dsimp only
  rw [if_pos h]

theorem takeRx_more {s : State} {t : Trunk} {p : RxPayload} {n : Nat} (h : (trunk s t).rxSent + n < rxWords p) :
    takeRx s t p n = if n = 0 ∧ (trunk s t).rxStall.isSome = true then s else
      setTrunk s t { trunk s t with rxSent := (trunk s t).rxSent + n, rxStall := some s.now, rxStuckRaised := false } := by
  unfold takeRx
  dsimp only
  rw [if_neg (Nat.not_le.mpr h)]
  rfl

/-- A payload begins: the words taken with it, and what of it stays on `tf_rx_`. -/
theorem takeRx_begun {s b : State} {t : Trunk} {v n : Nat} {p : RxPayload} {rest : List RxPayload} (hpv : p.vc.toNat = v)
    (hb : OnlyTrunk t { setRxQueue (trunk s t) v rest with presenting := some p, rxSent := 0 } s b) :
    let r := takeRx b t p n
    rxQueue (trunk r t) v = rest ∧
      (rxWords p ≤ n → (trunk r t).lastRx = some p ∧ (trunk r t).presenting = none ∧
        cRetOf (trunk r t) v = cRetOf (trunk s t) v + BitVec.ofNat 12 (chargeOf p.payload.length)) ∧
      (n < rxWords p → (trunk r t).presenting = some p ∧ (trunk r t).rxSent = n ∧ cRetOf (trunk r t) v = cRetOf (trunk s t) v ∧
        (n ≠ 0 ∨ (trunk s t).rxStall = none → (trunk r t).rxStall = some s.now)) ∧ r = { s with trunks := r.trunks } := by
  have hsent : (trunk b t).rxSent = 0 := by rw [hb.own]
  have hqueue : rxQueue (trunk b t) v = rest := by
    rw [hb.own]
    exact rxQueue_setRxQueue_same _ v rest
  have hcret : ∀ u, cRetOf (trunk b t) u = cRetOf (trunk s t) u := fun u => by rw [hb.own]; rfl
  by_cases hn : rxWords p ≤ n
  · have hfin := hb.trans (finishPresent_only b t p)
    obtain ⟨hpres, hlast, hcr, hrx⟩ := presented_fields b.now p (trunk b t)
    rw [takeRx_last (by rw [hsent]; omega)]
    refine ⟨?_, fun _ => ?_, fun h => absurd hn (by omega), hfin.frame⟩
    · rw [rxQueue, hfin.own, hrx]
      exact hqueue
    · rw [hfin.own]
      refine ⟨hlast, hpres, ?_⟩
      rw [← hpv, hcr, hcret]
  · have hlt : (trunk b t).rxSent + n < rxWords p := by rw [hsent]; omega
    have hstall : (trunk b t).rxStall = (trunk s t).rxStall := by rw [hb.own]; rfl
    rw [takeRx_more hlt]
    split
    · next hz =>
      obtain ⟨rfl, hz⟩ := hz
      refine ⟨hqueue, fun h => absurd h hn, fun _ => ⟨?_, hsent, hcret v, fun h => ?_⟩, hb.frame⟩
      · rw [hb.own]
      · rcases h with h | h
        · exact absurd rfl h
        · rw [hstall, h] at hz; cases hz
    · have hset := hb.set { trunk b t with rxSent := (trunk b t).rxSent + n, rxStall := some b.now, rxStuckRaised := false }
      refine ⟨?_, fun h => absurd h hn, fun _ => ⟨?_, ?_, ?_, fun _ => ?_⟩, hset.frame⟩
      · rw [hset.own]; exact hqueue
      · rw [hset.own, hb.own]
      · rw [hset.own, hsent]; exact Nat.zero_add n
      · rw [hset.own]; exact hcret v
      · rw [hset.own, hb.now]

theorem trunkReceiveStuck_idle {s : State} {t : Trunk} (h : (trunk s t).rxStall = none) : exec (.trunkReceiveStuck t) s = .next s := by
  show execTrunkReceiveStuck t s = _
  simp only [execTrunkReceiveStuck, h]

/-- A stall over 100 µs raises trunk-receive-stuck once. -/
theorem trunkReceiveStuck_stalled {s : State} {t : Trunk} {c : Nat} (h : (trunk s t).rxStall = some c) :
    exec (.trunkReceiveStuck t) s = .next (if pathOn s = true ∧ c + 120000 < s.now ∧ (trunk s t).rxStuckRaised = false then
        raise (setTrunk s t { trunk s t with rxStuckRaised := true }) (141 + 16 * t.val) t.val else s) := by
  have he : evTrunk t.val 13 = 141 + 16 * t.val := by simp only [evTrunk]; omega
  have hus : usCycles 100 = 120000 := rfl
  have hexec : exec (.trunkReceiveStuck t) s = .next (if pathOn s && decide (c + 120000 < s.now) && !(trunk s t).rxStuckRaised then
      raiseTrunk (updTrunk s t (fun x => { x with rxStuckRaised := true })) t 13 else s) := by
    show execTrunkReceiveStuck t s = _
    simp only [execTrunkReceiveStuck, h, hus]
  rw [hexec]
  by_cases hc : pathOn s = true ∧ c + 120000 < s.now ∧ (trunk s t).rxStuckRaised = false
  · have hl : (pathOn s && decide (c + 120000 < s.now) && !(trunk s t).rxStuckRaised) = true := by simp [hc]
    rw [if_pos hl, if_pos hc, raiseTrunk, he]
    rfl
  · rw [if_neg hc, if_neg (by simpa [and_assoc] using hc)]

/-! ### Timers (R369, R370) -/

section
variable {s : State} {t : Trunk} (hp : pathOn s = true) (hu : trunkUp s t = true)
include hp hu

theorem creditTimeout_decides : exec (.creditTimeout t) s =
    .next (if elapsed s (trunk s t).creditStart (usCycles (mgmtN s t 6)) then trunkDown s t 3 else s) := by
  show execCreditTimeout t s = _
  rw [execCreditTimeout, hp, hu]
  rfl

/-- A lane at the start of an error-rate window. -/
def clearLane (x : TrunkSt) (l : Nat) : TrunkSt := setLane x l { laneOf x l with corrected := 0, degraded := false }

theorem errorWindow_decides : exec (.errorWindow t) s =
    .next (if elapsed s (trunk s t).windowStart (usCycles (mgmtN s t 4)) then
        updTrunk s t (fun x => { (List.range 8).foldl clearLane x with windowStart := s.now, lineErrors := 0 }) else s) := by
  show execErrorWindow t s = _
  rw [execErrorWindow, hp, hu]
  rfl

end

@[simp] theorem laneOf_setLane_same (x : TrunkSt) (l : Nat) (y : Lane) : laneOf (setLane x l y) l = y :=
  spGet_spSet_same laneDefault x.lanes l y

theorem laneOf_setLane_ne (x : TrunkSt) {l j : Nat} (h : j ≠ l) (y : Lane) : laneOf (setLane x l y) j = laneOf x j :=
  spGet_spSet_ne laneDefault x.lanes l j y h

theorem laneOf_clearLane (x : TrunkSt) (l j : Nat) :
    laneOf (clearLane x l) j = if j = l then { laneOf x j with corrected := 0, degraded := false } else laneOf x j := by
  by_cases h : j = l
  · subst h
    rw [clearLane, laneOf_setLane_same, if_pos rfl]
  · rw [clearLane, laneOf_setLane_ne x h, if_neg h]

theorem laneOf_foldl_clearLane (ls : List Nat) (x : TrunkSt) (j : Nat) :
    laneOf (ls.foldl clearLane x) j = if j ∈ ls then { laneOf x j with corrected := 0, degraded := false } else laneOf x j := by
  induction ls generalizing x with
  | nil => simp
  | cons l ls ih =>
    rw [List.foldl_cons, ih, laneOf_clearLane]
    by_cases hl : j = l <;> by_cases hm : j ∈ ls <;> simp [hl, hm]

theorem mem_maskLanes_lt {m : Byte} {l : Nat} (h : l ∈ maskLanes m) : l < 8 := by
  simpa using (List.mem_filter.mp h).1

/-! ### Lanes -/

/-- No lane has failed or is marked degraded. -/
def LanesFine (x : TrunkSt) : Prop := ∀ l, l < 8 → (laneOf x l).failed = false ∧ (laneOf x l).degraded = false

theorem failedLanes_fine {x : TrunkSt} (h : ∀ l, l < 8 → (laneOf x l).failed = false) : failedLanes x = [] :=
  List.filter_eq_nil_iff.mpr fun l hl => by simp [h l (mem_maskLanes_lt hl)]

theorem considerLanes_fine {s : State} {t : Trunk} (h : LanesFine (trunk s t)) : considerLanes s t = s := by
  have hgone : failedLanes (trunk s t) = [] := failedLanes_fine fun l hl => (h l hl).1
  have hdeg : degradedLane s t = none :=
    List.find?_eq_none.mpr fun l hl => by simp [(h l (mem_maskLanes_lt hl)).2]
  unfold considerLanes
  dsimp only
  rw [hgone, hdeg]
  simp

theorem considerLanes_notUp {s : State} {t : Trunk} (h : (trunk s t).state ≠ .up) : considerLanes s t = s := by
  have hu : trunkUp s t = false := Bool.eq_false_iff.mpr (mt (trunkUp_eq s t).mp h)
  unfold considerLanes
  dsimp only
  rw [hu]
  rfl

theorem treatDeferred_none {s : State} {t : Trunk} (h : (trunk s t).deferred = none) : treatDeferred s t = s := by
  unfold treatDeferred
  dsimp only
  rw [h]

theorem getLsbD_lanesMask {ls : List Nat} {i : Nat} (h : (lanesMask ls).getLsbD i = true) : i ∈ ls := by
  have hstep : ∀ (l : Nat) (m : Byte), (setBit m l true).getLsbD i = true → i = l ∨ m.getLsbD i = true := by
    intro l m hm
    simp only [setBit, if_true, BitVec.getLsbD_or, Bool.or_eq_true, BitVec.getLsbD_ofNat, Bool.and_eq_true,
      Nat.testBit_two_pow] at hm
    rcases hm with hm | ⟨-, hm⟩
    · exact .inr hm
    · exact .inl (by simpa using Eq.symm (by simpa using hm))
  have hfold : ∀ (ls : List Nat) (m : Byte), (ls.foldl (fun m l => setBit m l true) m).getLsbD i = true →
      i ∈ ls ∨ m.getLsbD i = true := by
    intro ls
    induction ls with
    | nil => exact fun m hm => .inr hm
    | cons l ls ih =>
      intro m hm
      rcases ih _ hm with hm | hm
      · exact .inl (List.mem_cons_of_mem _ hm)
      · rcases hstep l m hm with rfl | hm
        · exact .inl List.mem_cons_self
        · exact .inr hm
  rcases hfold ls 0 h with h | h
  · exact h
  · simp at h

/-- A set has no more lanes than the list that it was made of. -/
theorem widthOf_lanesMask_le (ls : List Nat) : widthOf (lanesMask ls) ≤ ls.length := by
  have hnd : (maskLanes (lanesMask ls)).Nodup := List.Nodup.filter _ List.nodup_range
  exact (List.subperm_of_subset hnd fun l hl => getLsbD_lanesMask (List.mem_filter.mp hl).2).length_le

/-! ### A lane fails (R71, R72, R368) -/

/-- The trunk once a lane has failed. -/
def laneFailed (l : Nat) (locked used : Bool) (x : TrunkSt) : TrunkSt :=
  setLane x l { laneOf x l with locked := locked && (laneOf x l).locked, aligned := false, found := 0, missed := 0, goodSince := none
                                failed := (laneOf x l).failed || used }

section
variable {s : State} {t : Trunk} {l : Nat} {locked : Bool}

theorem failLane_eq : failLane s t l locked = considerLanes (updTrunk s t (laneFailed l locked
    (trunkUp s t && ((trunk s t).active.getLsbD l || (trunk s t).rxActive.getLsbD l)))) t := rfl

theorem heard_failLane : Heard t s (failLane s t l locked) :=
  (heard_considerLanes _ t).after (heard_upd s t fun _ => rfl)

/-- In training a failed lane only loses its lock and alignment. -/
theorem failLane_training (h : (trunk s t).state ≠ .up) : laneOf (trunk (failLane s t l locked) t) l =
    { laneOf (trunk s t) l with locked := (laneOf (trunk s t) l).locked && locked, aligned := false, found := 0, missed := 0
                                goodSince := none } := by
  have hu : trunkUp s t = false := Bool.eq_false_iff.mpr (mt (trunkUp_eq s t).mp h)
  have hup : (trunk (updTrunk s t (laneFailed l locked
      (trunkUp s t && ((trunk s t).active.getLsbD l || (trunk s t).rxActive.getLsbD l)))) t).state ≠ .up := by
    rw [trunk_updTrunk_same]
    exact h
  rw [failLane_eq, considerLanes_notUp hup, trunk_updTrunk_same, laneFailed, laneOf_setLane_same, hu, Bool.and_comm locked]
  simp

/-- An active lane that no spare replaces, at the minimum width, takes the trunk down with cause 4. -/
theorem failLane_belowMinimum (hu : (trunk s t).state = .up) (hl : l < 8) (ha : (trunk s t).active.getLsbD l = true)
    (hw : widthOf (trunk s t).active ≤ minWidth s t) (hc : (trunk s t).changing = []) (hg : (trunk s t).partnerGood = 0) :
    (trunk (failLane s t l locked) t).state ≠ .up ∧ (trunk (failLane s t l locked) t).lastDown = 4 := by
  have hset := onlyTrunk_upd t s (laneFailed l locked true)
  have hdown : failLane s t l locked = considerLanes (updTrunk s t (laneFailed l locked true)) t := by
    rw [failLane_eq, (trunkUp_eq s t).mpr hu, ha]
    rfl
  have hup : trunkUp (updTrunk s t (laneFailed l locked true)) t = true := by
    rw [trunkUp_eq, hset.own]
    exact hu
  have hnext : nextSet (laneFailed l locked true (trunk s t)) = (trunk s t).active := by
    have : (laneFailed l locked true (trunk s t)).changing = [] := hc
    unfold nextSet
    rw [this]
    rfl
  have hmem : l ∈ maskLanes (trunk s t).active := List.mem_filter.mpr ⟨List.mem_range.mpr hl, ha⟩
  have hgone : l ∈ failedLanes (laneFailed l locked true (trunk s t)) := by
    refine List.mem_filter.mpr ⟨by rw [hnext]; exact hmem, ?_⟩
    rw [laneFailed, laneOf_setLane_same]
    exact Bool.or_true _
  have hspare : spareLanes (updTrunk s t (laneFailed l locked true)) t = [] := by
    have : (trunk (updTrunk s t (laneFailed l locked true)) t).partnerGood = 0 := by rw [hset.own]; exact hg
    have hzero : ∀ m : Byte, maskLanes (m &&& 0) = [] := fun m => by rw [show (0 : Byte) = 0#8 from rfl, BitVec.and_zero]; rfl
    unfold spareLanes
    rw [this, hzero]
    rfl
  have hwidth : widthOf (replaceLanes (updTrunk s t (laneFailed l locked true)) t
      (failedLanes (laneFailed l locked true (trunk s t)))) < minWidth s t := by
    unfold replaceLanes
    rw [hspare, List.take_nil, List.append_nil, hset.own, hnext]
    refine Nat.lt_of_lt_of_le (Nat.lt_of_le_of_lt (widthOf_lanesMask_le _) ?_) hw
    exact List.length_filter_lt_length_iff_exists.mpr ⟨l, hmem, by simpa using hgone⟩
  have hmin : minWidth (updTrunk s t (laneFailed l locked true)) t = minWidth s t := rfl
  have hne : (failedLanes (laneFailed l locked true (trunk s t))).isEmpty = false :=
    List.isEmpty_eq_false_iff.mpr (List.ne_nil_of_mem hgone)
  have hgo : considerLanes (updTrunk s t (laneFailed l locked true)) t =
      retrainAndDown (updTrunk s t (laneFailed l locked true)) t 4 0 := by
    unfold considerLanes
    dsimp only
    rw [hup, hset.own, hne, hmin, decide_eq_true hwidth]
    rfl
  rw [hdown, hgo]
  exact retrainAndDown_ends _ t 4 0

end

/-- The lane takes part: the boundary is reached, the trunk is not DISABLED and the lane's mask bit is 1. -/
def LaneReached (s : State) (t : Trunk) (l : Fin 8) : Prop :=
  pathOn s = true ∧ (trunk s t).state ≠ .disabled ∧ (laneMask s t).getLsbD l.val = true

section
variable {s : State} {t : Trunk} {l : Fin 8}

theorem laneReached_iff : (pathOn s && laneServed s t l.val) = true ↔ LaneReached s t l := by
  simp [LaneReached, laneServed]

theorem laneReached_off (h : pathOn s = false ∨ (trunk s t).state = .disabled ∨ (laneMask s t).getLsbD l.val = false) :
    (pathOn s && laneServed s t l.val) = false := by
  refine Bool.eq_false_iff.mpr fun hr => ?_
  obtain ⟨hp, hd, hm⟩ := laneReached_iff.mp hr
  rcases h with h | h | h
  · rw [hp] at h; cases h
  · exact hd h
  · rw [hm] at h; cases h

theorem laneUnlock_eq : exec (.laneUnlock t l) s = .next (if pathOn s && laneServed s t l.val then failLane s t l.val false else s) := rfl

theorem laneFifoFault_eq (d : LaneDir) : exec (.laneFifoFault t l d) s =
    .next (if pathOn s && laneServed s t l.val then failLane (raiseTrunk s t 7) t l.val true else s) := rfl

end

/-! ### Standby lanes and lane switches (R365, R366) -/

theorem standbyLaneAdd_ripe {s : State} {t : Trunk} {l g : Nat} (hp : pathOn s = true) (hu : (trunk s t).state = .up)
    (hk : (trunk s t).sender ≠ .keyHalt) (ho : ownChange (trunk s t) = none)
    (hr : (trunk s t).retrainLeft = 0) (hw : widthOf (nextSet (trunk s t)) < widthMax s t) (hl : (spareLanes s t).head? = some l)
    (hg : (laneOf (trunk s t) l).goodSince = some g) (he : elapsed s g (msCycles 1) = true) :
    exec (.standbyLaneAdd t) s = .next (startLaneReq s t (setBit (nextSet (trunk s t)) l true)) := by
  have hbusy : laneBusy (trunk s t) = false := by simp [laneBusy, ho, hr]
  obtain ⟨rest, hrest⟩ := List.head?_eq_some_iff.mp hl
  show execStandbyLaneAdd t s = _
  unfold execStandbyLaneAdd
  dsimp only
  rw [hp, (trunkUp_eq s t).mpr hu, hbusy, decide_eq_true hk, decide_eq_true hw, hrest]
  simp [hg, he]

theorem startLaneReq_eq {s : State} {t : Trunk} (m : Byte) (h : (txKey s t).isSome = true) : startLaneReq s t m =
    setTrunk s t { trunk s t with
      nextCmd := (trunk s t).nextCmd + 1
      changing := (trunk s t).changing ++ [{ own := true, mask := m, cmdId := (trunk s t).nextCmd, txAt := (trunk s t).txGroup + 32,
                                             rxAt := (trunk s t).rxGroup + 32, txDone := false, rxDone := false, sent := false }]
      commands := (trunk s t).commands ++ [{ kind := 0x18, mask := m, reason := 0, cmdId := (trunk s t).nextCmd,
                                             gTx := (trunk s t).txGroup + 32, gRx := (trunk s t).rxGroup + 32 }] } := by
  have hn : (txKey s t).isNone = false := by rw [← Option.not_isSome, h]; rfl
  unfold startLaneReq
  dsimp only
  rw [hn]
  rfl

theorem standbyLaneAdd_idle {s : State} {t : Trunk} (h : pathOn s = false ∨ (trunk s t).state ≠ .up ∨
    (ownChange (trunk s t)).isSome = true ∨ widthMax s t ≤ widthOf (nextSet (trunk s t))) : exec (.standbyLaneAdd t) s = .next s := by
  show execStandbyLaneAdd t s = _
  unfold execStandbyLaneAdd
  dsimp only
  rw [if_neg]
  rintro hr
  simp only [Bool.and_eq_true, trunkUp_eq, Bool.not_eq_true', decide_eq_true_eq] at hr
  obtain ⟨⟨⟨⟨hp, hu⟩, -⟩, hb⟩, hw⟩ := hr
  rcases h with h | h | h | h
  · rw [hp] at h; cases h
  · exact h hu
  · simp [laneBusy, h] at hb
  · omega

/-- The trunk without its own change that was never committed to, or with one side of a change made. -/
theorem switchDone_only {s : State} {t : Trunk} {was : Nat} {c d : LaneChange} (hc : (trunk s t).changing = [c]) :
    (d.txDone && d.rxDone) = false → OnlyTrunk t { trunk s t with changing := [d] } s (switchDone s t was c d) := by
  intro hd
  have hset := onlyTrunk_upd t s (putChange c d)
  have hput : putChange c d (trunk s t) = { trunk s t with changing := [d] } := by simp [putChange, hc, hd]
  rw [hput] at hset
  unfold switchDone
  dsimp only
  rw [hd]
  exact hset

theorem switchDone_both {s : State} {t : Trunk} {was : Nat} {c d : LaneChange} (hc : (trunk s t).changing = [c])
    (hd : (d.txDone && d.rxDone) = true) : trunk (switchDone s t was c d) t = { trunk s t with changing := [] } ∧
      (ctlOn s = true → (switchDone s t was c d).events.pending.getLsbD (134 + 16 * t.val) = true) := by
  have hput : putChange c d (trunk s t) = { trunk s t with changing := [] } := by simp [putChange, hc, hd]
  unfold switchDone
  dsimp only
  rw [hd, if_pos rfl]
  refine ⟨?_, fun h => raiseTrunk_pending t (j := 6) h (by decide) (by omega)⟩
  rw [trunk_raiseTrunk, trunk_mgmtCtr, trunk_updTrunk_same, hput]

end Sys2Proof.Machine

/-! PROOF. A packet is read back as it was built: its header, its payload and its tag (R305, R306, R312, Table 9.2). -/

namespace Sys2Proof.Machine

/-! ### Slices of a padded string -/

theorem fitTo_eq_append {n : Nat} {bs : Bytes} (h : bs.length ≤ n) : fitTo n bs = bs ++ zeros (n - bs.length) := by
  rw [fitTo, List.take_append, List.take_of_length_le h, zeros, List.take_replicate, Nat.min_eq_left (Nat.sub_le n _)]
  rfl

theorem slice_append_left {a : Bytes} (b : Bytes) {i n : Nat} (h : i + n ≤ a.length) : slice (a ++ b) i n = slice a i n := by
  rw [slice, slice, List.drop_append_of_le_length (by omega), List.take_append_of_le_length (by rw [List.length_drop]; omega)]

theorem slice_middle (a b c : Bytes) {i n : Nat} (hi : i = a.length) (hn : n = b.length) : slice (a ++ b ++ c) i n = b := by
  subst hi hn
  rw [slice, List.append_assoc, List.drop_left, List.take_left]

theorem le_ceilDiv_mul (n : Nat) : n ≤ 32 * ceilDiv n 32 := by
  rw [ceilDiv]
  omega

/-! ### Counter mode twice -/

theorem xorBytes_twice {a b : Bytes} (h : a.length ≤ b.length) : xorBytes (xorBytes a b) b = a := by
  induction a generalizing b with
  | nil => rfl
  | cons x a ih =>
    cases b with
    | nil => simp at h
    | cons y b =>
      have hx : x ^^^ y ^^^ y = x := by rw [BitVec.xor_assoc, BitVec.xor_self]; simp
      show (x ^^^ y ^^^ y) :: xorBytes (xorBytes a b) b = x :: a
      rw [hx, ih (by simpa using h)]

theorem ctrCrypt_twice (e : Block → Block) (j : Block) (pt : Bytes) : ctrCrypt e j (ctrCrypt e j pt) = pt := by
  have hlen : pt.length ≤ (keystream e j (ceilDiv pt.length 16) 1).length := by
    rw [keystream_length, ceilDiv]
    omega
  rw [ctrCrypt, ctrCrypt_length]
  exact xorBytes_twice hlen

/-! ### The parts of a packet -/

/-- The body of a packet: its payload, encrypted unless it is of channel BX. -/
def packetBody (k : UnitKey) (iv : BitVec 96) (bx : Bool) (payload : Bytes) : Bytes :=
  if bx then payload else ctrCrypt (aes256 k.value) (j0 iv) payload

/-- The tag of a packet. -/
def packetTag (k : UnitKey) (iv : BitVec 96) (hdr : Bytes) (bx : Bool) (payload : Bytes) : Bytes :=
  toBE 16 (if bx then gcmTag (aes256 k.value) k.h (j0 iv) (hdr ++ payload) []
    else gcmTag (aes256 k.value) k.h (j0 iv) hdr (packetBody k iv bx payload)).toNat

theorem packetBody_length (k : UnitKey) (iv : BitVec 96) (bx : Bool) (payload : Bytes) :
    (packetBody k iv bx payload).length = payload.length := by
  cases bx <;> simp [packetBody]

section
variable (k : UnitKey) (iv : BitVec 96) (hdr : Bytes) (bx : Bool) (payload : Bytes)

/-- A packet before its padding. -/
def packetRaw : Bytes :=
  hdr ++ toBE 4 (crc04 (hdr ++ packetBody k iv bx payload ++ packetTag k iv hdr bx payload)).toNat ++ packetBody k iv bx payload ++
    packetTag k iv hdr bx payload

theorem packetBytes_eq : packetBytes k iv hdr bx payload =
    fitTo (32 * ceilDiv (packetRaw k iv hdr bx payload).length 32) (packetRaw k iv hdr bx payload) := by
  cases bx <;> rfl

variable {hdr} (h : hdr.length = 12)
include h

theorem packetRaw_length : (packetRaw k iv hdr bx payload).length = payload.length + 32 := by
  simp only [packetRaw, packetTag, List.length_append, toBE_length, packetBody_length, h]
  omega

theorem slice_packetBytes {i n : Nat} (hin : i + n ≤ payload.length + 32) :
    slice (packetBytes k iv hdr bx payload) i n = slice (packetRaw k iv hdr bx payload) i n := by
  rw [packetBytes_eq, fitTo_eq_append (le_ceilDiv_mul _)]
  exact slice_append_left _ (by rw [packetRaw_length k iv bx payload h]; exact hin)

theorem packet_header : (packetBytes k iv hdr bx payload).take 12 = hdr := by
  have hs := slice_packetBytes k iv bx payload h (i := 0) (n := 12) (by omega)
  rw [slice, List.drop_zero] at hs
  rw [hs, packetRaw, List.append_assoc, List.append_assoc]
  exact slice_middle [] hdr _ rfl h.symm

theorem packet_body : slice (packetBytes k iv hdr bx payload) 16 payload.length = packetBody k iv bx payload := by
  rw [slice_packetBytes k iv bx payload h (by omega)]
  exact slice_middle _ _ _ (by rw [List.length_append, h, toBE_length]) (packetBody_length k iv bx payload).symm

theorem packet_tag : slice (packetBytes k iv hdr bx payload) (16 + payload.length) 16 = packetTag k iv hdr bx payload := by
  rw [slice_packetBytes k iv bx payload h (by omega), ← List.append_nil (packetRaw k iv hdr bx payload)]
  exact slice_middle _ _ [] (by simp only [List.length_append, h, toBE_length, packetBody_length]) (toBE_length 16 _).symm

theorem packet_crc : beAt (packetBytes k iv hdr bx payload) 12 4 =
    (crc04 (hdr ++ packetBody k iv bx payload ++ packetTag k iv hdr bx payload)).toNat := by
  rw [beAt, slice_packetBytes k iv bx payload h (by omega), packetRaw, List.append_assoc (hdr ++ _),
    slice_middle hdr _ _ h.symm (toBE_length 4 _).symm, beNat_toBE]
  exact Nat.mod_eq_of_lt (BitVec.isLt _)

/-- The first 16 bytes spell the header and the CRC behind it. -/
theorem packet_first16 : ∃ c < 2 ^ 32, beAt (packetBytes k iv hdr bx payload) 0 16 = beNat hdr * 2 ^ 32 + c := by
  refine ⟨(crc04 (hdr ++ packetBody k iv bx payload ++ packetTag k iv hdr bx payload)).toNat, BitVec.isLt _, ?_⟩
  have hs : ∀ (w : W32) (b : Bytes), slice (hdr ++ toBE 4 w.toNat ++ b) 0 16 = hdr ++ toBE 4 w.toNat := fun w b =>
    slice_middle [] (hdr ++ toBE 4 w.toNat) b rfl (by rw [List.length_append, h, toBE_length])
  rw [beAt, slice_packetBytes k iv bx payload h (by omega), packetRaw, List.append_assoc (hdr ++ _), hs, beNat_append, toBE_length,
    beNat_toBE]
  exact congrArg (_ + ·) (Nat.mod_eq_of_lt (BitVec.isLt _))

end

/-- A packet under its own key and IV opens to its payload (R312). -/
theorem openPacket_packet (k : UnitKey) (iv : BitVec 96) (hdr : Bytes) (bx : Bool) (payload : Bytes) :
    openPacket k iv hdr (packetBody k iv bx payload) (packetTag k iv hdr bx payload) bx = some payload := by
  cases bx
  · simp only [openPacket, packetBody, packetTag, Bool.false_eq_true, if_false, if_true, ctrCrypt_twice]
  · simp only [openPacket, packetBody, packetTag, if_true]

/-! ### The header (Table 9.2) -/

theorem toNat_append_add {m n : Nat} (x : BitVec m) (y : BitVec n) : (x ++ y).toNat = x.toNat * 2 ^ n + y.toNat := by
  rw [BitVec.toNat_append, ← Nat.shiftLeft_add_eq_or_of_lt y.isLt, Nat.shiftLeft_eq]

/-- The number that header bytes spell. -/
theorem beNat_headerBytes (vc : BitVec 2) (kp : Bool) (r len : Nat) (seq ack src dst : W16) (cvc : BitVec 2) (ccum : BitVec 12) :
    beNat (headerBytes vc kp r len seq ack src dst cvc ccum) =
      ((((((((vc.toNat * 2 + kp.toNat) * 2 ^ 4 + r % 2 ^ 4) * 2 ^ 11 + len % 2 ^ 11) * 2 ^ 16 + seq.toNat) * 2 ^ 16 + ack.toNat) * 2 ^ 16 +
        src.toNat) * 2 ^ 16 + dst.toNat) * 2 ^ 2 + cvc.toNat) * 2 ^ 12 + ccum.toNat := by
  have hlt : (vc ++ BitVec.ofBool kp ++ BitVec.ofNat 4 r ++ BitVec.ofNat 11 len ++ seq ++ ack ++ src ++ dst ++ cvc ++ ccum).toNat <
      256 ^ 12 := BitVec.isLt _
  have hb : beNat (headerBytes vc kp r len seq ack src dst cvc ccum) =
      (vc ++ BitVec.ofBool kp ++ BitVec.ofNat 4 r ++ BitVec.ofNat 11 len ++ seq ++ ack ++ src ++ dst ++ cvc ++ ccum).toNat :=
    (beNat_toBE 12 _).trans (Nat.mod_eq_of_lt hlt)
  rw [hb]
  simp only [toNat_append_add, BitVec.toNat_ofNat, BitVec.toNat_ofBool, pow_one]

/-- The fields of a header, read from the first 16 bytes of the packet. -/
theorem packetHead_eq {f : Bytes} {h : PacketHead} {c : Nat} (hvc : h.vc < 4) (hr : h.r < 16) (hlen : h.len < 2048) (hcvc : h.cvc < 4)
    (hc : c < 2 ^ 32) (hf : beAt f 0 16 =
      beNat (headerBytes (vcBits h.vc) h.kp h.r h.len h.seq h.ack h.src h.dst (vcBits h.cvc) h.ccum) * 2 ^ 32 + c) : packetHead f = h := by
  rw [beNat_headerBytes] at hf
  obtain ⟨vc, kp, r, len, seq, ack, src, dst, cvc, ccum⟩ := h
  have hkp := kp.toNat_lt
  have hseq := seq.isLt
  have hack := ack.isLt
  have hsrc := src.isLt
  have hdst := dst.isLt
  have hccum := ccum.isLt
  have hv : (vcBits vc).toNat = vc := by simp only [vcBits, BitVec.toNat_ofNat]; exact Nat.mod_eq_of_lt hvc
  have hcv : (vcBits cvc).toNat = cvc := by simp only [vcBits, BitVec.toNat_ofNat]; exact Nat.mod_eq_of_lt hcvc
  simp only [hv, hcv] at hf hvc hr hlen hcvc
  rw [Nat.mod_eq_of_lt (show r < 2 ^ 4 from hr), Nat.mod_eq_of_lt (show len < 2 ^ 11 from hlen)] at hf
  have hn : (BitVec.ofNat 128 (beAt f 0 16)).toNat = beAt f 0 16 := by
    rw [BitVec.toNat_ofNat]
    exact Nat.mod_eq_of_lt (by omega)
  have hext : ∀ (i w : Nat) (x : BitVec w), beAt f 0 16 / 2 ^ i % 2 ^ w = x.toNat →
      (BitVec.ofNat 128 (beAt f 0 16)).extractLsb' i w = x := by
    intro i w x hx
    refine BitVec.eq_of_toNat_eq ?_
    rw [BitVec.extractLsb'_toNat, hn, Nat.shiftRight_eq_div_pow, hx]
  have hbit : (BitVec.ofNat 128 (beAt f 0 16)).getLsbD 125 = kp := by
    have hk : beAt f 0 16 / 2 ^ 125 % 2 = kp.toNat := by omega
    rw [BitVec.getLsbD, hn, Nat.testBit_eq_decide_div_mod_eq, hk]
    cases kp <;> rfl
  simp only [packetHead, PacketHead.mk.injEq, field, bit, hn]
  refine ⟨by omega, hbit, by omega, by omega, hext _ _ _ (by omega), hext _ _ _ (by omega), hext _ _ _ (by omega),
    hext _ _ _ (by omega), by omega, hext _ _ _ (by omega)⟩

/-! ### A packet with the expected number (R328, R331) -/

/-- State `s` is state `a` after the credits and acknowledgements of an accepted packet: no payload and no number moves. -/
structure Credited (t : Trunk) (a s : State) : Prop where
  rxQ : (trunk s t).rxQ = (trunk a t).rxQ
  e : (trunk s t).e = (trunk a t).e
  counts : ∀ j, j = 5 ∨ j = 6 → ctr s (0x4011 + t.val) j = ctr a (0x4011 + t.val) j

theorem Credited.refl (t : Trunk) (s : State) : Credited t s s := ⟨rfl, rfl, fun _ _ => rfl⟩

theorem Credited.after {t : Trunk} {a b c : State} (k : Credited t b c) (h : Credited t a b) : Credited t a c :=
  ⟨k.rxQ.trans h.rxQ, k.e.trans h.e, fun j hj => (k.counts j hj).trans (h.counts j hj)⟩

section
variable (s : State) (t : Trunk)

theorem credited_upd {f : TrunkSt → TrunkSt} (hf : ∀ x, (f x).rxQ = x.rxQ ∧ (f x).e = x.e) : Credited t s (updTrunk s t f) := by
  refine ⟨?_, ?_, fun _ _ => rfl⟩
  · rw [trunk_updTrunk_same]; exact (hf _).1
  · rw [trunk_updTrunk_same]; exact (hf _).2

theorem Credited.upd {t : Trunk} {a s : State} (h : Credited t a s) {f : TrunkSt → TrunkSt}
    (hf : ∀ x, (f x).rxQ = x.rxQ ∧ (f x).e = x.e) : Credited t a (updTrunk s t f) := (credited_upd s t hf).after h

theorem credited_raiseTrunk (j : Nat) : Credited t s (raiseTrunk s t j) :=
  ⟨by rw [trunk_raiseTrunk], by rw [trunk_raiseTrunk], fun _ _ => ctr_raise _ _ _ _ _⟩

theorem credited_transportCtr {k : Nat} (h5 : k ≠ 5) (h6 : k ≠ 6) : Credited t s (transportCtr s t k) :=
  ⟨rfl, rfl, fun j hj => ctr_transportCtr_ne s t (by omega)⟩

theorem endRound_keeps (x : TrunkSt) : (endRound x).rxQ = x.rxQ ∧ (endRound x).e = x.e := by
  unfold endRound
  split <;> exact ⟨rfl, rfl⟩

theorem credited_applyAck (a : W16) : Credited t s (applyAck s t a) := by
  unfold applyAck
  dsimp only
  split
  · exact .refl t s
  · split
    · exact credited_upd s t fun _ => endRound_keeps _
    · exact (credited_raiseTrunk _ t 10).after (credited_transportCtr s t (by decide) (by decide))

theorem credited_applyCredit (v : Nat) (c : BitVec 12) : Credited t s (applyCredit s t v c) := by
  unfold applyCredit
  dsimp only
  split
  · exact .refl t s
  · split
    · exact credited_upd s t fun _ => ⟨rfl, rfl⟩
    · exact (credited_raiseTrunk _ t 10).after (credited_transportCtr s t (by decide) (by decide))

theorem credited_settleRekey : Credited t s (settleRekey s t) := by
  unfold settleRekey
  split
  · have hreleased : Credited t s (releaseKey s (trunkKey s t)) := by
      rw [releaseKey_frame]
      exact ⟨rfl, rfl, fun _ _ => rfl⟩
    have hset : ∀ (a : State) (i j : Nat) (v : W64), Credited t a (setReg a i j v) := fun _ _ _ _ => ⟨rfl, rfl, fun _ _ => rfl⟩
    exact (credited_raiseTrunk _ t 14).after (((hset _ _ _ _).after ((hset _ _ _ _).after hreleased)).upd fun _ => ⟨rfl, rfl⟩)
  · exact .refl t s

theorem credited_switchRx (kp : Bool) : Credited t s (switchRx s t kp) := by
  unfold switchRx
  split
  · exact .refl t s
  · exact (credited_settleRekey _ t).after (credited_upd s t fun _ => ⟨rfl, rfl⟩)

/-- An accepted packet raises E by one and moves no payload. -/
theorem acceptPacket_effect (h : PacketHead) : (trunk (acceptPacket s t h) t).rxQ = (trunk s t).rxQ ∧
    (trunk (acceptPacket s t h) t).e = (trunk s t).e + 1 ∧
    ∀ j, j = 5 ∨ j = 6 → ctr (acceptPacket s t h) (0x4011 + t.val) j = ctr s (0x4011 + t.val) j := by
  obtain ⟨ch, hn⟩ := noteUncarried_changes s.now 4 { trunk s t with e := (trunk s t).e + 1 }
  have hk : Credited t (updTrunk s t fun x => noteUncarried s.now 4 { x with e := x.e + 1 }) (acceptPacket s t h) :=
    (credited_switchRx _ t _).after ((credited_applyCredit _ t _ _).after (credited_applyAck _ t _))
  refine ⟨?_, ?_, fun j hj => hk.counts j hj⟩
  · rw [hk.rxQ, trunk_updTrunk_same, hn]
  · rw [hk.e, trunk_updTrunk_same, hn]

end

section
variable {s : State} {t : Trunk} {k : UnitKey} {h : PacketHead} {payload : Bytes}

/-- A packet built for the expected number, for this node and with room for it is delivered. -/
theorem receiveExpected_delivers (hkey : rxKey s t h.kp = some k) (hdst : h.dst = nodeId s t)
    (hroom : chargeOf payload.length ≤ roomOf s t h.vc) (hdr : Bytes) :
    let iv := unitIv k.salt (ivDir s t false) false h.r (trunk s t).e
    receiveExpected s t h hdr (packetBody k iv (h.vc == 3) payload) (packetTag k iv hdr (h.vc == 3) payload) =
      updTrunk (bumpBy (transportCtr (acceptPacket s t h) t 5) (0x4011 + t.val) 6 payload.length) t
        (fun x => setRxQueue x h.vc (rxQueue x h.vc ++ [⟨vcBits h.vc, h.src, payload⟩])) := by
  intro iv
  simp only [receiveExpected, hkey, iv, openPacket_packet]
  rw [if_neg (not_not_intro hdst), if_neg (Nat.not_lt.mpr hroom)]

/-- What of a packet is checked first: its CRC, its length, and where its number lies against E (R328). -/
theorem receivePacket_numbered (iv : BitVec 96) (hlo : 32 ≤ payload.length) (hhi : payload.length ≤ 2048) (hlen : h.len = payload.length - 1)
    (hvc : h.vc < 4) (hr : h.r < 16) (hcvc : h.cvc < 4) {hdr : Bytes}
    (hhdr : hdr = headerBytes (vcBits h.vc) h.kp h.r h.len h.seq h.ack h.src h.dst (vcBits h.cvc) h.ccum) :
    receivePacket s t (packetBytes k iv hdr (h.vc == 3) payload) =
      if 32768 ≤ (h.seq - BitVec.ofNat 16 (trunk s t).e).toNat then updTrunk (transportCtr s t 11) t (fun x => { x with ackDue := true })
      else if 1 ≤ (h.seq - BitVec.ofNat 16 (trunk s t).e).toNat then
        updTrunk (transportCtr s t 12) t (fun x => { x with ackDue := true })
      else receiveExpected s t h hdr (packetBody k iv (h.vc == 3) payload) (packetTag k iv hdr (h.vc == 3) payload) := by
  have h12 : hdr.length = 12 := by rw [hhdr]; exact headerBytes_length _ _ _ _ _ _ _ _ _ _
  obtain ⟨c, hc, hfirst⟩ := packet_first16 k iv (h.vc == 3) payload h12
  have hhead : packetHead (packetBytes k iv hdr (h.vc == 3) payload) = h :=
    packetHead_eq hvc hr (by omega) hcvc hc (by rw [← hhdr]; exact hfirst)
  have hp : h.len + 1 = payload.length := by omega
  unfold receivePacket
  dsimp only
  rw [hhead, hp, packet_header k iv (h.vc == 3) payload h12, packet_body k iv (h.vc == 3) payload h12,
    packet_tag k iv (h.vc == 3) payload h12, packet_crc k iv (h.vc == 3) payload h12, if_neg (not_not_intro rfl), if_neg (by omega)]

end

end Sys2Proof.Machine

/-! PROOF. The packet with the expected number, and the groups of a trunk that is up (R303, R328, R331, R363, R369, R371). -/

namespace Sys2Proof.Machine

/-! ### The packet that the partner built -/

theorem vcBits_isBulk {v : Nat} (h : v < 4) : (vcBits v == 3) = (v == 3) := by
  interval_cases v <;> rfl

theorem rxQueue_congr {x y : TrunkSt} (h : x.rxQ = y.rxQ) (v : Nat) : rxQueue x v = rxQueue y v := by
  rw [rxQueue, rxQueue, h]

/-- The delivery of a payload, once its packet is accepted. -/
def deliver (t : Trunk) (h : PacketHead) (payload : Bytes) (a : State) : State :=
  updTrunk (bumpBy (transportCtr a t 5) (0x4011 + t.val) 6 payload.length) t
    (fun x => setRxQueue x h.vc (rxQueue x h.vc ++ [⟨vcBits h.vc, h.src, payload⟩]))

theorem trunk_deliver (a : State) (t : Trunk) (h : PacketHead) (payload : Bytes) : trunk (deliver t h payload a) t =
    setRxQueue (trunk a t) h.vc (rxQueue (trunk a t) h.vc ++ [⟨vcBits h.vc, h.src, payload⟩]) := trunk_updTrunk_same _ t _

theorem ctr_deliver (a : State) (t : Trunk) (h : PacketHead) (payload : Bytes) :
    ctr (deliver t h payload a) (0x4011 + t.val) 5 = satAdd64 (ctr a (0x4011 + t.val) 5) 1 ∧
      ctr (deliver t h payload a) (0x4011 + t.val) 6 = satAdd64 (ctr a (0x4011 + t.val) 6) payload.length := by
  have hb : ∀ j, ctr (deliver t h payload a) (0x4011 + t.val) j =
      ctr (bumpBy (transportCtr a t 5) (0x4011 + t.val) 6 payload.length) (0x4011 + t.val) j := fun _ => rfl
  constructor
  · rw [hb, ctr_bumpBy_ne _ _ _ _ _ _ (by simp only [oa]; omega), ctr_transportCtr]
  · rw [hb, ctr_bumpBy_same, ctr_transportCtr_ne a t (by decide)]

/-- What an accepted packet leaves in the queues and the counters. -/
theorem delivery_effect (s : State) (t : Trunk) (h : PacketHead) (payload : Bytes) {r : State}
    (hr : r = deliver t h payload (acceptPacket s t h)) :
    rxQueue (trunk r t) h.vc = rxQueue (trunk s t) h.vc ++ [⟨vcBits h.vc, h.src, payload⟩] ∧
      (∀ v, v ≠ h.vc → rxQueue (trunk r t) v = rxQueue (trunk s t) v) ∧ (trunk r t).e = (trunk s t).e + 1 ∧
      ctr r (0x4011 + t.val) 5 = satAdd64 (ctr s (0x4011 + t.val) 5) 1 ∧
      ctr r (0x4011 + t.val) 6 = satAdd64 (ctr s (0x4011 + t.val) 6) payload.length := by
  obtain ⟨hq, he, hc⟩ := acceptPacket_effect s t h
  obtain ⟨h5, h6⟩ := ctr_deliver (acceptPacket s t h) t h payload
  rw [hr, h5, h6, hc 5 (.inl rfl), hc 6 (.inr rfl), trunk_deliver, rxQueue_setRxQueue_same, rxQueue_congr hq]
  exact ⟨rfl, fun v hv => (rxQueue_setRxQueue_ne _ hv _).trans (rxQueue_congr hq v), he, rfl, rfl⟩

section
variable {s : State} {t : Trunk} {k : UnitKey} {h : PacketHead} {payload hdr : Bytes}

theorem receivePacket_expected (hkey : rxKey s t h.kp = some k) (hlo : 32 ≤ payload.length) (hhi : payload.length ≤ 2048)
    (hlen : h.len = payload.length - 1) (hvc : h.vc < 4) (hr : h.r < 16) (hcvc : h.cvc < 4)
    (hhdr : hdr = headerBytes (vcBits h.vc) h.kp h.r h.len h.seq h.ack h.src h.dst (vcBits h.cvc) h.ccum)
    (hseq : h.seq = BitVec.ofNat 16 (trunk s t).e) (hdst : h.dst = nodeId s t) (hroom : chargeOf payload.length ≤ roomOf s t h.vc) :
    receivePacket s t (packetBytes k (unitIv k.salt (ivDir s t false) false h.r (trunk s t).e) hdr (h.vc == 3) payload) =
      deliver t h payload (acceptPacket s t h) := by
  have hzero : (h.seq - BitVec.ofNat 16 (trunk s t).e).toNat = 0 := by rw [hseq, BitVec.sub_self]; rfl
  rw [receivePacket_numbered _ hlo hhi hlen hvc hr hcvc hhdr, hzero]
  exact receiveExpected_delivers hkey hdst hroom hdr

theorem receivePacket_outOfOrder {iv : BitVec 96} {n : Nat} (hlo : 32 ≤ payload.length) (hhi : payload.length ≤ 2048)
    (hlen : h.len = payload.length - 1) (hvc : h.vc < 4) (hr : h.r < 16) (hcvc : h.cvc < 4)
    (hhdr : hdr = headerBytes (vcBits h.vc) h.kp h.r h.len h.seq h.ack h.src h.dst (vcBits h.cvc) h.ccum)
    (hn : n = (h.seq - BitVec.ofNat 16 (trunk s t).e).toNat) (h0 : n ≠ 0) :
    receivePacket s t (packetBytes k iv hdr (h.vc == 3) payload) =
      setTrunk (bump s (0x4011 + t.val) (if 32768 ≤ n then 11 else 12)) t { trunk s t with ackDue := true } := by
  rw [receivePacket_numbered _ hlo hhi hlen hvc hr hcvc hhdr, ← hn]
  by_cases hb : 32768 ≤ n
  · rw [if_pos hb, if_pos hb]
    rfl
  · rw [if_neg hb, if_neg hb, if_pos (Nat.one_le_iff_ne_zero.mpr h0)]
    rfl

end

/-! ### Groups -/

/-- The trunk once the partner's first group has come. -/
def groupBegun (x : TrunkSt) : TrunkSt := { x with rxStarted := true }

/-- What follows the codewords of a group. -/
def groupDone (t : Trunk) (s : State) : State :=
  if !trunkUp s t then s
  else noteWaits (considerLanes (treatDeferred (updTrunk s t (fun x => { x with rxGroup := x.rxGroup + 1 })) t) t) t

section
variable {s : State} {t : Trunk} {lanes : List (List W64)}

theorem switchRxLanes_none (h : (trunk s t).changing = []) : switchRxLanes s t = s := by
  unfold switchRxLanes
  dsimp only
  rw [h]
  rfl

theorem groupReceived_up (hp : pathOn s = true) (hu : trunkUp s t = true) (hc : (trunk s t).changing = []) :
    exec (.groupReceived t lanes) s = .next (if lanes.length ≠ widthOf (trunk s t).rxActive then s
      else if ceilDiv (widthOf (trunk s t).rxActive) 2 ≤ markedLanes (trunk s t).rxActive lanes then
        (if (trunk s t).rxStarted then trunkDown s t 7 else s)
      else groupDone t (((List.range (widthOf (trunk s t).rxActive)).zip (groupOfLanes lanes)).foldl
        (receiveCodeword t (widthOf (trunk s t).rxActive)) (updTrunk s t groupBegun))) := by
  show execGroupReceived t lanes s = _
  rw [execGroupReceived, hp, hu]
  unfold receiveGroup
  dsimp only
  rw [switchRxLanes_none hc]
  rfl

theorem groupReceived_otherWidth (hp : pathOn s = true) (hu : trunkUp s t = true) (hc : (trunk s t).changing = [])
    (h : lanes.length ≠ widthOf (trunk s t).rxActive) : exec (.groupReceived t lanes) s = .next s := by
  rw [groupReceived_up hp hu hc, if_pos h]

theorem groupReceived_marked (hp : pathOn s = true) (hu : trunkUp s t = true) (hc : (trunk s t).changing = [])
    (h : lanes.length = widthOf (trunk s t).rxActive) (hm : lanes.length ≤ 2 * markedLanes (trunk s t).rxActive lanes) :
    exec (.groupReceived t lanes) s = .next (if (trunk s t).rxStarted then trunkDown s t 7 else s) := by
  rw [groupReceived_up hp hu hc, if_neg (not_not_intro h), if_pos (by rw [ceilDiv]; omega)]

theorem heard_groupDone (s : State) (t : Trunk) : Heard t s (groupDone t s) := by
  unfold groupDone
  split
  · exact .refl t s
  · exact (heard_noteWaits _ t).after ((heard_considerLanes _ t).after ((heard_treatDeferred _ t).after (heard_upd s t fun _ => rfl)))

theorem groupDone_down (h : (trunk s t).state ≠ .up) : groupDone t s = s := by
  have hu : trunkUp s t = false := Bool.eq_false_iff.mpr (mt (trunkUp_eq s t).mp h)
  rw [groupDone, hu]
  rfl

/-- With fine lanes and no lane command deferred, the end of a group only counts it. -/
theorem groupDone_fine {a : State} {x : TrunkSt} (h : OnlyTrunk t x a s) (hu : x.state = .up) (hd : x.deferred = none)
    (hf : LanesFine x) : ∃ hs st, OnlyTrunk t (withWaits hs st { x with rxGroup := x.rxGroup + 1 }) a (groupDone t s) := by
  have hup : trunkUp s t = true := by rw [trunkUp_eq, h.own]; exact hu
  have hset := h.upd fun x => { x with rxGroup := x.rxGroup + 1 }
  have hfine : LanesFine (trunk (updTrunk s t fun x => { x with rxGroup := x.rxGroup + 1 }) t) := by rw [hset.own]; exact hf
  have hdef : (trunk (updTrunk s t fun x => { x with rxGroup := x.rxGroup + 1 }) t).deferred = none := by rw [hset.own]; exact hd
  have hdone : groupDone t s = noteWaits (updTrunk s t fun x => { x with rxGroup := x.rxGroup + 1 }) t := by
    rw [groupDone, hup, treatDeferred_none hdef, considerLanes_fine hfine]
    rfl
  rw [hdone]
  exact hset.noteWaits

end

/-! ### The codeword of a group of one lane -/

theorem wordSymbols_length (ws : List W64) : (wordSymbols ws).length = 544 := by
  rw [wordSymbols, List.length_map, List.length_range]

theorem groupOfLanes_one (ws : List W64) : groupOfLanes [ws] = [wordSymbols ws] := by
  have hread : (List.range 544).map (fun i => (wordSymbols ws).getD i 0) = wordSymbols ws := by
    refine List.ext_getElem (by rw [List.length_map, List.length_range, wordSymbols_length]) fun i _ hi => ?_
    rw [List.getElem_map, List.getElem_range, List.getD_eq_getElem _ _ hi]
  unfold groupOfLanes
  dsimp only
  rw [List.map_singleton, List.length_singleton, List.range_one, List.map_singleton]
  simp only [Nat.mod_one, List.getD_cons_zero, hread]

section
variable {s : State} {t : Trunk} {w : Nat} {c : Nat × List Sym}

theorem receiveCodeword_clean {m : List Sym} (hu : trunkUp s t = true) (h : rsDecode c.2 = .clean m) :
    receiveCodeword t w s c = ((unitsOfSyms m).map some).foldl (receiveUnit t) s := by
  simp only [receiveCodeword, hu, h, Bool.not_true, Bool.false_eq_true, if_false]

theorem receiveCodeword_corrected {m : List Sym} {pos : List Nat} (hu : trunkUp s t = true) (h : rsDecode c.2 = .corrected m pos) :
    receiveCodeword t w s c =
      ((unitsOfSyms m).map some).foldl (receiveUnit t) (pos.foldl (countSymbol t w c.1) (transportCtr s t 7)) := by
  simp only [receiveCodeword, hu, h, Bool.not_true, Bool.false_eq_true, if_false]

theorem receiveCodeword_uncorrectable (hu : trunkUp s t = true) (hc : (trunk s t).changing = []) (h : rsDecode c.2 = .uncorrectable) :
    receiveCodeword t w s c = (List.replicate 20 none).foldl (receiveUnit t) (lineError (transportCtr s t 8) t) := by
  have hex : excusedGroup (trunk s t) = false := by rw [excusedGroup, hc]; rfl
  simp only [receiveCodeword, hu, h, hex, Bool.not_true, Bool.false_eq_true, if_false]

end

/-! ### Units -/

section
variable {s : State} {t : Trunk}

/-- An IDLE unit between packets changes nothing (Table 9.3, Table 9.10). -/
theorem receiveUnit_idle {u : Bool × Bytes} (hf : (trunk s t).framing = .between) (h1 : u.1 = false) (h0 : byteAt u.2 0 = 0) :
    receiveUnit t s (some u) = s := by
  obtain ⟨_, f⟩ := u
  subst h1
  have hctl : receiveControl s t f = s := by
    have : (byteAt f 0).toNat = 0 := by rw [h0]; rfl
    simp only [receiveControl, this, if_true]
  unfold receiveUnit
  dsimp only
  rw [hf]
  dsimp only
  rw [hctl, ite_self]

theorem receiveUnits_idle (us : List (Bool × Bytes)) (hf : (trunk s t).framing = .between)
    (h : ∀ u ∈ us, u.1 = false ∧ byteAt u.2 0 = 0) : (us.map some).foldl (receiveUnit t) s = s := by
  induction us with
  | nil => rfl
  | cons u us ih =>
    obtain ⟨h1, h0⟩ := h u List.mem_cons_self
    rw [List.map_cons, List.foldl_cons, receiveUnit_idle hf h1 h0]
    exact ih fun v hv => h v (List.mem_cons_of_mem _ hv)

/-- The bad units of a codeword put the framing into RESYNC (Table 9.10). -/
theorem receiveUnits_bad {a : State} {x : TrunkSt} (n : Nat) (h : OnlyTrunk t x a s) (hu : x.state = .up) :
    OnlyTrunk t { x with framing := .resync } a ((List.replicate (n + 1) none).foldl (receiveUnit t) s) := by
  have hone : ∀ (y : TrunkSt) (r : State), OnlyTrunk t y a r → y.state = .up →
      OnlyTrunk t { y with framing := .resync } a (receiveUnit t r none) := by
    intro y r hr hy
    have hup : trunkUp r t = true := by rw [trunkUp_eq, hr.own]; exact hy
    have hunit : receiveUnit t r none = updTrunk r t fun x => { x with framing := .resync } := by
      rw [receiveUnit, hup]
      rfl
    rw [hunit]
    exact hr.upd fun x => { x with framing := .resync }
  induction n generalizing x s with
  | zero => exact hone x s h hu
  | succ n ih =>
    rw [List.replicate_succ, List.foldl_cons]
    exact ih (x := { x with framing := .resync }) (hone x s h hu) hu

theorem receiveUnits_down (us : List (Option (Bool × Bytes))) (h : (trunk s t).state ≠ .up) :
    us.foldl (receiveUnit t) s = s := by
  have hu : trunkUp s t = false := Bool.eq_false_iff.mpr (mt (trunkUp_eq s t).mp h)
  have hone : ∀ u, receiveUnit t s u = s := fun u => by rw [receiveUnit, hu]; rfl
  induction us with
  | nil => rfl
  | cons u us ih => rw [List.foldl_cons, hone]; exact ih

theorem lineError_below (h : (trunk s t).lineErrors + 1 < mgmtN s t 5) :
    lineError s t = updTrunk s t fun x => { x with lineErrors := (trunk s t).lineErrors + 1 } := by
  unfold lineError
  dsimp only
  rw [if_neg (Nat.not_le.mpr h)]

theorem lineError_limit (h : mgmtN s t 5 ≤ (trunk s t).lineErrors + 1) :
    lineError s t = trunkDown (updTrunk s t fun x => { x with lineErrors := (trunk s t).lineErrors + 1 }) t 1 := by
  unfold lineError
  dsimp only
  rw [if_pos h]

end

/-! ### The outcomes of a group of one codeword -/

section
variable {s : State} {t : Trunk} {ws : List W64} (hp : pathOn s = true) (hu : (trunk s t).state = .up)
  (hc : (trunk s t).changing = []) (hw : widthOf (trunk s t).rxActive = 1) (hm : markedLanes (trunk s t).rxActive [ws] = 0)
include hp hu hc hw hm

theorem groupReceived_one : exec (.groupReceived t [ws]) s =
    .next (groupDone t (receiveCodeword t 1 (updTrunk s t groupBegun) (0, wordSymbols ws))) := by
  rw [groupReceived_up hp ((trunkUp_eq s t).mpr hu) hc, hw, hm, groupOfLanes_one, if_neg (not_not_intro List.length_singleton),
    if_neg (by decide), List.range_one, List.zip_cons_cons, List.zip_nil_left, List.foldl_cons, List.foldl_nil]

omit hp hw hm in
theorem groupBegun_only : OnlyTrunk t (groupBegun (trunk s t)) s (updTrunk s t groupBegun) ∧
    trunkUp (updTrunk s t groupBegun) t = true ∧ (trunk (updTrunk s t groupBegun) t).changing = [] := by
  have h := onlyTrunk_upd t s groupBegun
  refine ⟨h, ?_, ?_⟩
  · rw [trunkUp_eq, h.own]
    exact hu
  · rw [h.own]
    exact hc

end

section
variable {s : State} {t : Trunk} {ws : List W64}

/-- Whatever a group brings, it is heard, after at most a count. -/
theorem receiveCodeword_heard {w : Nat} {c : Nat × List Sym} (hu : trunkUp s t = true) (hc : (trunk s t).changing = []) :
    ∃ a, (∀ u, trunk a u = trunk s u) ∧ Heard t a (receiveCodeword t w s c) := by
  cases h : rsDecode c.2 with
  | clean m =>
    rw [receiveCodeword_clean hu h]
    exact ⟨s, fun _ => rfl, .foldl (fun s u => heard_receiveUnit s t u) _ s⟩
  | corrected m pos =>
    rw [receiveCodeword_corrected hu h]
    exact ⟨transportCtr s t 7, fun _ => rfl, (Heard.foldl (fun s i => heard_countSymbol s t w c.1 i) pos _).trans
      (.foldl (fun s u => heard_receiveUnit s t u) _ _)⟩
  | uncorrectable =>
    rw [receiveCodeword_uncorrectable hu hc h]
    exact ⟨s, fun _ => rfl, ((heard_transportCtr s t (k := 8) (by decide)).trans (heard_lineError _ t)).trans
      (.foldl (fun s u => heard_receiveUnit s t u) _ _)⟩

theorem group_others (hu : (trunk s t).state = .up) (hc : (trunk s t).changing = []) (c : Nat × List Sym) :
    (∀ u, u ≠ t → trunk (groupDone t (receiveCodeword t 1 (updTrunk s t groupBegun) c)) u = trunk s u) ∧
      (trunk (groupDone t (receiveCodeword t 1 (updTrunk s t groupBegun) c)) t).rxStarted = true := by
  obtain ⟨hb, hbu, hbc⟩ := groupBegun_only hu hc
  obtain ⟨a, ha, h⟩ := receiveCodeword_heard (w := 1) (c := c) hbu hbc
  have hr := h.trans (heard_groupDone _ t)
  refine ⟨fun u hut => ((hr.other u hut).trans (ha u)).trans (hb.other u hut), ?_⟩
  rw [hr.started, ha, hb.own]
  rfl

theorem group_corrected (hu : (trunk s t).state = .up) (hc : (trunk s t).changing = []) {c : Nat × List Sym} {m : List Sym}
    {pos : List Nat} (h : rsDecode c.2 = .corrected m pos) :
    ctr (groupDone t (receiveCodeword t 1 (updTrunk s t groupBegun) c)) (0x4011 + t.val) 7 =
      satAdd64 (ctr s (0x4011 + t.val) 7) 1 := by
  obtain ⟨-, hbu, -⟩ := groupBegun_only hu hc
  have hr : Heard t (transportCtr (updTrunk s t groupBegun) t 7) (groupDone t (receiveCodeword t 1 (updTrunk s t groupBegun) c)) := by
    rw [receiveCodeword_corrected hbu h]
    exact ((Heard.foldl (fun s i => heard_countSymbol s t 1 c.1 i) pos _).trans
      (.foldl (fun s u => heard_receiveUnit s t u) _ _)).trans (heard_groupDone _ t)
  rw [hr.corrected, ctr_transportCtr]
  rfl

theorem group_idle (hu : (trunk s t).state = .up) (hc : (trunk s t).changing = []) (hd : (trunk s t).deferred = none)
    (hl : LanesFine (trunk s t)) {c : Nat × List Sym} {m : List Sym} (h : rsDecode c.2 = .clean m)
    (hi : ∀ u ∈ unitsOfSyms m, u.1 = false ∧ byteAt u.2 0 = 0) (hf : (trunk s t).framing = .between) :
    ∃ hs st, OnlyTrunk t (withWaits hs st { groupBegun (trunk s t) with rxGroup := (trunk s t).rxGroup + 1 }) s
      (groupDone t (receiveCodeword t 1 (updTrunk s t groupBegun) c)) := by
  obtain ⟨hb, hbu, -⟩ := groupBegun_only hu hc
  rw [receiveCodeword_clean hbu h, receiveUnits_idle _ (by rw [hb.own]; exact hf) hi]
  exact groupDone_fine hb hu hd hl

/-- An uncorrectable codeword below the error limit is discarded to the next packet (R369). -/
theorem group_bad_below (hu : (trunk s t).state = .up) (hc : (trunk s t).changing = []) (hd : (trunk s t).deferred = none)
    (hl : LanesFine (trunk s t)) {c : Nat × List Sym} (h : rsDecode c.2 = .uncorrectable)
    (hn : (trunk s t).lineErrors + 1 < mgmtN s t 5) :
    ∃ hs st, OnlyTrunk t (withWaits hs st { groupBegun (trunk s t) with
        lineErrors := (trunk s t).lineErrors + 1, framing := .resync, rxGroup := (trunk s t).rxGroup + 1 })
      (transportCtr s t 8) (groupDone t (receiveCodeword t 1 (updTrunk s t groupBegun) c)) := by
  obtain ⟨-, hbu, hbc⟩ := groupBegun_only hu hc
  have hb : OnlyTrunk t (groupBegun (trunk s t)) (transportCtr s t 8) (transportCtr (updTrunk s t groupBegun) t 8) :=
    onlyTrunk_upd t (transportCtr s t 8) groupBegun
  have hlow : (trunk (transportCtr (updTrunk s t groupBegun) t 8) t).lineErrors + 1 <
      mgmtN (transportCtr (updTrunk s t groupBegun) t 8) t 5 := by rw [hb.own]; exact hn
  rw [receiveCodeword_uncorrectable hbu hbc h, lineError_below hlow, hb.own]
  exact groupDone_fine (receiveUnits_bad 19 (hb.upd fun x => { x with lineErrors := (groupBegun (trunk s t)).lineErrors + 1 }) hu)
    hu hd hl

/-- At the limit it takes the trunk down with cause 1 (R369). -/
theorem group_bad_limit (hu : (trunk s t).state = .up) (hc : (trunk s t).changing = []) {c : Nat × List Sym}
    (h : rsDecode c.2 = .uncorrectable) (hn : mgmtN s t 5 ≤ (trunk s t).lineErrors + 1) :
    let r := groupDone t (receiveCodeword t 1 (updTrunk s t groupBegun) c)
    ctr r (0x4011 + t.val) 8 = satAdd64 (ctr s (0x4011 + t.val) 8) 1 ∧ (trunk r t).state ≠ .up ∧ (trunk r t).lastDown = 1 := by
  obtain ⟨-, hbu, hbc⟩ := groupBegun_only hu hc
  have hb : OnlyTrunk t (groupBegun (trunk s t)) (transportCtr s t 8) (transportCtr (updTrunk s t groupBegun) t 8) :=
    onlyTrunk_upd t (transportCtr s t 8) groupBegun
  have hhigh : mgmtN (transportCtr (updTrunk s t groupBegun) t 8) t 5 ≤
      (trunk (transportCtr (updTrunk s t groupBegun) t 8) t).lineErrors + 1 := by rw [hb.own]; exact hn
  rw [receiveCodeword_uncorrectable hbu hbc h, lineError_limit hhigh]
  obtain ⟨hdown, hlast⟩ := trunkDown_ends (updTrunk (transportCtr (updTrunk s t groupBegun) t 8) t fun x =>
    { x with lineErrors := (trunk (transportCtr (updTrunk s t groupBegun) t 8) t).lineErrors + 1 }) t 1
  rw [receiveUnits_down _ hdown, groupDone_down hdown]
  refine ⟨?_, hdown, hlast⟩
  rw [ctr, trunkDown_ctrs, ← ctr_transportCtr]
  exact ctr_bumpBy_ne _ _ _ _ _ _ (by simp only [oa]; omega)

end

end Sys2Proof.Machine

/-! PROOF. The receiving side as a whole: lane faults, lane switches and what each timer does (R76, R365, R368 to R371). -/

namespace Sys2Proof.Machine

/-! ### Lane switches (R365, R366) -/

section
variable {s : State} {t : Trunk}

theorem laneSwitch_up (dir : LaneDir) (hp : pathOn s = true) (hu : (trunk s t).state = .up) : exec (.laneSwitch t dir) s =
    .next (considerLanes (treatDeferred (if dir = .tx then switchTxLanes s t else switchRxLanes s t) t) t) := by
  show execLaneSwitch t dir s = _
  rw [execLaneSwitch, hp, (trunkUp_eq s t).mpr hu]
  rfl

/-- With fine lanes and no lane command deferred, nothing follows a lane switch. -/
theorem lanes_settled (hd : (trunk s t).deferred = none) (hl : LanesFine (trunk s t)) :
    considerLanes (treatDeferred s t) t = s := by
  rw [treatDeferred_none hd, considerLanes_fine hl]

/-- A change that this side has made waits for the other side, or ends with its event. -/
theorem switchDone_settled {b : State} {y : TrunkSt} {was : Nat} {c d : LaneChange} (hb : OnlyTrunk t y s b) (hc : y.changing = [c])
    (hd : y.deferred = none) (hl : LanesFine y) :
    ((d.txDone && d.rxDone) = false →
      OnlyTrunk t { y with changing := [d] } s (considerLanes (treatDeferred (switchDone b t was c d) t) t)) ∧
    ((d.txDone && d.rxDone) = true →
      trunk (considerLanes (treatDeferred (switchDone b t was c d) t) t) t = { y with changing := [] } ∧
      (ctlOn s = true →
        (considerLanes (treatDeferred (switchDone b t was c d) t) t).events.pending.getLsbD (134 + 16 * t.val) = true)) := by
  have hcb : (trunk b t).changing = [c] := by rw [hb.own]; exact hc
  constructor
  · intro hone
    have hset : OnlyTrunk t { y with changing := [d] } s (switchDone b t was c d) := by
      have := hb.trans (switchDone_only (was := was) hcb hone)
      rwa [hb.own] at this
    rw [lanes_settled (by rw [hset.own]; exact hd) (by rw [hset.own]; exact hl)]
    exact hset
  · intro hboth
    obtain ⟨hown, hev⟩ := switchDone_both (was := was) hcb hboth
    rw [hb.own] at hown
    rw [lanes_settled (by rw [hown]; exact hd) (by rw [hown]; exact hl)]
    have hctl : ctlOn b = ctlOn s := by rw [hb.frame]; rfl
    exact ⟨hown, fun h => hev (hctl.trans h)⟩

/-- A change that is not dropped. -/
theorem change_committed {c : LaneChange} (h : ¬(c.own = true ∧ c.sent = false)) : c.own = false ∨ c.sent = true := by
  rw [or_iff_not_imp_left]
  simpa using h

/-- An own change of which no copy went out is dropped. -/
theorem dropUnsent_settled {r : State} {c : LaneChange} (hc : (trunk s t).changing = [c]) (hd : (trunk s t).deferred = none)
    (hl : LanesFine (trunk s t)) (hr : r = considerLanes (treatDeferred (updTrunk s t fun x => dropUnsent x c) t) t) :
    (trunk r t).changing = [] ∧ (trunk r t).active = (trunk s t).active ∧ (trunk r t).rxActive = (trunk s t).rxActive ∧
      r.events = s.events := by
  have hset := onlyTrunk_upd t s fun x => dropUnsent x c
  rw [lanes_settled (by rw [hset.own]; exact hd) (by rw [hset.own]; exact hl)] at hr
  rw [hr, hset.own]
  refine ⟨?_, rfl, rfl, hset.events⟩
  simp [dropUnsent, hc]

section
variable {c : LaneChange} (hc : (trunk s t).changing = [c])
include hc

theorem switchTxLanes_notDue (h : c.txAt ≠ (trunk s t).txGroup) : switchTxLanes s t = s := by
  unfold switchTxLanes
  dsimp only
  rw [hc, List.find?_cons_of_neg (by simp [h]), List.find?_nil]

theorem switchRxLanes_notDue (h : c.rxAt ≠ (trunk s t).rxGroup) : switchRxLanes s t = s := by
  unfold switchRxLanes
  dsimp only
  rw [hc, List.find?_cons_of_neg (by simp [h]), List.find?_nil]

theorem switchTxLanes_due (hd : c.txDone = false) (ha : c.txAt = (trunk s t).txGroup) (ho : (trunk s t).lineOut = []) :
    (c.own = true → c.sent = false → switchTxLanes s t = updTrunk s t fun x => dropUnsent x c) ∧
    (c.own = false ∨ c.sent = true → ∃ b cs, OnlyTrunk t { trunk s t with commands := cs, active := c.mask } s b ∧
      switchTxLanes s t = switchDone b t (widthOf (trunk s t).active) c { c with txDone := true }) := by
  have hfind : (trunk s t).changing.find? (fun c => !c.txDone && c.txAt == (trunk s t).txGroup && (trunk s t).lineOut.isEmpty) = some c := by
    rw [hc, List.find?_cons_of_pos (by simp [hd, ha, ho])]
  unfold switchTxLanes
  dsimp only
  rw [hfind]
  dsimp only
  refine ⟨fun h h' => by rw [h, h']; rfl, fun h => ?_⟩
  have hmade : (c.own && !c.sent) = false := by rcases h with h | h <;> simp [h]
  rw [hmade]
  cases hown : c.own
  · exact ⟨_, (trunk s t).commands, (onlyTrunk_set t _ s), rfl⟩
  · exact ⟨_, (trunk s t).commands.filter fun d => d.kind != 0x18, (onlyTrunk_set t _ s), rfl⟩

theorem switchRxLanes_due (hd : c.rxDone = false) (ha : c.rxAt = (trunk s t).rxGroup) :
    (c.own = true → c.sent = false → switchRxLanes s t = updTrunk s t fun x => dropUnsent x c) ∧
    (c.own = false ∨ c.sent = true → ∃ b, OnlyTrunk t { trunk s t with rxActive := c.mask } s b ∧
      switchRxLanes s t = switchDone b t (widthOf (trunk s t).rxActive) c { c with rxDone := true }) := by
  have hfind : (trunk s t).changing.find? (fun c => !c.rxDone && c.rxAt == (trunk s t).rxGroup) = some c := by
    rw [hc, List.find?_cons_of_pos (by simp [hd, ha])]
  unfold switchRxLanes
  dsimp only
  rw [hfind]
  dsimp only
  refine ⟨fun h h' => by rw [h, h']; rfl, fun h => ?_⟩
  have hmade : (c.own && !c.sent) = false := by rcases h with h | h <;> simp [h]
  rw [hmade]
  exact ⟨_, onlyTrunk_upd t s fun x => { x with rxActive := c.mask }, rfl⟩

variable (hp : pathOn s = true) (hu : (trunk s t).state = .up) (hdef : (trunk s t).deferred = none) (hl : LanesFine (trunk s t))
include hp hu hdef hl

theorem laneSwitch_tx (hd : c.txDone = false) (ha : c.txAt = (trunk s t).txGroup) (ho : (trunk s t).lineOut = []) :
    ∃ r, exec (.laneSwitch t .tx) s = .next r ∧ (trunk r t).rxActive = (trunk s t).rxActive ∧
      (c.own = true → c.sent = false →
        (trunk r t).changing = [] ∧ (trunk r t).active = (trunk s t).active ∧ r.events = s.events) ∧
      (c.own = false ∨ c.sent = true → (trunk r t).active = c.mask ∧
        (c.rxDone = false → (trunk r t).changing = [{ c with txDone := true }] ∧ r.events = s.events) ∧
        (c.rxDone = true → (trunk r t).changing = [] ∧ (ctlOn s = true → r.events.pending.getLsbD (134 + 16 * t.val) = true))) := by
  obtain ⟨hdrop, hmake⟩ := switchTxLanes_due hc hd ha ho
  refine ⟨_, laneSwitch_up .tx hp hu, ?_⟩
  rw [if_pos rfl]
  by_cases hown : c.own = true ∧ c.sent = false
  · obtain ⟨hch, hact, hrx, hev⟩ := dropUnsent_settled hc hdef hl rfl
    rw [hdrop hown.1 hown.2]
    exact ⟨hrx, fun _ _ => ⟨hch, hact, hev⟩, fun h => absurd h (by simp [hown])⟩
  · obtain ⟨b, cs, hb, hs⟩ := hmake (change_committed hown)
    obtain ⟨hone, hboth⟩ := switchDone_settled (was := widthOf (trunk s t).active) (d := { c with txDone := true }) hb hc hdef hl
    rw [hs]
    rcases Bool.eq_false_or_eq_true c.rxDone with hrx | hrx
    · obtain ⟨hset, hev⟩ := hboth hrx
      rw [hset]
      exact ⟨rfl, fun h h' => absurd ⟨h, h'⟩ hown, fun _ => ⟨rfl, fun h => absurd (hrx.symm.trans h) (by decide), fun _ => ⟨rfl, hev⟩⟩⟩
    · have hset := hone hrx
      exact ⟨by rw [hset.own], fun h h' => absurd ⟨h, h'⟩ hown, fun _ => ⟨by rw [hset.own], fun _ => ⟨by rw [hset.own], hset.events⟩,
        fun h => absurd (hrx.symm.trans h) (by decide)⟩⟩

theorem laneSwitch_rx (hd : c.rxDone = false) (ha : c.rxAt = (trunk s t).rxGroup) :
    ∃ r, exec (.laneSwitch t .rx) s = .next r ∧ (trunk r t).active = (trunk s t).active ∧
      (c.own = true → c.sent = false →
        (trunk r t).changing = [] ∧ (trunk r t).rxActive = (trunk s t).rxActive ∧ r.events = s.events) ∧
      (c.own = false ∨ c.sent = true → (trunk r t).rxActive = c.mask ∧
        (c.txDone = false → (trunk r t).changing = [{ c with rxDone := true }] ∧ r.events = s.events) ∧
        (c.txDone = true → (trunk r t).changing = [] ∧ (ctlOn s = true → r.events.pending.getLsbD (134 + 16 * t.val) = true))) := by
  obtain ⟨hdrop, hmake⟩ := switchRxLanes_due hc hd ha
  refine ⟨_, laneSwitch_up .rx hp hu, ?_⟩
  rw [if_neg (by decide)]
  by_cases hown : c.own = true ∧ c.sent = false
  · obtain ⟨hch, hact, hrx, hev⟩ := dropUnsent_settled hc hdef hl rfl
    rw [hdrop hown.1 hown.2]
    exact ⟨hact, fun _ _ => ⟨hch, hrx, hev⟩, fun h => absurd h (by simp [hown])⟩
  · obtain ⟨b, hb, hs⟩ := hmake (change_committed hown)
    obtain ⟨hone, hboth⟩ := switchDone_settled (was := widthOf (trunk s t).rxActive) (d := { c with rxDone := true }) hb hc hdef hl
    rw [hs]
    rcases Bool.eq_false_or_eq_true c.txDone with htx | htx
    · obtain ⟨hset, hev⟩ := hboth (by rw [htx]; rfl)
      rw [hset]
      exact ⟨rfl, fun h h' => absurd ⟨h, h'⟩ hown, fun _ => ⟨rfl, fun h => absurd (htx.symm.trans h) (by decide), fun _ => ⟨rfl, hev⟩⟩⟩
    · have hset := hone (by rw [htx]; rfl)
      exact ⟨by rw [hset.own], fun h h' => absurd ⟨h, h'⟩ hown, fun _ => ⟨by rw [hset.own], fun _ => ⟨by rw [hset.own], hset.events⟩,
        fun h => absurd (htx.symm.trans h) (by decide)⟩⟩

theorem laneSwitch_notDue (dir : LaneDir) (h : (dir = .tx ∧ c.txAt ≠ (trunk s t).txGroup) ∨ (dir = .rx ∧ c.rxAt ≠ (trunk s t).rxGroup)) :
    exec (.laneSwitch t dir) s = .next s := by
  rw [laneSwitch_up dir hp hu]
  rcases h with ⟨rfl, h⟩ | ⟨rfl, h⟩
  · rw [if_pos rfl, switchTxLanes_notDue hc h, lanes_settled hdef hl]
  · rw [if_neg (by decide), switchRxLanes_notDue hc h, lanes_settled hdef hl]

end

/-! ### Timers (R369, R370) -/

theorem creditTimeout_effect (s : State) (t : Trunk) : (trunk (trunkDown s t 3) t).lastDown = 3 ∧
    (trunk (trunkDown s t 3) t).state = (if trunkEnabled s t then .grant else .disabled) ∧
    (trunk (trunkDown s t 3) t).entries = (trunk s t).entries ∧ (trunk (trunkDown s t 3) t).txQ = (trunk s t).txQ ∧
    ctr (trunkDown s t 3) (0x4015 + t.val) 1 = satAdd64 (ctr s (0x4015 + t.val) 1) 1 ∧
    (ctlOn s = true → (trunkDown s t 3).events.pending.getLsbD (129 + 16 * t.val) = true) := by
  obtain ⟨hentries, hq, -⟩ := downed_keeps 3 (trunkEnabled s t) (trunk s t)
  refine ⟨(trunkDown_ends s t 3).2, ?_, ?_, ?_, trunkDown_count s t 3, trunkDown_pending s t 3⟩ <;> rw [trunk_trunkDown_same]
  · exact downed_state _ _ _
  · exact hentries
  · exact hq

theorem errorWindow_effect (s : State) (t : Trunk) {r : State}
    (h : r = updTrunk s t fun x => { (List.range 8).foldl clearLane x with windowStart := s.now, lineErrors := 0 }) :
    (trunk r t).windowStart = s.now ∧ (trunk r t).lineErrors = 0 ∧
      (∀ l, l < 8 → laneOf (trunk r t) l = { laneOf (trunk s t) l with corrected := 0, degraded := false }) ∧
      r = { s with trunks := r.trunks } := by
  have hset := onlyTrunk_upd t s fun x => { (List.range 8).foldl clearLane x with windowStart := s.now, lineErrors := 0 }
  rw [← h] at hset
  refine ⟨by rw [hset.own], by rw [hset.own], fun l hl => ?_, hset.frame⟩
  have hlane : ∀ x : TrunkSt, laneOf { x with windowStart := s.now, lineErrors := 0 } l = laneOf x l := fun _ => rfl
  rw [hset.own, hlane, laneOf_foldl_clearLane, if_pos (List.mem_range.mpr hl)]

/-! ### Lane faults (R71, R72, R368) -/

/-- The state in which the lane of a lane fault fails: a FIFO fault has raised its event. -/
def laneFaulted (s : State) (t : Trunk) (unlock : Bool) : State := if unlock then s else raiseTrunk s t 7

theorem laneFault_eq (s : State) (t : Trunk) (l : Fin 8) (d : LaneDir) {c : Instr}
    (hc : c = .laneUnlock t l ∨ c = .laneFifoFault t l d) : exec c s = .next (if pathOn s && laneServed s t l.val then
      failLane (laneFaulted s t (decide (c = .laneUnlock t l))) t l.val (decide (c ≠ .laneUnlock t l)) else s) := by
  rcases hc with rfl | rfl
  · rw [laneUnlock_eq]
    simp [laneFaulted]
  · rw [laneFifoFault_eq]
    simp [laneFaulted]

theorem trunk_laneFaulted (s : State) (t : Trunk) (b : Bool) : trunk (laneFaulted s t b) t = trunk s t := by
  cases b
  · exact trunk_raiseTrunk s t t 7
  · rfl

theorem minWidth_laneFaulted (s : State) (t : Trunk) (b : Bool) : minWidth (laneFaulted s t b) t = minWidth s t := by
  cases b
  · have hreg : ∀ i j, reg (raiseTrunk s t 7) i j = reg s i j := fun i j => reg_raise s _ _ i j
    simp only [laneFaulted, minWidth, mgmtN, regN, Bool.false_eq_true, if_false, hreg]
  · rfl

end

end Sys2Proof.Machine

/-! PROOF. The receivers of a trunk accept in order: the statement as a whole (R76, R303, R312, R328, R331, R332, R363 to R371). -/

namespace Sys2Proof.Machine

section
variable {s : State} {t : Trunk}

theorem groupReceived_halfMarked {lanes : List (List W64)} (hp : pathOn s = true) (hu : trunkUp s t = true)
    (hc : (trunk s t).changing = []) (h : lanes.length = widthOf (trunk s t).rxActive)
    (hm : lanes.length ≤ 2 * markedLanes (trunk s t).rxActive lanes) :
    ((trunk s t).rxStarted = false → exec (.groupReceived t lanes) s = .next s) ∧
      ((trunk s t).rxStarted = true →
        ∃ r, exec (.groupReceived t lanes) s = .next r ∧ (trunk r t).state ≠ .up ∧ (trunk r t).lastDown = 7) := by
  have hexec := groupReceived_marked hp hu hc h hm
  refine ⟨fun hr => by rw [hexec, hr]; rfl, fun hr => ⟨trunkDown s t 7, by rw [hexec, hr]; rfl, trunkDown_ends s t 7⟩⟩

/-- What the one codeword of a group brings. -/
theorem groupReceived_codeword {ws : List W64} {c : List Sym} (hp : pathOn s = true) (hu : (trunk s t).state = .up) (hc : (trunk s t).changing = [])
    (hd : (trunk s t).deferred = none) (hw : widthOf (trunk s t).rxActive = 1) (hm : markedLanes (trunk s t).rxActive [ws] = 0)
    (hl : LanesFine (trunk s t)) (hcw : c = wordSymbols ws) :
    ∃ r, exec (.groupReceived t [ws]) s = .next r ∧ (∀ u, u ≠ t → trunk r u = trunk s u) ∧ (trunk r t).rxStarted = true ∧
      (rsDecode c = .uncorrectable → ctr r (0x4011 + t.val) 8 = satAdd64 (ctr s (0x4011 + t.val) 8) 1 ∧
        ((trunk s t).lineErrors + 1 < mgmtN s t 5 → (trunk r t).framing = .resync ∧ (trunk r t).state = .up ∧
          (trunk r t).lineErrors = (trunk s t).lineErrors + 1 ∧ (trunk r t).rxGroup = (trunk s t).rxGroup + 1 ∧
          (trunk r t).rxQ = (trunk s t).rxQ) ∧
        (mgmtN s t 5 ≤ (trunk s t).lineErrors + 1 → (trunk r t).state ≠ .up ∧ (trunk r t).lastDown = 1)) ∧
      (∀ m pos, rsDecode c = .corrected m pos → ctr r (0x4011 + t.val) 7 = satAdd64 (ctr s (0x4011 + t.val) 7) 1) ∧
      (∀ m, rsDecode c = .clean m → (∀ u ∈ unitsOfSyms m, u.1 = false ∧ byteAt u.2 0 = 0) →
        (trunk s t).framing = .between → (trunk r t).rxGroup = (trunk s t).rxGroup + 1 ∧ (trunk r t).rxQ = (trunk s t).rxQ ∧
          (trunk r t).e = (trunk s t).e ∧ (trunk r t).framing = .between ∧ r.ctrs = s.ctrs ∧ r.events = s.events) := by
  obtain ⟨hother, hstarted⟩ := group_others hu hc (0, c)
  refine ⟨_, by rw [groupReceived_one hp hu hc hw hm, ← hcw], hother, hstarted, fun h => ?_, fun m pos h =>
    group_corrected (c := (0, c)) hu hc h, fun m h hi hf => ?_⟩
  · rcases Nat.lt_or_ge ((trunk s t).lineErrors + 1) (mgmtN s t 5) with hn | hn
    · obtain ⟨hs, st, hr⟩ := group_bad_below (c := (0, c)) hu hc hd hl h hn
      refine ⟨?_, fun _ => ?_, fun hge => absurd hge (by omega)⟩
      · rw [ctr, hr.ctrs]
        exact ctr_transportCtr s t 8
      · rw [hr.own]
        exact ⟨rfl, hu, rfl, rfl, rfl⟩
    · obtain ⟨hcount, hend⟩ := group_bad_limit (c := (0, c)) hu hc h hn
      exact ⟨hcount, fun hlt => absurd hlt (by omega), fun _ => hend⟩
  · obtain ⟨hs, st, hr⟩ := group_idle (c := (0, c)) hu hc hd hl h hi hf
    rw [hr.own]
    exact ⟨rfl, rfl, rfl, hf, hr.ctrs, hr.events⟩

/-- What a lane fault does to a lane that takes part. -/
theorem laneFault_effect {l : Fin 8} {d : LaneDir} {c : Instr} (hc : c = .laneUnlock t l ∨ c = .laneFifoFault t l d)
    (hp : pathOn s = true) (hd : (trunk s t).state ≠ .disabled) (hm : (laneMask s t).getLsbD l.val = true) :
    ∃ r, exec c s = .next r ∧
      (c = .laneFifoFault t l d → ctlOn s = true → r.events.pending.getLsbD (135 + 16 * t.val) = true) ∧
      ((trunk s t).state ≠ .up → laneOf (trunk r t) l.val = { laneOf (trunk s t) l.val with
        locked := (laneOf (trunk s t) l.val).locked && decide (c ≠ .laneUnlock t l), aligned := false, found := 0, missed := 0,
        goodSince := none }) ∧
      ((trunk s t).state = .up → (trunk s t).active.getLsbD l.val = true → widthOf (trunk s t).active ≤ minWidth s t →
        (trunk s t).changing = [] → (trunk s t).partnerGood = 0 → (trunk r t).state ≠ .up ∧ (trunk r t).lastDown = 4) := by
  have htr := trunk_laneFaulted s t (decide (c = .laneUnlock t l))
  refine ⟨_, by rw [laneFault_eq s t l d hc, if_pos (laneReached_iff.mpr ⟨hp, hd, hm⟩)], fun hf hctl => ?_, fun hu => ?_,
    fun hu ha hw hch hg => ?_⟩
  · refine heard_failLane.pending _ ?_
    subst hf
    exact raiseTrunk_pending t (j := 7) hctl (by decide) (by omega)
  · rw [failLane_training (by rw [htr]; exact hu), htr]
  · refine failLane_belowMinimum ?_ l.isLt ?_ ?_ ?_ ?_ <;> rw [htr]
    · exact hu
    · exact ha
    · rw [minWidth_laneFaulted]
      exact hw
    · exact hch
    · exact hg

/-- The words of a payload that stands on `tf_rx_`. -/
theorem tfRxPresent_presenting {ready : BitVec 4} {n : Nat} {p : RxPayload} (hp : pathOn s = true)
    (h : (trunk s t).presenting = some p) :
    (rxWords p ≤ (trunk s t).rxSent + n → ∃ r, exec (.tfRxPresent t ready n) s = .next r ∧ (trunk r t).presenting = none ∧
      (trunk r t).lastRx = some p ∧
      cRetOf (trunk r t) p.vc.toNat = cRetOf (trunk s t) p.vc.toNat + BitVec.ofNat 12 (chargeOf p.payload.length) ∧
      r = { s with trunks := r.trunks }) ∧
    ((trunk s t).rxSent + n < rxWords p → exec (.tfRxPresent t ready n) s =
      .next (if n = 0 ∧ (trunk s t).rxStall.isSome = true then s else
        setTrunk s t { trunk s t with rxSent := (trunk s t).rxSent + n, rxStall := some s.now, rxStuckRaised := false })) := by
  have hexec := tfRxPresent_running (ready := ready) (n := n) hp h
  refine ⟨fun hn => ?_, fun hn => by rw [hexec, takeRx_more hn]⟩
  have hfin := finishPresent_only s t p
  obtain ⟨hpres, hlast, hret, -⟩ := presented_fields s.now p (trunk s t)
  refine ⟨_, by rw [hexec, takeRx_last hn], ?_⟩
  rw [hfin.own]
  exact ⟨hpres, hlast, hret, hfin.frame⟩

end

/-! ### The obligation -/

/-- Settles O54: a packet with the expected number is delivered, others ask for an acknowledgement, and each group, lane and timer does
what is due and nothing before. -/
theorem trunkReceiversAcceptInOrder : Obligations.TrunkReceiversAcceptInOrder := by
  unfold Obligations.TrunkReceiversAcceptInOrder
  refine ⟨?packet, fun s t lanes hp hu hc => ⟨groupReceived_otherWidth hp hu hc, groupReceived_halfMarked hp hu hc⟩, ?codeword, ?words,
    ?stuck, ?timers, ?faults, ?standby, ?switch⟩
  case packet =>
    intro s t k h payload hdr f _ hkey hlo hhi hlen hvc hr hcvc hhdr
    rw [vcBits_isBulk hvc]
    refine ⟨fun hseq hf hdst hroom => ?_, fun iv n hn h0 hf => ?_⟩
    · exact delivery_effect s t h payload (by rw [hf, receivePacket_expected hkey hlo hhi hlen hvc hr hcvc hhdr hseq hdst hroom])
    · rw [hf]
      exact receivePacket_outOfOrder hlo hhi hlen hvc hr hcvc hhdr hn h0
  case codeword =>
    rintro s t ws c x hp rfl hu hc hd hw hm hcw hl
    obtain ⟨r, hexec, hother, hstarted, hbad, hcorrected, hclean⟩ := groupReceived_codeword hp hu hc hd hw hm hl hcw
    refine ⟨r, hexec, hother, fun _ => hstarted, ?_⟩
    cases hdec : rsDecode c with
    | clean m => exact hclean m hdec
    | corrected m pos => exact hcorrected m pos hdec
    | uncorrectable => exact hbad hdec
  case words =>
    rintro s t ready n x hp rfl
    exact ⟨fun p => tfRxPresent_presenting hp, tfRxPresent_idle hp, fun v p rest hnone hfind hq hv =>
      ⟨_, tfRxPresent_begins hp hnone hfind hq, takeRx_begun hv (onlyTrunk_set t _ s)⟩⟩
  case stuck =>
    intro s t
    cases h : (trunk s t).rxStall with
    | none => exact trunkReceiveStuck_idle h
    | some c => exact trunkReceiveStuck_stalled h
  case timers =>
    intro s t hp hu
    rw [creditTimeout_decides hp hu, errorWindow_decides hp hu]
    exact ⟨fun h => ⟨_, by rw [h]; rfl, creditTimeout_effect s t⟩, fun h => by rw [h]; rfl,
      fun h => ⟨_, by rw [h]; rfl, errorWindow_effect s t rfl⟩, fun h => by rw [h]; rfl⟩
  case faults =>
    intro s t l d c hc
    refine ⟨fun hoff => by rw [laneFault_eq s t l d hc, laneReached_off hoff]; rfl, fun hp hd hm => ?_⟩
    obtain ⟨r, hexec, hevent, htraining, hdown⟩ := laneFault_effect hc hp hd hm
    exact ⟨r, hexec, hevent, htraining, fun hu ha hw hch hg _ _ => hdown hu ha hw hch hg⟩
  case standby =>
    rintro s t x rfl
    refine ⟨fun l g hp hu hk htx ho hr hw hl hg he => ?_, standbyLaneAdd_idle⟩
    rw [standbyLaneAdd_ripe hp hu hk ho hr hw hl hg he, startLaneReq_eq _ htx]
  case switch =>
    rintro s t dir x c rfl hp hu hc hdef hl
    refine ⟨?_, ?_, fun hdir h => laneSwitch_notDue hc hp hu hdef hl dir (.inl ⟨hdir, h⟩),
      fun hdir h => laneSwitch_notDue hc hp hu hdef hl dir (.inr ⟨hdir, h⟩)⟩
    · rintro rfl hd ha ho
      exact laneSwitch_tx hc hp hu hdef hl hd ha ho
    · rintro rfl hd ha
      exact laneSwitch_rx hc hp hu hdef hl hd ha

end Sys2Proof.Machine

/-! PROOF. Late binding: GHASH is linear in its blocks, so the patch of R140 turns the placeholder frame into the protected frame of
the final bytes (R124, R125, R128, R138, R140). -/

namespace Sys2Proof.Machine

/-! ### Strings under XOR -/

theorem xorBytes_length {a b : Bytes} (h : a.length = b.length) : (xorBytes a b).length = a.length := by
  rw [xorBytes, List.length_zipWith, h, Nat.min_self]

theorem xorBytes_comm (a b : Bytes) : xorBytes a b = xorBytes b a := by
  rw [xorBytes, List.zipWith_comm]
  simp only [BitVec.xor_comm]
  rfl

theorem xorBytes_append {a b : Bytes} (h : a.length = b.length) (c d : Bytes) :
    xorBytes (a ++ c) (b ++ d) = xorBytes a b ++ xorBytes c d :=
  List.zipWith_append h

theorem xorBytes_take (n : Nat) (a b : Bytes) : (xorBytes a b).take n = xorBytes (a.take n) (b.take n) := List.take_zipWith

theorem xorBytes_drop (n : Nat) (a b : Bytes) : (xorBytes a b).drop n = xorBytes (a.drop n) (b.drop n) := List.drop_zipWith

theorem xorBytes_zeros (a : Bytes) : xorBytes a (zeros a.length) = a := by
  induction a with
  | nil => rfl
  | cons x a ih =>
    show (x ^^^ 0#8) :: xorBytes a (zeros a.length) = x :: a
    rw [ih, BitVec.xor_zero]

theorem xorBytes_right_comm (a b c : Bytes) : xorBytes (xorBytes a b) c = xorBytes (xorBytes a c) b := by
  induction a generalizing b c with
  | nil => rfl
  | cons x a ih =>
    cases b with
    | nil => cases c <;> rfl
    | cons y b =>
      cases c with
      | nil => rfl
      | cons z c =>
        show (x ^^^ y ^^^ z) :: xorBytes (xorBytes a b) c = (x ^^^ z ^^^ y) :: xorBytes (xorBytes a c) b
        rw [ih, BitVec.xor_assoc, BitVec.xor_comm y z, BitVec.xor_assoc]

/-- A string and its difference to another give the other. -/
theorem xorBytes_delta {a b : Bytes} (h : a.length = b.length) : xorBytes b (xorBytes a b) = a := by
  rw [xorBytes_comm, xorBytes_twice h.le]

/-! ### Blocks under XOR -/

/-- The XOR of two lists of blocks, block by block. -/
def xorBlocks (a b : List Block) : List Block := List.zipWith (· ^^^ ·) a b

theorem xorBlocks_append {a b : List Block} (h : a.length = b.length) (c d : List Block) :
    xorBlocks (a ++ c) (b ++ d) = xorBlocks a b ++ xorBlocks c d :=
  List.zipWith_append h

/-- A high part above `k` bits and a low part of `k` bits are XORed apart. -/
theorem xor_parts {k a b : Nat} (ha : a < 2 ^ k) (hb : b < 2 ^ k) (x y : Nat) :
    (2 ^ k * x + a) ^^^ (2 ^ k * y + b) = 2 ^ k * (x ^^^ y) + (a ^^^ b) := by
  refine Nat.eq_of_testBit_eq fun i => ?_
  rw [Nat.testBit_xor, Nat.testBit_two_pow_mul_add _ ha, Nat.testBit_two_pow_mul_add _ hb,
    Nat.testBit_two_pow_mul_add _ (Nat.xor_lt_two_pow ha hb)]
  split <;> rw [Nat.testBit_xor]

theorem beNat_cons (x : Byte) (bs : Bytes) : beNat (x :: bs) = 2 ^ (8 * bs.length) * x.toNat + beNat bs := by
  rw [← List.singleton_append, beNat_append, pow_mul, Nat.mul_comm]
  simp [beNat]

theorem beNat_lt_two_pow (bs : Bytes) : beNat bs < 2 ^ (8 * bs.length) := by
  rw [pow_mul]
  exact beNat_lt bs

theorem beNat_xorBytes {a b : Bytes} (h : a.length = b.length) : beNat (xorBytes a b) = beNat a ^^^ beNat b := by
  induction a generalizing b with
  | nil => obtain rfl := List.length_eq_zero_iff.mp h.symm; rfl
  | cons x a ih =>
    cases b with
    | nil => cases h
    | cons y b =>
      have hl : a.length = b.length := Nat.succ.inj h
      have hb : beNat b < 2 ^ (8 * a.length) := hl ▸ beNat_lt_two_pow b
      show beNat ((x ^^^ y) :: xorBytes a b) = _
      rw [beNat_cons, beNat_cons, beNat_cons, xorBytes_length hl, ih hl, ← hl, xor_parts (beNat_lt_two_pow a) hb, BitVec.toNat_xor]

theorem fitTo_xorBytes (n : Nat) {a b : Bytes} (h : a.length = b.length) : fitTo n (xorBytes a b) = xorBytes (fitTo n a) (fitTo n b) := by
  have hz : xorBytes (zeros n) (zeros n) = zeros n := by simpa using xorBytes_zeros (zeros n)
  rw [fitTo, fitTo, fitTo, ← xorBytes_take, xorBytes_append h, hz]

theorem blocksN_xorBytes (n : Nat) {a b : Bytes} (h : a.length = b.length) :
    blocksN n (xorBytes a b) = xorBlocks (blocksN n a) (blocksN n b) := by
  induction n generalizing a b with
  | zero => rfl
  | succ n ih =>
    rw [blocksN, xorBytes_drop, ih (by simp [h]), fitTo_xorBytes 16 h, beNat_xorBytes (by simp), BitVec.ofNat_xor]
    rfl

theorem blocksN_length (n : Nat) (bs : Bytes) : (blocksN n bs).length = n := by
  induction n generalizing bs with
  | zero => rfl
  | succ n ih => rw [blocksN, List.length_cons, ih]

theorem blocks_length (bs : Bytes) : (blocks bs).length = ceilDiv bs.length 16 := blocksN_length _ _

theorem blocks_xorBytes {a b : Bytes} (h : a.length = b.length) : blocks (xorBytes a b) = xorBlocks (blocks a) (blocks b) := by
  rw [blocks, xorBytes_length h, blocksN_xorBytes _ h, blocks, blocks, h]

/-! ### GHASH is linear -/

theorem ghashSum_xor (x y : Block) (n : Nat) (v : Block) : ghashSum (x ^^^ y) n v = ghashSum x n v ^^^ ghashSum y n v := by
  induction n generalizing v with
  | zero => exact (BitVec.xor_self).symm
  | succ n ih =>
    have hbit : (if (x ^^^ y).getLsbD n then v else 0) = (if x.getLsbD n then v else 0) ^^^ (if y.getLsbD n then v else 0) := by
      rw [BitVec.getLsbD_xor]
      cases x.getLsbD n <;> cases y.getLsbD n <;> simp
    rw [ghashSum, ghashSum, ghashSum, ih, hbit]
    ac_rfl

theorem gmul_xor (x y h : Block) : gmul (x ^^^ y) h = gmul x h ^^^ gmul y h := ghashSum_xor x y 128 h

theorem mulPow_xor (x y h : Block) (n : Nat) : mulPow (x ^^^ y) h n = mulPow x h n ^^^ mulPow y h n := by
  induction n with
  | zero => rfl
  | succ n ih => rw [mulPow, ih, gmul_xor, mulPow, mulPow]

theorem mulPow_zero (h : Block) (n : Nat) : mulPow 0 h n = 0 := by
  have hx := mulPow_xor 0 0 h n
  rwa [BitVec.xor_self, BitVec.xor_self] at hx

theorem mulPow_gmul (x h : Block) (n : Nat) : mulPow (gmul x h) h n = mulPow x h (n + 1) := by
  induction n with
  | zero => rfl
  | succ n ih => rw [mulPow, ih, ← mulPow]

/-- A difference of 0 contributes nothing, with or without the case for it. -/
theorem deltaSum_cons (h d : Block) (ds : List Block) : deltaSum h (d :: ds) = mulPow d h (ds.length + 1) ^^^ deltaSum h ds := by
  rw [deltaSum]
  split
  · next hd => rw [hd, mulPow_zero]
  · rfl

/-- GHASH is the sum of the products of its blocks with the powers of H (R140 step 2). -/
theorem ghashFrom_eq (h y : Block) (xs : List Block) : ghashFrom h y xs = mulPow y h xs.length ^^^ deltaSum h xs := by
  induction xs generalizing y with
  | nil => exact (BitVec.xor_zero).symm
  | cons x xs ih =>
    calc ghashFrom h y (x :: xs)
        = ghashFrom h (gmul (y ^^^ x) h) xs := rfl
      _ = mulPow (y ^^^ x) h (xs.length + 1) ^^^ deltaSum h xs := by rw [ih, mulPow_gmul]
      _ = mulPow y h (xs.length + 1) ^^^ deltaSum h (x :: xs) := by rw [mulPow_xor, deltaSum_cons, BitVec.xor_assoc]

theorem ghash_eq_deltaSum (h : Block) (xs : List Block) : ghash h xs = deltaSum h xs := by
  rw [ghash, ghashFrom_eq, mulPow_zero]
  exact BitVec.zero_xor

theorem deltaSum_xorBlocks (h : Block) {xs ds : List Block} (hl : xs.length = ds.length) :
    deltaSum h (xorBlocks xs ds) = deltaSum h xs ^^^ deltaSum h ds := by
  induction xs generalizing ds with
  | nil => obtain rfl := List.length_eq_zero_iff.mp hl.symm; exact (BitVec.xor_zero).symm
  | cons x xs ih =>
    cases ds with
    | nil => cases hl
    | cons d ds =>
      have hl' : xs.length = ds.length := Nat.succ.inj hl
      have hx : (xorBlocks xs ds).length = xs.length := by rw [xorBlocks, List.length_zipWith, hl', Nat.min_self]
      show deltaSum h ((x ^^^ d) :: xorBlocks xs ds) = _
      rw [deltaSum_cons, deltaSum_cons, deltaSum_cons, ih hl', hx, mulPow_xor, ← hl']
      ac_rfl

theorem gcmBlocks_xorBytes {a da c dc : Bytes} (ha : a.length = da.length) (hc : c.length = dc.length) :
    gcmBlocks (xorBytes a da) (xorBytes c dc) = xorBlocks (gcmBlocks a c) (blocks da ++ blocks dc ++ [0]) := by
  have hab : (blocks a).length = (blocks da).length := by rw [blocks_length, blocks_length, ha]
  have hcb : (blocks c).length = (blocks dc).length := by rw [blocks_length, blocks_length, hc]
  have hend : ∀ x : Block, xorBlocks [x] [0] = [x] := fun x => congrArg (fun y => [y]) BitVec.xor_zero
  rw [gcmBlocks, gcmBlocks, xorBytes_length ha, xorBytes_length hc, blocks_xorBytes ha, blocks_xorBytes hc,
    xorBlocks_append (by rw [List.length_append, List.length_append, hab, hcb]), xorBlocks_append hab, hend]

/-- The tag moves with its input by the sum of R140 step 2. -/
theorem planTag_xorBytes (p : CipherPlan) {a da c dc : Bytes} (ha : a.length = da.length) (hc : c.length = dc.length) :
    planTag p (xorBytes a da) (xorBytes c dc) = planTag p a c ^^^ deltaSum p.h (blocks da ++ blocks dc ++ [0]) := by
  have hl : (gcmBlocks a c).length = (blocks da ++ blocks dc ++ [0]).length := by
    simp only [gcmBlocks, List.length_append, blocks_length, ha, hc, List.length_singleton]
  rw [planTag, gcmTag, gcmBlocks_xorBytes ha hc, ghash_eq_deltaSum, deltaSum_xorBlocks _ hl, ← ghash_eq_deltaSum, planTag, gcmTag]
  ac_rfl

/-! ### The cipher input of a patched frame (R125, R140 step 1) -/

theorem ctrCrypt_xorBytes (e : Block → Block) (j : Block) {a d : Bytes} (h : a.length = d.length) :
    ctrCrypt e j (xorBytes a d) = xorBytes (ctrCrypt e j a) d := by
  rw [ctrCrypt, xorBytes_length h, xorBytes_right_comm, ctrCrypt]

theorem cipherInput_lengths (conf : Bool) (off : Nat) {hdr hdr' sd sd' : Bytes} (hh : hdr.length = hdr'.length)
    (hs : sd.length = sd'.length) : (cipherInput conf off hdr sd).aad.length = (cipherInput conf off hdr' sd').aad.length ∧
      (cipherInput conf off hdr sd).text.length = (cipherInput conf off hdr' sd').text.length := by
  cases conf <;> simp [cipherInput, hh, hs]

theorem cipherInput_xorBytes (conf : Bool) (off : Nat) {hdr hd : Bytes} (hh : hdr.length = hd.length) (sd d : Bytes) :
    cipherInput conf off (xorBytes hdr hd) (xorBytes sd d) =
      ⟨xorBytes (cipherInput conf off hdr sd).aad (cipherInput conf off hd d).aad,
        xorBytes (cipherInput conf off hdr sd).text (cipherInput conf off hd d).text⟩ := by
  cases conf with
  | false => exact congrArg (CipherInput.mk · []) (xorBytes_append hh sd d).symm
  | true =>
    show CipherInput.mk (xorBytes hdr hd ++ (xorBytes sd d).take off) ((xorBytes sd d).drop off) = _
    rw [xorBytes_take, xorBytes_drop, ← xorBytes_append hh]
    rfl

theorem secTag_length (p : CipherPlan) (es scb : Bool) (n : Nat) : (secTag p es scb n).length = secTagLen p.sc := by
  cases h : p.sc <;> simp [secTag, secTagLen, h]

/-! ### The fields (R138) -/

theorem putBytes_length {bs v : Bytes} {i : Nat} (h : i + v.length ≤ bs.length) : (putBytes bs i v).length = bs.length := by
  rw [putBytes, List.length_append, List.length_append, List.length_take, List.length_drop]
  omega

theorem putBytes_take {bs v : Bytes} {i n : Nat} (hn : n ≤ i) (hi : i ≤ bs.length) : (putBytes bs i v).take n = bs.take n := by
  have hlen : (bs.take i).length = i := List.length_take_of_le hi
  rw [putBytes, List.append_assoc, List.take_append_of_le_length (hlen.symm ▸ hn), List.take_take, Nat.min_eq_left hn]

/-- Fields at or beyond byte 12 keep the frame's length and its addresses. -/
theorem bindFields_keeps {fs : List LateField} {bs : Bytes} (h : ∀ l ∈ fs, 12 ≤ l.pos ∧ l.pos + l.value.length ≤ bs.length) :
    (bindFields fs bs).length = bs.length ∧ (bindFields fs bs).take 12 = bs.take 12 := by
  induction fs generalizing bs with
  | nil => exact ⟨rfl, rfl⟩
  | cons l fs ih =>
    obtain ⟨hpos, hin⟩ := h l List.mem_cons_self
    have hlen := putBytes_length hin
    obtain ⟨hl, ht⟩ := ih (bs := putBytes bs l.pos l.value) fun k hk => hlen ▸ h k (List.mem_cons_of_mem _ hk)
    exact ⟨hl.trans hlen, ht.trans (putBytes_take hpos (Nat.le_of_add_right_le hin))⟩

/-- The cipher input that R140 makes of a difference of frames: zero in the addresses and the SecTAG. -/
def deltaInput (p : CipherPlan) (off : Nat) (d : Bytes) : CipherInput :=
  cipherInput p.conf off (zeros 12 ++ zeros (secTagLen p.sc)) (d.drop 12)

theorem lateBoundFrame_eq (p : CipherPlan) (es scb : Bool) (off : Nat) (bs : Bytes) (fs : List LateField) :
    lateBoundFrame p es scb off bs fs =
      xorBytes (txInput p es scb off bs).aad (deltaInput p off (fieldDelta fs bs)).aad ++
        xorBytes (ctrCrypt (cipherOf p) (j0 p.iv) (txInput p es scb off bs).text) (deltaInput p off (fieldDelta fs bs)).text ++
        toBE 16 (planTag p (txInput p es scb off bs).aad (ctrCrypt (cipherOf p) (j0 p.iv) (txInput p es scb off bs).text) ^^^
          deltaSum p.h (blocks (deltaInput p off (fieldDelta fs bs)).aad ++
            blocks (deltaInput p off (fieldDelta fs bs)).text ++ [0])).toNat := rfl

section
variable (p : CipherPlan) (es scb : Bool) (off : Nat) {bs d : Bytes} (h12 : 12 ≤ bs.length)
include h12

theorem txHeader_length : (bs.take 12 ++ secTag p es scb (bs.length - 12)).length = (zeros 12 ++ zeros (secTagLen p.sc)).length := by
  simp [secTag_length, h12]

theorem deltaInput_lengths (hd : bs.length = d.length) :
    (txInput p es scb off bs).aad.length = (deltaInput p off d).aad.length ∧
      (txInput p es scb off bs).text.length = (deltaInput p off d).text.length :=
  cipherInput_lengths p.conf off (txHeader_length p es scb h12) (by rw [List.length_drop, List.length_drop, hd])

/-- The cipher input of the final frame is that of the placeholder frame, XORed with that of R140's difference. -/
theorem txInput_final {final : Bytes} (hlen : final.length = bs.length) (haddr : final.take 12 = bs.take 12) :
    txInput p es scb off final =
      ⟨xorBytes (txInput p es scb off bs).aad (deltaInput p off (xorBytes final bs)).aad,
        xorBytes (txInput p es scb off bs).text (deltaInput p off (xorBytes final bs)).text⟩ := by
  have hhdr := txHeader_length p es scb h12
  have hsame : xorBytes (bs.take 12 ++ secTag p es scb (bs.length - 12)) (zeros 12 ++ zeros (secTagLen p.sc)) =
      bs.take 12 ++ secTag p es scb (bs.length - 12) := by
    have hz : zeros 12 ++ zeros (secTagLen p.sc) = zeros (bs.take 12 ++ secTag p es scb (bs.length - 12)).length := by
      rw [hhdr, List.length_append, zeros_length, zeros_length]
      exact List.replicate_append_replicate
    rw [hz, xorBytes_zeros]
  have hsd : xorBytes (bs.drop 12) ((xorBytes final bs).drop 12) = final.drop 12 := by
    rw [← xorBytes_drop, xorBytes_delta hlen]
  rw [txInput, txInput, deltaInput, ← cipherInput_xorBytes _ _ hhdr, hsame, hsd, haddr, hlen]

end

/-- Settles O37: the counter-mode text and, by the linearity of GHASH, the tag move with the difference that the fields make. -/
theorem lateBindingYieldsTheFinalFrame : Obligations.LateBindingYieldsTheFinalFrame := by
  intro p es scb off bs fs h14 hfs
  obtain ⟨hlen, haddr⟩ := bindFields_keeps hfs
  have h12 : 12 ≤ bs.length := by omega
  have hdelta : bs.length = (fieldDelta fs bs).length := by rw [fieldDelta, xorBytes_length hlen, hlen]
  obtain ⟨haad, htext⟩ := deltaInput_lengths p es scb off h12 hdelta
  rw [protectedFrame, txInput_final p es scb off h12 hlen haddr, ← fieldDelta]
  dsimp only
  rw [ctrCrypt_xorBytes _ _ htext, planTag_xorBytes p haad (by rw [ctrCrypt_length]; exact htext), lateBoundFrame_eq]

end Sys2Proof.Machine

/-! PROOF. The receive verdict of the first frame that waits for it (R131 to R133, R161, Table 3.7). -/

namespace Sys2Proof.Machine

/-! ### Associations of a context -/

@[simp] theorem context_setContext_same (s : State) (c : Nat) (x : Context) : context (setContext s c x) c = x :=
  spGet_spSet_same ctxDefault s.contexts c x

theorem context_setContext_ne {s : State} {c d : Nat} (x : Context) (h : d ≠ c) : context (setContext s c x) d = context s d :=
  spGet_spSet_ne ctxDefault s.contexts c d x h

@[simp] theorem context_setDir (s : State) (p : Nat) (side : Side) (d : ShimDir) (c : Nat) :
    context (setDir s p side d) c = context s c := by
  simp [context]

@[simp] theorem dirOf_setContext (s : State) (p : Nat) (side : Side) (c : Nat) (x : Context) :
    dirOf (setContext s c x) p side = dirOf s p side := by
  cases side <;> rfl

@[simp] theorem assocOf_setAssoc_same (x : Context) (i : SlotId) (a : Assoc) : assocOf (setAssoc x i a) i = a := by
  cases i <;> rfl

@[simp] theorem setAssoc_watermark (x : Context) (i : SlotId) (a : Assoc) : (setAssoc x i a).watermark = x.watermark := by
  cases i <;> rfl

/-! ### The command judges the head -/

section
variable {p : Port} {plan : CipherPlan} {f : QFrame} {fs : List QFrame} {s : State} (hp : pathOn s = true)
  (hf : (dirOf s p.val .wi).frames = f :: fs) (hw : awaitsVerdict f = true) (hd : f.disp = .protect plan)
include hp hf hw hd

theorem exec_rxVerdict_complete (hc : f.complete = true) : exec (.rxVerdict p) s = .next
    (setDir (judge s p.val plan f).1 p.val .wi { dirOf (judge s p.val plan f).1 p.val .wi with frames := (judge s p.val plan f).2 :: fs }) := by
  simp [exec, execRxVerdict, hp, hf, judgeFirst, hw, hd, hc]

theorem exec_rxVerdict_incomplete (hc : f.complete = false) : exec (.rxVerdict p) s = .next
    (setDir s p.val .wi { dirOf s p.val .wi with frames := f :: fs }) := by
  simp [exec, execRxVerdict, hp, hf, judgeFirst, hw, hd, hc]

end

/-! ### One frame is judged (Table 3.7 rows 13 to 17) -/

section
variable {s : State} {p : Nat} {plan : CipherPlan} {f : QFrame}

/-- A frame dropped under row 13 or 15 changes nothing but itself. -/
theorem judge_dropped {row : Nat} (hr : row = 13 ∨ row = 15) (h : verdictRow (validateFrames s p) (tciC f.bytes)
    (icvGood plan (confOffset s p) f.bytes) (finalLate s p plan) (replayProtect s p) = row) :
    judge s p plan f = (s, endFrame [.context plan.ctx (rowWord row) 1] { f with verdict := true, row17 := false }) := by
  have hslot : verdictSlot s plan row = (s, []) := by rcases hr with rfl | rfl <;> simp [verdictSlot]
  have hgood : (row == 17) = false := by rcases hr with rfl | rfl <;> rfl
  simp only [judge, h, hslot, hgood, if_pos hr, List.append_nil]

/-- The association after a good frame with this number (R132). -/
def advanced (s : State) (plan : CipherPlan) : Context :=
  setAssoc (context s plan.owner) plan.slot { assocOf (context s plan.owner) plan.slot with nextPn := plan.pn + 1 }

theorem advancePn_ahead (hn : (assocOf (context s plan.owner) plan.slot).nextPn.toNat ≤ plan.pn.toNat)
    (hl : plan.pn.toNat < 2 ^ 64 - 1) : advancePn s plan = setContext s plan.owner (advanced s plan) := by
  have hlast : plan.pn ≠ BitVec.allOnes 64 := fun h => by rw [h, BitVec.toNat_allOnes] at hl; omega
  simp only [advancePn, if_neg (Nat.not_lt.2 hn), if_neg hlast, advanced]

theorem rxSwitch_notNext {c : Nat} {i : SlotId} (h : (assocOf (context s c) i).state ≠ .next) : rxSwitch s c i = (s, []) := by
  simp only [rxSwitch, if_neg h]

theorem rxWatermark_below (h : plan.pn.toNat < (context s plan.owner).watermark.toNat) : rxWatermark s plan = (s, []) := by
  simp [rxWatermark, Nat.not_le.2 h]

theorem verdictSlot_good (hk : plan.slotKept = true) (hs : (assocOf (context s plan.owner) plan.slot).state = .current)
    (hn : (assocOf (context s plan.owner) plan.slot).nextPn.toNat ≤ plan.pn.toNat) (hl : plan.pn.toNat < 2 ^ 64 - 1)
    (hw : plan.pn.toNat < (context s plan.owner).watermark.toNat) :
    verdictSlot s plan 17 = (setContext s plan.owner (advanced s plan), []) := by
  have hstate : (assocOf (context (setContext s plan.owner (advanced s plan)) plan.owner) plan.slot).state ≠ .next := by
    simp [advanced, hs]
  have hmark : plan.pn.toNat < (context (setContext s plan.owner (advanced s plan)) plan.owner).watermark.toNat := by
    simpa [advanced] using hw
  simp [verdictSlot, hk, advancePn_ahead hn hl, rxSwitch_notNext hstate, rxWatermark_below hmark]

/-- A frame under row 17 is delivered, with what its slot has become. -/
theorem judge_good {t : State} (h : verdictRow (validateFrames s p) (tciC f.bytes)
    (icvGood plan (confOffset s p) f.bytes) (finalLate s p plan) (replayProtect s p) = 17) (hslot : verdictSlot s plan 17 = (t, [])) :
    judge s p plan f = (t, { f with
      verdict := true, row17 := true, tallies := f.tallies ++ [.context plan.ctx 16 1, rxOctets plan.ctx plan.conf plan.sc f.bytes] }) := by
  simp [judge, h, hslot, rowWord]

end

/-- Settles O36: by the row of Table 3.7 that the ICV and the final replay check lead to. -/
theorem receivedFramesAreJudged : Obligations.ReceivedFramesAreJudged := by
  intro p plan f fs s hp hf hw hd
  refine ⟨fun hc hm hi => ?wrongIcv, fun hc hm hi => ⟨fun hl hr => ?late, fun hl hk hs hn hlast hmark => ?good⟩, fun hc => ?incomplete⟩
  case wrongIcv =>
    rw [exec_rxVerdict_complete hp hf hw hd hc, judge_dropped (.inl rfl) (by simp [verdictRow, hm, hi])]
    exact ⟨_, rfl, setDir_frame _ _ _ _, by rw [dirOf_setDir_same]; rfl⟩
  case late =>
    rw [exec_rxVerdict_complete hp hf hw hd hc, judge_dropped (.inr rfl) (by simp [verdictRow, hm, hi, hl, hr])]
    exact ⟨_, rfl, setDir_frame _ _ _ _, by rw [dirOf_setDir_same]; rfl⟩
  case good =>
    rw [exec_rxVerdict_complete hp hf hw hd hc,
      judge_good (by simp [verdictRow, hm, hi, hl]) (verdictSlot_good hk hs hn hlast hmark)]
    refine ⟨_, rfl, rfl, ?_, fun c hne => ?_, by rw [dirOf_setDir_same]⟩
    · rw [context_setDir, context_setContext_same, advanced]
    · rw [context_setDir, context_setContext_ne _ hne]
  case incomplete =>
    exact ⟨_, exec_rxVerdict_incomplete hp hf hw hd hc, by rw [dirOf_setDir_same], setDir_frame _ _ _ _⟩

end Sys2Proof.Machine

/-! PROOF. Port settings: a control word is taken while the port's rate is 0, and a disable ends the port's frames (R107, R109, R127,
Table 3.1). -/

namespace Sys2Proof.Machine

/-! ### The control word (R107) -/

/-- The rate bits of a word with its rate cleared are 0. -/
theorem field_setField_rate (x : W64) : field (setField x 2 0 0) 2 0 = 0 := by
  have hx : (setField x 2 0 0).toNat = x.toNat &&& (2 ^ 64 - 2 ^ 3) := by simp [setField]
  have hlow : (2 ^ 64 - 2 ^ 3) % 2 ^ 3 = 0 := by decide
  show (setField x 2 0 0).toNat / 1 % 2 ^ 3 = 0
  rw [hx, Nat.div_one, Nat.and_mod_two_pow, hlow, Nat.and_zero]

theorem writePortObj_control (p : Nat) (v : W64) (s : State) :
    writePortObj (0x2801 + p) 1 (wordBytes v) s = writePortControl p v s := by
  simp [writePortObj]

section
variable {s : State} {p : Nat} {v : W64}

theorem writePortControl_taken (hr : portRate s p = 0) (h : portControlBad s p v = none) :
    writePortControl p v s = (setReg s (0x2801 + p) 1 v, none) := by
  simp [writePortControl, hr, h, done]

theorem writePortControl_bad {c : W32} (hr : portRate s p = 0) (h : portControlBad s p v = some c) :
    writePortControl p v s = (s, some c) := by
  simp [writePortControl, hr, h, refuse]

theorem writePortControl_running (hr : portRate s p ≠ 0) (h : v ≠ setField (portControl s p) 2 0 0) :
    writePortControl p v s = (s, some errState) := by
  simp [writePortControl, hr, h, refuse]

theorem writePortControl_disables (hr : portRate s p ≠ 0) : writePortControl p (setField (portControl s p) 2 0 0) s =
    (setReg (disablePort s p) (0x2801 + p) 1 (setField (portControl s p) 2 0 0), none) := by
  simp [writePortControl, hr, done]

end

section
variable {sec : Bool} {priv : BitVec 2} {p : Port} {v : W64} {s t : State}
  (h : hostWrites sec priv (0x2801 + p.val) 1 (wordBytes v) s = true)
include h

theorem exec_portControlWrite_done (he : writePortControl p.val v s = (t, none)) :
    exec (.portControlWrite (.host sec priv) p v) s = .next (hostDone t) :=
  congrArg Host.Outcome.next (commandWrite_host_done h ((writePortObj_control p.val v s).trans he))

theorem exec_portControlWrite_refused {c : W32} (he : writePortControl p.val v s = (t, some c)) :
    exec (.portControlWrite (.host sec priv) p v) s = .next (hostRefused sec priv c t) :=
  congrArg Host.Outcome.next (commandWrite_host_refused h ((writePortObj_control p.val v s).trans he))

end

/-! ### A port is disabled (R109) -/

/-- A disable is the write of the control word with its rate cleared. -/
theorem exec_portDisable_eq (m : Master) (p : Port) (s : State) : exec (.portDisable m p) s =
    exec (.portControlWrite m p (setField (portControl s p.val) 2 0 0)) s := rfl

/-- A direction once its port is disabled. -/
def disabledDir (d : ShimDir) : ShimDir :=
  { d with frames := d.frames.map (fun f => if isBegun f then endFrame [] f else endFrame [.port 15] f)
           inp := none, skipping := false, stuck := false, readyLow := false }

theorem disableDir_eq (s : State) (p : Nat) (side : Side) : disableDir s p side = setDir s p side (disabledDir (dirOf s p side)) := rfl

theorem onlyPort_disablePort (s : State) (p : Nat) : OnlyPort p s (disablePort s p) :=
  (onlyPort_setDir s p .fi _).trans (onlyPort_setDir (disableDir s p .fi) p .wi _)

theorem dirOf_disablePort (s : State) (p : Nat) (side : Side) : dirOf (disablePort s p) p side = disabledDir (dirOf s p side) := by
  rw [disablePort, disableDir_eq _ _ .wi, disableDir_eq]
  cases side with
  | fi => rw [dirOf_setDir_other _ (by decide), dirOf_setDir_same]
  | wi => rw [dirOf_setDir_same, dirOf_setDir_other _ (by decide)]

theorem dirOf_setReg (s : State) (p : Nat) (side : Side) (i j : Nat) (v : W64) : dirOf (setReg s i j v) p side = dirOf s p side := by
  cases side <;> rfl

theorem portControl_setReg (s : State) (p : Nat) (v : W64) : portControl (setReg s (0x2801 + p) 1 v) p = v := reg_setReg_same _ _ _ _

/-- Settles O38: by the rate of the port, then by the checks of the word. -/
theorem portControlIsWrittenWhileStopped : Obligations.PortControlIsWrittenWhileStopped := by
  refine ⟨fun sec priv p v s hh => ⟨fun hr hb => exec_portControlWrite_done hh (writePortControl_taken hr hb),
      fun c hr hb => exec_portControlWrite_refused hh (writePortControl_bad hr hb),
      fun hr hv => exec_portControlWrite_refused hh (writePortControl_running hr hv), fun hbad => if_pos hbad⟩,
    fun sec priv p s hr hh => ?disable⟩
  case disable =>
    obtain ⟨hframe, hother⟩ := onlyPort_disablePort s p.val
    have hcontrol := portControl_setReg (disablePort s p.val) p.val (setField (portControl s p.val) 2 0 0)
    have hdir : ∀ side, dirOf (setReg (disablePort s p.val) (0x2801 + p.val) 1 (setField (portControl s p.val) 2 0 0)) p.val side =
        disabledDir (dirOf s p.val side) := fun side => (dirOf_setReg _ _ _ _ _ _).trans (dirOf_disablePort s p.val side)
    rw [exec_portDisable_eq]
    refine ⟨_, exec_portControlWrite_done hh (writePortControl_disables hr), hcontrol, ?_, fun side => ?_, hother, rfl⟩
    · exact (congrArg (field · 2 0) hcontrol).trans (field_setField_rate _)
    · exact ⟨congrArg ShimDir.inp (hdir side), congrArg ShimDir.frames (hdir side)⟩

end Sys2Proof.Machine

/-! PROOF. A context is put in service, and associations are installed and cleared, through the host's window (R149, R150,
R153 to R155, R215, Tables 4.2 and 4.7). -/

namespace Sys2Proof.Machine

/-! ### A field of a word is replaced -/

section
variable {w : Nat} (x : BitVec w) {h l : Nat} (n : Nat)

/-- The bits of the field come from the new value, the others from the word. -/
theorem getLsbD_setField (i : Nat) : (setField x h l n).getLsbD i =
    if l ≤ i ∧ i ≤ h then decide (i < w) && n.testBit (i - l) else x.getLsbD i := by
  have hin : l ≤ i → (i - l < h + 1 - l ↔ i ≤ h) := by omega
  have hlt : x.getLsbD i = true → i < w := BitVec.lt_of_getLsbD
  simp only [setField, BitVec.getLsbD_or, BitVec.getLsbD_and, BitVec.getLsbD_not, BitVec.getLsbD_ofNat,
    Nat.testBit_mul_two_pow, Nat.testBit_two_pow_sub_one, Nat.testBit_mod_two_pow]
  split_ifs with hi
  · obtain ⟨hl, hh⟩ := hi
    simp [hl, hh, hin hl]
  · by_cases hl : l ≤ i
    · have hh : ¬i ≤ h := fun hh => hi ⟨hl, hh⟩
      simpa [hl, hh, hin hl] using hlt
    · simpa [hl] using hlt

/-- The replaced field holds the low bits of the new value. -/
theorem field_setField (hw : h < w) : field (setField x h l n) h l = n % 2 ^ (h + 1 - l) := by
  refine Nat.eq_of_testBit_eq fun j => ?_
  simp only [field, Nat.testBit_mod_two_pow, Nat.testBit_div_two_pow, BitVec.testBit_toNat, getLsbD_setField]
  by_cases hj : j < h + 1 - l
  · simp [hj, show j + l ≤ h by omega, show j + l < w by omega]
  · simp [hj]

/-- Bits beside the replaced field keep their value. -/
theorem extractLsb'_setField_outside {start len : Nat} (ho : start + len ≤ l ∨ h < start) :
    (setField x h l n).extractLsb' start len = x.extractLsb' start len := by
  refine BitVec.eq_of_getLsbD_eq fun j hj => ?_
  simp only [BitVec.getLsbD_extractLsb', hj, decide_true, Bool.true_and, getLsbD_setField]
  exact if_neg (by omega)

end

/-! ### Slots of the key store -/

@[simp] theorem slotOf_setSlot_same (s : State) (k : W16) (x : KeySlot) : slotOf (setSlot s k x) k = x :=
  spGet_spSet_same slotDefault s.keys.slots k.toNat x

@[simp] theorem slotOf_setContext (s : State) (c : Nat) (x : Context) (k : W16) : slotOf (setContext s c x) k = slotOf s k := rfl

theorem bindKey_bindings {s : State} {k : W16} (h : bindSaturated s k = false) :
    (slotOf (bindKey s k) k).bindings = (slotOf s k).bindings + 1 := by
  have hroom : (slotOf s k).bindings < 32767 := by simpa [bindSaturated] using h
  simp [bindKey, satInc, hroom]

theorem bindKey_txu (s : State) (k : W16) : (slotOf (bindKey s k) k).txu = (slotOf s k).txu := by
  simp [bindKey]

theorem releaseKey_bindings {s : State} {k : W16} (h : refInRange k = true) :
    (slotOf (releaseKey s k) k).bindings = (slotOf s k).bindings - 1 := by
  simp [releaseKey, h]

/-! ### The host's window (R148) -/

section
variable {sec : Bool} {priv : BitVec 2} {sub : Nat} {v : W64} {s t : State}

theorem writeContextObj_host (sub : Nat) : writeContextObj (.host sec priv) 0x3001 sub (wordBytes v) s =
    writeContextWord (regN s 0x3000 1) (sub - 1) v s := by
  simp [writeContextObj, selectedContext, chanIdx]

theorem writeContextWord_slot (c : Nat) (i : SlotId) : writeContextWord c (slotSub i - 1) v s = writeSlotState c i v s := by
  cases i <;> rfl

theorem windowWrite_done (h : hostWrites sec priv 0x3001 sub (wordBytes v) s = true)
    (he : writeContextWord (regN s 0x3000 1) (sub - 1) v s = (t, none)) :
    .next (commandWrite (.host sec priv) 0x3001 sub (wordBytes v) (writeContextObj (.host sec priv) 0x3001 sub) s) =
      (.next (hostDone t) : Out) :=
  congrArg Host.Outcome.next (commandWrite_host_done h ((writeContextObj_host sub).trans he))

theorem windowWrite_refused {c : W32} (h : hostWrites sec priv 0x3001 sub (wordBytes v) s = true)
    (he : writeContextWord (regN s 0x3000 1) (sub - 1) v s = (t, some c)) :
    .next (commandWrite (.host sec priv) 0x3001 sub (wordBytes v) (writeContextObj (.host sec priv) 0x3001 sub) s) =
      (.next (hostRefused sec priv c t) : Out) :=
  congrArg Host.Outcome.next (commandWrite_host_refused h ((writeContextObj_host sub).trans he))

end

/-! ### The control word (R149) -/

section
variable {s : State} {c : Nat} {v : W64} (hoff : (context s c).enable = false) (hret : (context s c).retired = false)
include hoff hret

theorem writeControl_allowed (hok : enableOk s c (controlWrite (context s c) v) = true) (hcls : field v 8 7 < 2) :
    writeControl c v s = (setContext s c (controlWrite (context s c) v), none) := by
  have hclass : ¬2 ≤ (controlWrite (context s c) v).cls.toNat := by
    simpa [controlWrite, field, Nat.shiftRight_eq_div_pow] using hcls
  simp [writeControl, hoff, hret, hok, hclass, done]

theorem writeControl_notAllowed (hon : bit v 0 = true) (hno : enableOk s c (controlWrite (context s c) v) = false) :
    writeControl c v s = (s, some errState) := by
  have henable : (controlWrite (context s c) v).enable = true := hon
  simp [writeControl, hoff, hret, hno, henable, refuse]

end

/-! ### The state of a slot is written (R150, R153 to R155) -/

/-- An install changes the contexts, the key slots and their copy from the start of the cycle, nothing else. -/
theorem installSlot_frame (s : State) (c : Nat) (i : SlotId) (an : BitVec 2) (klen : Bool) (key : W16) :
    installSlot s c i an klen key =
      { s with contexts := (installSlot s c i an klen key).contexts
               keys := { s.keys with slots := (installSlot s c i an klen key).keys.slots
                                     before := (installSlot s c i an klen key).keys.before } } := by
  unfold installSlot
  dsimp only
  split <;> rfl

theorem context_installSlot (s : State) (c : Nat) (i : SlotId) (an : BitVec 2) (klen : Bool) (key : W16) :
    context (installSlot s c i an klen key) c = setAssoc (context s c) i
      { assocOf (context s c) i with an := an, klen := klen, key := key, state := .next } :=
  context_setContext_same _ _ _

/-- The key of an installed association is bound, and marked for transmission by a transmit context. -/
theorem slotOf_installSlot (s : State) (c : Nat) (i : SlotId) (an : BitVec 2) (klen : Bool) (key : W16) :
    slotOf (installSlot s c i an klen key) key =
      { slotOf (bindKey s key) key with txu := (slotOf s key).txu || !(context s c).rx } := by
  rw [← bindKey_txu, installSlot, slotOf_setContext]
  cases (context s c).rx <;> simp

/-- R215: an install is taken only while the key's bindings are below their limit. -/
theorem bindable_of_installOk {s : State} {x : Context} {i : SlotId} {an : BitVec 2} {key : W16}
    (h : installOk s x i an key = true) : bindSaturated s key = false := by
  simp only [installOk, Bool.and_eq_true] at h
  obtain ⟨-, hroom⟩ := h
  simpa using hroom

theorem context_forgetSlot (s : State) (c d : Nat) (i : SlotId) : context (forgetSlot s c i) d = context s d := rfl

theorem slotOf_forgetSlot (s : State) (c : Nat) (i : SlotId) (k : W16) : slotOf (forgetSlot s c i) k = slotOf s k := rfl

section
variable {s : State} {c : Nat} {i : SlotId}

theorem clearSlot_used (h : (assocOf (context s c) i).state ≠ .empty) : clearSlot s c i =
    forgetSlot (setContext (releaseKey s (assocOf (context s c) i).key) c (setAssoc (context s c) i Assoc.default)) c i := if_neg h

theorem context_clearSlot (h : (assocOf (context s c) i).state ≠ .empty) :
    context (clearSlot s c i) c = setAssoc (context s c) i Assoc.default := by
  rw [clearSlot_used h, context_forgetSlot, context_setContext_same]

theorem clearSlot_releases (h : (assocOf (context s c) i).state ≠ .empty) (hk : refInRange (assocOf (context s c) i).key = true) :
    (slotOf (clearSlot s c i) (assocOf (context s c) i).key).bindings = (slotOf s (assocOf (context s c) i).key).bindings - 1 := by
  rw [clearSlot_used h, slotOf_forgetSlot, slotOf_setContext, releaseKey_bindings hk]

end

section
variable {s : State} {c : Nat} {i : SlotId} {v : W64} (hret : (context s c).retired = false)
include hret

theorem writeContextWord_installs (he : (assocOf (context s c) i).state = .empty) (hk : refInRange (v.extractLsb' 16 16) = true)
    (hok : installOk s (context s c) i (v.extractLsb' 0 2) (v.extractLsb' 16 16) = true) :
    writeContextWord c (slotSub i - 1) (setField v 4 2 1) s =
      (installSlot s c i (v.extractLsb' 0 2) (bit v 5) (v.extractLsb' 16 16), none) := by
  have hklen : bit (setField v 4 2 1) 5 = bit v 5 := getLsbD_setField v 1 5
  simp [writeContextWord_slot, writeSlotState, field_setField, extractLsb'_setField_outside, hret, he, keyRefOk, hk, hok, hklen, done]

theorem writeContextWord_install_used (he : (assocOf (context s c) i).state ≠ .empty) :
    writeContextWord c (slotSub i - 1) (setField v 4 2 1) s = (s, some errState) := by
  simp [writeContextWord_slot, writeSlotState, field_setField, hret, he, refuse]

theorem writeContextWord_clears (he : (assocOf (context s c) i).state ≠ .empty)
    (hok : clearAllowed (context s c) (assocOf (context s c) i) = true) :
    writeContextWord c (slotSub i - 1) (setField v 4 2 0) s = (clearSlot s c i, none) := by
  simp [writeContextWord_slot, writeSlotState, field_setField, hret, he, hok, done]

theorem writeContextWord_clear_refused (he : (assocOf (context s c) i).state ≠ .empty)
    (hno : clearAllowed (context s c) (assocOf (context s c) i) = false) :
    writeContextWord c (slotSub i - 1) (setField v 4 2 0) s = (s, some errState) := by
  simp [writeContextWord_slot, writeSlotState, field_setField, hret, he, hno, refuse]

end

/-- Table 4.7: software does not clear the slot that an enabled transmit context numbers on. -/
theorem clearAllowed_numbering {x : Context} {a : Assoc} (ha : a.state = .current) (hrx : x.rx = false) (hen : x.enable = true) :
    clearAllowed x a = false := by
  simp [clearAllowed, ha, hrx, hen]

/-! ### The obligation -/

/-- Settles O39: each command is a write of one word of the selected record, and that word's checks decide it. -/
theorem contextsAndAssociationsAreSetUp : Obligations.ContextsAndAssociationsAreSetUp := by
  refine ⟨?enable, ?install, ?clear⟩
  case enable =>
    rintro sec priv v s _ _ hw rfl rfl hoff hon hret
    refine ⟨fun hok hcls => ⟨_, windowWrite_done hw (writeControl_allowed hoff hret hok hcls), rfl, ?_⟩,
      fun hno => windowWrite_refused hw (writeControl_notAllowed hoff hret hon hno)⟩
    exact (congrArg Context.enable (context_setContext_same s _ _)).trans hon
  case install =>
    rintro sec priv i v s _ _ _ hw rfl rfl rfl hret
    refine ⟨fun he hk hok => ?_, fun hne => windowWrite_refused hw (writeContextWord_install_used hret hne)⟩
    have hkey := slotOf_installSlot s (regN s 0x3000 1) i (v.extractLsb' 0 2) (bit v 5) (v.extractLsb' 16 16)
    have hbound := (congrArg KeySlot.bindings hkey).trans (bindKey_bindings (bindable_of_installOk hok))
    exact ⟨_, windowWrite_done hw (writeContextWord_installs hret he hk hok), context_installSlot .., hbound,
      congrArg KeySlot.txu hkey, congrArg hostDone (installSlot_frame ..)⟩
  case clear =>
    rintro sec priv i v s _ _ hw rfl rfl hret
    refine ⟨fun hne hok => ⟨_, windowWrite_done hw (writeContextWord_clears hret hne hok), context_clearSlot hne,
      clearSlot_releases hne⟩, fun hcur hrx hen => ?_⟩
    have hne : (assocOf (context s (regN s 0x3000 1)) i).state ≠ .empty := by simp [hcur]
    exact windowWrite_refused hw (writeContextWord_clear_refused hret hne (clearAllowed_numbering hcur hrx hen))

end Sys2Proof.Machine

/-! PROOF. The three tables as stores of entries: where a key is looked for, what holds an entry there, and what the operations
of each table leave (R183 to R187, R191, R196, R202). -/

namespace Sys2Proof.Machine

/-! ### Stores of entries -/

section
variable {α : Type} {m : Sparse α} {n : Nat} {v : α} {e : Nat × α}

theorem mem_of_spFind (h : spFind m n = some v) : (n, v) ∈ m := by
  induction m with
  | nil => simp [spFind] at h
  | cons e m ih =>
    obtain ⟨k, w⟩ := e
    rw [spFind] at h
    split at h
    · rename_i hk; cases h; subst hk; exact List.mem_cons_self
    · exact List.mem_cons_of_mem _ (ih h)

theorem spFind_eq_none_iff : spFind m n = none ↔ ∀ e ∈ m, e.1 ≠ n := by
  induction m with
  | nil => simp [spFind]
  | cons e m ih =>
    obtain ⟨k, w⟩ := e
    rw [spFind]
    split
    · rename_i hk; simp [hk]
    · rename_i hk; simp [ih, hk]

/-- A write of a number that is not listed adds one entry. -/
theorem length_spPut_new (h : spFind m n = none) : (spPut m n v).length = m.length + 1 := by
  induction m with
  | nil => rfl
  | cons e m ih =>
    obtain ⟨k, w⟩ := e
    have hk : n ≠ k := fun hk => spFind_eq_none_iff.1 h (k, w) List.mem_cons_self hk.symm
    have hm : spFind m n = none := spFind_eq_none_iff.2 fun e he => spFind_eq_none_iff.1 h e (List.mem_cons_of_mem _ he)
    rw [spPut, if_neg hk]
    split
    · rfl
    · rw [List.length_cons, ih hm, List.length_cons]

theorem mem_spPut_self (m : Sparse α) (n : Nat) (v : α) : (n, v) ∈ spPut m n v :=
  mem_of_spFind (spFind_spPut_same m n v)

theorem mem_spPut_of_mem (h : e ∈ m) (hn : e.1 ≠ n) : e ∈ spPut m n v := by
  induction m with
  | nil => cases h
  | cons x m ih =>
    obtain ⟨k, w⟩ := x
    rw [spPut]
    split
    · exact List.mem_cons_of_mem _ h
    · rcases List.mem_cons.1 h with rfl | h
      · rw [if_neg (Ne.symm hn)]; exact List.mem_cons_self
      · split
        · exact List.mem_cons_of_mem _ h
        · exact List.mem_cons_of_mem _ (ih h)

theorem ne_of_mem_spDel (h : e ∈ spDel m n) : e.1 ≠ n := spFind_eq_none_iff.1 (spFind_spDel_same m n) e h

theorem exists_spFind_of_mem (h : e ∈ m) : ∃ v, spFind m e.1 = some v :=
  Option.ne_none_iff_exists'.1 fun hn => spFind_eq_none_iff.1 hn e h rfl

end

/-- The only element that a search accepts is the one it finds. -/
theorem find?_eq_some_of_only {α : Type} {l : List α} {p : α → Bool} {a : α} (ha : a ∈ l) (hp : p a = true)
    (hu : ∀ b ∈ l, p b = true → b = a) : l.find? p = some a := by
  obtain ⟨b, hb⟩ := Option.isSome_iff_exists.1 (List.find?_isSome.2 ⟨a, ha, hp⟩)
  rw [hb, hu b (List.mem_of_find?_eq_some hb) (List.find?_some hb)]

/-! ### Candidates and entries of a table -/

/-- The places of a table that a lookup of a key reads, without the stash. -/
def candidates (s : State) (tb : TableSel) (key : Bytes) : List Nat :=
  match tb with
  | .stream => (List.range 4).map (fun w => streamUnit w key)
  | .station => stationWays s key
  | .pfx => ((descOfKey s key).map (fun n => prefixPlaces (descriptor s n) key)).getD []

/-- Key and result at a place of a table. -/
def entryAt (s : State) (tb : TableSel) (u : Nat) : Option Entry :=
  match tb with
  | .stream => streamAt s u
  | .station => (stationAt s u).map (fun e => ⟨e.key, e.result⟩)
  | .pfx => spFind s.cls.pfxEntries u

/-- A place holds the entry of a key. -/
def holdsKey (s : State) (tb : TableSel) (key : Bytes) (u : Nat) : Bool :=
  match entryAt s tb u with
  | some e => e.key == key
  | none => false

/-- The stash entry of a Stream key. -/
def stashPlace (s : State) (tb : TableSel) (key : Bytes) : Option Nat :=
  match tb with
  | .stream => (s.cls.stash.find? (fun e => e.2.key == key)).map (fun e => stashBase + e.1)
  | .station | .pfx => none

section
variable {s t : State} {tb : TableSel} {key : Bytes} {u : Nat} {e : Entry} {r : W32}

theorem holdsKey_eq_true_iff : holdsKey s tb key u = true ↔ ∃ e, entryAt s tb u = some e ∧ e.key = key := by
  unfold holdsKey; cases entryAt s tb u <;> simp

theorem resultAt_eq_entryAt (s : State) (tb : TableSel) (u : Nat) : resultAt s tb u = ((entryAt s tb u).map Entry.result).getD 0 := by
  cases tb with
  | stream | pfx => rfl
  | station => simp only [resultAt, entryAt]; cases stationAt s u <;> rfl

theorem resultAt_of_entryAt (h : entryAt s tb u = some e) : resultAt s tb u = e.result := by
  rw [resultAt_eq_entryAt, h]; rfl

/-- A lookup reads the candidates in order, and the stash last (R185). -/
theorem findEntry_eq (s : State) (tb : TableSel) (key : Bytes) :
    findEntry s tb key = ((candidates s tb key).find? (holdsKey s tb key)).or (stashPlace s tb key) := by
  cases tb with
  | stream =>
    have h : findStream s key = match (candidates s .stream key).find? (holdsKey s .stream key) with
        | some u => some u
        | none => stashPlace s .stream key := rfl
    rw [findEntry, h]
    cases (candidates s .stream key).find? (holdsKey s .stream key) <;> rfl
  | station =>
    have h : holdsKey s .station key = fun u => match stationAt s u with | some e => e.key == key | none => false := by
      funext u; simp only [holdsKey, entryAt]; cases stationAt s u <;> rfl
    rw [stashPlace, Option.or_none, h]; rfl
  | pfx =>
    rw [stashPlace, Option.or_none, findEntry, candidates]
    cases descOfKey s key <;> rfl

theorem findEntry_ne_none_iff : findEntry s tb key ≠ none ↔
    (∃ u ∈ candidates s tb key, holdsKey s tb key u = true) ∨ tb = .stream ∧ ∃ e ∈ s.cls.stash, e.2.key = key := by
  have hstash : stashPlace s tb key ≠ none ↔ tb = .stream ∧ ∃ e ∈ s.cls.stash, e.2.key = key := by
    cases tb <;> simp [stashPlace]
  rw [findEntry_eq, Ne, Option.or_eq_none_iff, not_and_or, ← Ne, ← Ne, hstash]
  simp

theorem findEntry_of_only (hu : u ∈ candidates s tb key) (hk : holdsKey s tb key u = true)
    (honly : ∀ v, holdsKey s tb key v = true → v = u) : findEntry s tb key = some u := by
  rw [findEntry_eq, find?_eq_some_of_only hu hk fun v _ hv => honly v hv, Option.some_or]

theorem streamUnit_lt {w : Nat} (h : w < 4) (key : Bytes) : streamUnit w key < stashBase := by
  have hf : ∀ x : W32, field x 31 18 < 2 ^ 14 := fun x => Nat.mod_lt _ (by decide)
  refine (Nat.add_lt_add_left (hf _) (w * 16384)).trans_le ?_
  simp only [stashBase]
  omega

theorem mem_candidates_stream : u ∈ candidates s .stream key ↔ ∃ w, w < 4 ∧ streamUnit w key = u := by simp [candidates]

theorem streamAt_bucket (h : u < stashBase) : streamAt s u = spFind s.cls.stream u := if_pos h

theorem streamAt_stash (s : State) (j : Nat) : streamAt s (stashBase + j) = spFind s.cls.stash j := by
  rw [streamAt, if_neg (by omega), Nat.add_sub_cancel_left]

/-- A key is found at a candidate that holds it, or in the stash. -/
theorem findEntry_eq_some (h : findEntry s tb key = some u) : u ∈ candidates s tb key ∧ holdsKey s tb key u = true ∨
    tb = .stream ∧ ∃ x ∈ s.cls.stash, x.2.key = key ∧ stashBase + x.1 = u := by
  rw [findEntry_eq, Option.or_eq_some_iff] at h
  rcases h with h | ⟨-, h⟩
  · exact .inl ⟨List.mem_of_find?_eq_some h, List.find?_some h⟩
  · cases tb with
    | stream =>
      obtain ⟨x, hx, hu⟩ := Option.map_eq_some_iff.1 h
      exact .inr ⟨rfl, x, List.mem_of_find?_eq_some hx, by simpa using List.find?_some hx, hu⟩
    | station | pfx => cases h

/-- Where a lookup finds a key an entry lies. -/
theorem entryAt_of_findEntry (h : findEntry s tb key = some u) : ∃ e, entryAt s tb u = some e := by
  rcases findEntry_eq_some h with ⟨-, hk⟩ | ⟨rfl, x, hx, -, rfl⟩
  · obtain ⟨e, he, -⟩ := holdsKey_eq_true_iff.1 hk
    exact ⟨e, he⟩
  · rw [entryAt, streamAt_stash]
    exact exists_spFind_of_mem hx

/-- Outside the Stream Table the entry that is found is the key's own. -/
theorem entryAt_key_of_findEntry (h : findEntry s tb key = some u) (ht : tb ≠ .stream) :
    ∃ e, entryAt s tb u = some e ∧ e.key = key := by
  rcases findEntry_eq_some h with ⟨-, hk⟩ | ⟨hs, -⟩
  · exact holdsKey_eq_true_iff.1 hk
  · exact absurd hs ht

/-- The key of an entry is listed. -/
theorem key_mem_of_entryAt (h : entryAt s tb u = some e) : e.key ∈ tableKeys s tb := by
  cases tb with
  | stream =>
    rw [entryAt, streamAt] at h
    rw [tableKeys, List.map_append, List.mem_append]
    split at h
    · exact .inl (List.mem_map.2 ⟨_, mem_of_spFind h, rfl⟩)
    · exact .inr (List.mem_map.2 ⟨_, mem_of_spFind h, rfl⟩)
  | station =>
    obtain ⟨x, hx, rfl⟩ := Option.map_eq_some_iff.1 h
    exact List.mem_map.2 ⟨_, mem_of_spFind hx, rfl⟩
  | pfx => exact List.mem_map.2 ⟨_, mem_of_spFind h, rfl⟩

theorem holdsKey_unlisted (h : key ∉ tableKeys s tb) (u : Nat) : holdsKey s tb key u = false := by
  refine Bool.eq_false_iff.2 fun hk => ?_
  obtain ⟨e, he, rfl⟩ := holdsKey_eq_true_iff.1 hk
  exact h (key_mem_of_entryAt he)

theorem findEntry_unlisted (h : key ∉ tableKeys s tb) : findEntry s tb key = none := by
  by_contra hne
  rcases findEntry_ne_none_iff.1 hne with ⟨u, -, hk⟩ | ⟨rfl, e, he, rfl⟩
  · rw [holdsKey_unlisted h] at hk; cases hk
  · exact h (List.mem_map.2 ⟨e, List.mem_append_right _ he, rfl⟩)

end

/-! ### Operations that leave the tables -/

/-- The entries of the tables, and the settings that place them, are the same. -/
structure SameTables (s t : State) : Prop where
  regs : t.regs = s.regs
  stream : t.cls.stream = s.cls.stream
  stash : t.cls.stash = s.cls.stash
  station : t.cls.station = s.cls.station
  pfx : t.cls.pfxEntries = s.cls.pfxEntries

section
variable {s t : State} (h : SameTables s t)
include h

theorem SameTables.candidates (tb : TableSel) (key : Bytes) : candidates t tb key = candidates s tb key := by
  cases tb <;> simp only [Machine.candidates, stationWays, stationSet, descOfKey, descriptor, reg, h.regs]

theorem SameTables.streamAt (u : Nat) : streamAt t u = streamAt s u := by
  simp only [Machine.streamAt, h.stream, h.stash]

theorem SameTables.entryAt (tb : TableSel) (u : Nat) : entryAt t tb u = entryAt s tb u := by
  cases tb <;> simp only [Machine.entryAt, h.streamAt, stationAt, h.station, h.pfx]

theorem SameTables.findEntry (tb : TableSel) (key : Bytes) : findEntry t tb key = findEntry s tb key := by
  have hk : holdsKey t tb key = holdsKey s tb key := by funext u; simp only [holdsKey, h.entryAt]
  have hs : stashPlace t tb key = stashPlace s tb key := by cases tb <;> simp only [stashPlace, h.stash]
  rw [findEntry_eq, findEntry_eq, h.candidates, hk, hs]

theorem SameTables.resultAt (tb : TableSel) (u : Nat) : resultAt t tb u = resultAt s tb u := by
  rw [resultAt_eq_entryAt, resultAt_eq_entryAt, h.entryAt]

theorem SameTables.tableKeys (tb : TableSel) : tableKeys t tb = tableKeys s tb := by
  cases tb <;> simp only [Machine.tableKeys, h.stream, h.stash, h.station, h.pfx]

end

theorem SameTables.trans {s t u : State} (h : SameTables s t) (g : SameTables t u) : SameTables s u :=
  ⟨g.regs.trans h.regs, g.stream.trans h.stream, g.stash.trans h.stash, g.station.trans h.station, g.pfx.trans h.pfx⟩

theorem sameTables_noteStash (s : State) : SameTables s (noteStash s) := by
  unfold noteStash
  dsimp only
  (repeat' split) <;> constructor <;> simp

theorem sameTables_noteChange (s : State) (tb : TableSel) : SameTables s (noteChange s tb) := by
  unfold noteChange; split <;> exact ⟨rfl, rfl, rfl, rfl, rfl⟩

/-! ### What an operation on a table may change -/

/-- Nothing has changed but the tables, what goes with them, and the events. -/
def TablesOnly (s t : State) : Prop :=
  t = { s with events := t.events, cls := { s.cls with
    stream := t.cls.stream, streamVer := t.cls.streamVer, stash := t.cls.stash, stashVer := t.cls.stashVer
    bumped := t.cls.bumped, stashHigh := t.cls.stashHigh, station := t.cls.station, pfxEntries := t.cls.pfxEntries
    filters := t.cls.filters, shadowStatus := t.cls.shadowStatus } }

theorem TablesOnly.refl (s : State) : TablesOnly s s := rfl

theorem TablesOnly.trans {s t u : State} (h : TablesOnly s t) (g : TablesOnly t u) : TablesOnly s u := by
  unfold TablesOnly at *
  rw [g, h]

theorem TablesOnly.hostRegs {s t : State} (h : TablesOnly s t) : t.cls.hostRegs = s.cls.hostRegs := by
  unfold TablesOnly at h; rw [h]

theorem tablesOnly_putStream (s : State) (u : Nat) (e : Entry) : TablesOnly s (putStream s u e) := by
  unfold putStream; split <;> rfl

theorem tablesOnly_noteBump (s : State) (u : Nat) : TablesOnly s (noteBump s u) := by
  unfold noteBump; split <;> rfl

theorem tablesOnly_bumpClear (s : State) (u : Nat) : TablesOnly s (bumpClear s u) := by
  refine (tablesOnly_noteBump s u).trans ?_
  unfold bumpClear
  dsimp only
  split <;> rfl

theorem tablesOnly_raise (s : State) (src d : Nat) : TablesOnly s (raise s src d) := by
  unfold TablesOnly
  simp only [raise_cls]
  exact raise_frame s src d

theorem tablesOnly_noteStash (s : State) : TablesOnly s (noteStash s) := by
  unfold noteStash
  dsimp only
  split
  · exact TablesOnly.trans (t := setCls s { s.cls with stashHigh := true }) rfl (tablesOnly_raise _ _ _)
  · split <;> rfl

theorem tablesOnly_noteChange (s : State) (tb : TableSel) : TablesOnly s (noteChange s tb) := by
  unfold noteChange; split <;> rfl

theorem tablesOnly_relocate (s : State) (p : List Nat) : TablesOnly s (relocate s p) := by
  induction s, p using relocate.induct with
  | case1 s d b rest e he ih =>
    rw [relocate, he]
    exact ((tablesOnly_putStream s d e).trans (tablesOnly_bumpClear _ b)).trans ih
  | case2 s d b rest hn ih => rw [relocate, hn]; exact ih
  | case3 p s hp =>
    rw [relocate]
    · exact .refl s
    · exact hp

theorem tablesOnly_drainStash (s : State) (u : Nat) : TablesOnly s (drainStash s u) := by
  unfold drainStash
  split
  · exact ((tablesOnly_putStream _ _ _).trans (tablesOnly_bumpClear _ _)).trans (tablesOnly_noteStash _)
  · exact .refl s

theorem tablesOnly_deleteStream (s : State) (u : Nat) : TablesOnly s (deleteStream s u) := by
  refine (tablesOnly_bumpClear s u).trans ?_
  unfold deleteStream
  dsimp only
  split
  · exact tablesOnly_drainStash _ _
  · exact tablesOnly_noteStash _

theorem tablesOnly_deleteEntry (s : State) (tb : TableSel) (key : Bytes) (u : Nat) : TablesOnly s (deleteEntry s tb key u) := by
  cases tb with
  | stream => exact tablesOnly_deleteStream s u
  | station => rfl
  | pfx =>
    rw [deleteEntry]
    split
    · unfold deletePrefix; dsimp only; split <;> rfl
    · rfl

/-! ### Single writes -/

section
variable {s : State} {u v : Nat} {e : Entry}

@[simp] theorem streamAt_putStream_same (s : State) (u : Nat) (e : Entry) : streamAt (putStream s u e) u = some e := by
  unfold streamAt putStream
  split <;> simp

theorem streamAt_putStream_ne (h : v ≠ u) : streamAt (putStream s u e) v = streamAt s v := by
  unfold streamAt putStream
  split
  · split
    · exact spFind_spPut_ne _ _ _ _ h
    · rfl
  · split
    · rfl
    · exact spFind_spPut_ne _ _ _ _ (by omega)

theorem bumpClear_bucket (h : u < stashBase) : bumpClear s u = setCls s { s.cls with
    bumped := (noteBump s u).cls.bumped, stream := spDel s.cls.stream u
    streamVer := spSet byteZero s.cls.streamVer u (spGet byteZero s.cls.streamVer u + 1) } := by
  simp only [bumpClear, if_pos h, noteBump]
  cases streamAt s u <;> rfl

theorem bumpClear_stash (s : State) (j : Nat) : bumpClear s (stashBase + j) = setCls s { s.cls with
    bumped := (noteBump s (stashBase + j)).cls.bumped, stash := spDel s.cls.stash j
    stashVer := spSet byteZero s.cls.stashVer j (spGet byteZero s.cls.stashVer j + 1) } := by
  simp only [bumpClear, if_neg (Nat.not_lt.2 (Nat.le_add_right stashBase j)), Nat.add_sub_cancel_left, noteBump]
  cases streamAt s (stashBase + j) <;> rfl

theorem streamAt_bumpClear_same (h : u < stashBase) : streamAt (bumpClear s u) u = none := by
  rw [bumpClear_bucket h, streamAt_bucket h]; exact spFind_spDel_same _ _

theorem streamAt_bumpClear_ne (hu : u < stashBase) (h : v ≠ u) : streamAt (bumpClear s u) v = streamAt s v := by
  rw [bumpClear_bucket hu]
  unfold streamAt
  split
  · exact spFind_spDel_ne _ _ _ h
  · rfl

theorem stash_putStream (h : u < stashBase) : (putStream s u e).cls.stash = s.cls.stash := by
  rw [putStream, if_pos h]; rfl

theorem stash_bumpClear (h : u < stashBase) : (bumpClear s u).cls.stash = s.cls.stash := by rw [bumpClear_bucket h]; rfl

end

end Sys2Proof.Machine

/-! PROOF. Inserts: an entry takes a free place of its key, in the Stream Table after moves or in the stash where need be, and no
other key is lost (R186, R187, R191, R193, R197). -/

namespace Sys2Proof.Machine

/-! ### A new entry at a free candidate place -/

/-- From one state to the other an entry has come to a place where none lay; the tables are as they were beside it. -/
structure PutAt (s t : State) (tb : TableSel) (e : Entry) (u : Nat) : Prop where
  free : entryAt s tb u = none
  put : entryAt t tb u = some e
  other : ∀ v, v ≠ u → entryAt t tb v = entryAt s tb v
  candidates : ∀ k, candidates t tb k = candidates s tb k

/-- The key of an entry is found where the entry was put, and every key that was found still is. -/
def Inserted (s t : State) (tb : TableSel) (e : Entry) (u : Nat) : Prop :=
  findEntry t tb e.key = some u ∧ resultAt t tb u = e.result ∧ ∀ k, findEntry s tb k ≠ none → findEntry t tb k ≠ none

section
variable {s t : State} {tb : TableSel} {e : Entry} {u : Nat} (h : PutAt s t tb e u)
include h

theorem PutAt.holds {k : Bytes} {v : Nat} (hv : holdsKey s tb k v = true) : holdsKey t tb k v = true := by
  have hne : v ≠ u := by rintro rfl; rw [holdsKey, h.free] at hv; cases hv
  rw [holdsKey, h.other v hne]; exact hv

theorem PutAt.only {v : Nat} (hkey : ∀ v, holdsKey s tb e.key v = false) (hv : holdsKey t tb e.key v = true) : v = u := by
  by_contra hne
  rw [holdsKey, h.other v hne] at hv
  exact Bool.false_ne_true ((hkey v).symm.trans hv)

theorem PutAt.keeps (hstash : tb = .stream → ∀ x ∈ s.cls.stash, x ∈ t.cls.stash) {k : Bytes} (hk : findEntry s tb k ≠ none) :
    findEntry t tb k ≠ none := by
  rw [findEntry_ne_none_iff] at hk ⊢
  rcases hk with ⟨v, hc, hv⟩ | ⟨htb, x, hx, hkx⟩
  · exact .inl ⟨v, by rwa [h.candidates], h.holds hv⟩
  · exact .inr ⟨htb, x, hstash htb x hx, hkx⟩

theorem PutAt.inserted (hc : u ∈ Machine.candidates s tb e.key) (hkey : ∀ v, holdsKey s tb e.key v = false)
    (hstash : tb = .stream → ∀ x ∈ s.cls.stash, x ∈ t.cls.stash) : Inserted s t tb e u :=
  ⟨findEntry_of_only (by rwa [h.candidates]) (holdsKey_eq_true_iff.2 ⟨e, h.put, rfl⟩) fun _ hv => h.only hkey hv,
    resultAt_of_entryAt h.put, fun _ hk => h.keeps hstash hk⟩

end

theorem Inserted.same {s t t' : State} {tb : TableSel} {e : Entry} {u : Nat} (h : Inserted s t tb e u) (g : SameTables t t') :
    Inserted s t' tb e u := by
  obtain ⟨hfind, hresult, hkeep⟩ := h
  exact ⟨(g.findEntry _ _).trans hfind, (g.resultAt _ _).trans hresult, fun k hk => by rw [g.findEntry]; exact hkeep k hk⟩

/-! ### Moves within the Stream Table (R186, R187) -/

section
variable {s : State} {key : Bytes}

/-- A path of the search for a key: from a candidate of the key (its last element) each further place is one that the entry
of the place before could move to. -/
inductive SearchPath (s : State) (key : Bytes) : List Nat → Prop
  | start {w : Nat} (hw : w < 4) : SearchPath s key [streamUnit w key]
  | move {b w : Nat} {rest : List Nat} {e : Entry} (hp : SearchPath s key (b :: rest)) (he : streamAt s b = some e) (hw : w < 4)
      (hnew : streamUnit w e.key ∉ b :: rest) : SearchPath s key (streamUnit w e.key :: b :: rest)

theorem SearchPath.lt {p : List Nat} (h : SearchPath s key p) : ∀ u ∈ p, u < stashBase := by
  induction h with
  | start hw => exact fun u hu => List.mem_singleton.1 hu ▸ streamUnit_lt hw _
  | move _ _ hw _ ih => exact List.forall_mem_cons.2 ⟨streamUnit_lt hw _, ih⟩

theorem SearchPath.nodup {p : List Nat} (h : SearchPath s key p) : p.Nodup := by
  induction h with
  | start => exact List.nodup_singleton _
  | move _ _ _ hnew ih => exact List.nodup_cons.2 ⟨hnew, ih⟩

theorem SearchPath.last {p : List Nat} (h : SearchPath s key p) : p.getLast?.getD 0 ∈ candidates s .stream key := by
  induction h with
  | start hw => exact mem_candidates_stream.2 ⟨_, hw, rfl⟩
  | move _ _ _ _ ih => simpa using ih

/-- A path depends on the entries of all its places but the first. -/
theorem SearchPath.congr {s' : State} {p : List Nat} (h : SearchPath s key p) (hs : ∀ u ∈ p.tail, streamAt s' u = streamAt s u) :
    SearchPath s' key p := by
  induction h with
  | start hw => exact .start hw
  | move _ he hw hnew ih =>
    exact .move (ih fun u hu => hs u (List.mem_of_mem_tail hu)) ((hs _ List.mem_cons_self).trans he) hw hnew

theorem searchPath_of_moveTargets {p : List Nat} {c : Nat} (hp : SearchPath s key p) (hc : c ∈ moveTargets s p) :
    SearchPath s key (c :: p) := by
  cases p with
  | nil => cases hc
  | cons b rest =>
    rw [moveTargets] at hc
    split at hc
    · cases hc
    · rename_i e he
      simp only [List.mem_filter, List.mem_map, List.mem_range, Bool.and_eq_true, Bool.not_eq_true', List.contains_eq_mem,
        decide_eq_false_iff_not] at hc
      obtain ⟨⟨w, ⟨hw, -⟩, rfl⟩, hnew, -⟩ := hc
      exact .move hp he hw hnew

/-- What the search finds is a path to a free bucket. -/
theorem searchStream_path {n : Nat} {paths : List (List Nat)} {p : List Nat} (hall : ∀ p ∈ paths, SearchPath s key p)
    (h : searchStream s n paths = some p) : SearchPath s key p ∧ ∃ c rest, p = c :: rest ∧ streamAt s c = none := by
  induction n generalizing paths with
  | zero => cases h
  | succ n ih =>
    have hnext : ∀ p ∈ (searchLevel s paths).2, SearchPath s key p := by
      intro p hp
      obtain ⟨q, hq, hp⟩ := List.mem_flatMap.1 hp
      obtain ⟨c, hc, rfl⟩ := List.mem_map.1 hp
      exact searchPath_of_moveTargets (hall q hq) hc
    rw [searchStream] at h
    split at h
    · rename_i q next hq
      cases h
      have hfound : (searchLevel s paths).2.find? (fun p => match p with | c :: _ => (streamAt s c).isNone | [] => false) = some p :=
        congrArg Prod.fst hq
      refine ⟨hnext p (List.mem_of_find?_eq_some hfound), ?_⟩
      have hfree := List.find?_some hfound
      cases p with
      | nil => cases hfree
      | cons c rest => exact ⟨c, rest, rfl, Option.isNone_iff_eq_none.1 hfree⟩
    · rename_i next hq
      exact ih (by rw [hq] at hnext; exact hnext) h

/-- Stream entries have moved: every key is still found, no entry is new, and the stash is the same. -/
structure Moved (s t : State) : Prop where
  keeps : ∀ k, findEntry s .stream k ≠ none → findEntry t .stream k ≠ none
  source : ∀ u e, streamAt t u = some e → ∃ v, streamAt s v = some e
  stash : t.cls.stash = s.cls.stash

theorem Moved.trans {s t u : State} (h : Moved s t) (g : Moved t u) : Moved s u where
  keeps k hk := g.keeps k (h.keeps k hk)
  source v e he := by
    obtain ⟨w, hw⟩ := g.source v e he
    exact h.source w e hw
  stash := g.stash.trans h.stash

/-- The entry of bucket `b` moves to the free bucket `d`. -/
def moved (s : State) (d b : Nat) (e : Entry) : State := bumpClear (putStream s d e) b

theorem streamAt_moved {d b : Nat} (hb : b < stashBase) (e : Entry) (v : Nat) :
    streamAt (moved s d b e) v = if v = b then none else if v = d then some e else streamAt s v := by
  unfold moved
  rcases eq_or_ne v b with rfl | hvb
  · rw [if_pos rfl, streamAt_bumpClear_same hb]
  · rw [if_neg hvb, streamAt_bumpClear_ne hb hvb]
    rcases eq_or_ne v d with rfl | hvd
    · rw [if_pos rfl, streamAt_putStream_same]
    · rw [if_neg hvd, streamAt_putStream_ne hvd]

theorem moved_moved {d b w : Nat} {e : Entry} (hd : d = streamUnit w e.key) (hw : w < 4) (hb : b < stashBase) (hne : d ≠ b)
    (hfree : streamAt s d = none) (he : streamAt s b = some e) : Moved s (moved s d b e) where
  keeps k hk := by
    have hstash : (moved s d b e).cls.stash = s.cls.stash := by
      rw [moved, stash_bumpClear hb, stash_putStream (hd ▸ streamUnit_lt hw _)]
    rw [findEntry_ne_none_iff] at hk ⊢
    rcases hk with ⟨v, hc, hv⟩ | hk
    · obtain ⟨x, hx, rfl⟩ := holdsKey_eq_true_iff.1 hv
      refine .inl ?_
      rcases eq_or_ne v b with rfl | hvb
      · have hxe : x = e := Option.some.inj (hx.symm.trans he)
        subst hxe
        refine ⟨d, mem_candidates_stream.2 ⟨w, hw, hd.symm⟩, holdsKey_eq_true_iff.2 ⟨x, ?_, rfl⟩⟩
        rw [entryAt, streamAt_moved hb, if_neg hne, if_pos rfl]
      · have hvd : v ≠ d := by rintro rfl; exact absurd (hx.symm.trans hfree) (by simp)
        refine ⟨v, hc, holdsKey_eq_true_iff.2 ⟨x, ?_, rfl⟩⟩
        rw [entryAt, streamAt_moved hb, if_neg hvb, if_neg hvd]; exact hx
    · exact .inr (hstash.symm ▸ hk)
  source u x hx := by
    rw [streamAt_moved hb] at hx
    split at hx
    · cases hx
    · split at hx
      · exact ⟨b, he.trans hx⟩
      · exact ⟨u, hx⟩
  stash := by rw [moved, stash_bumpClear hb, stash_putStream (hd ▸ streamUnit_lt hw _)]

/-- Moving the entries along a path to a free bucket frees the candidate that the path began with. -/
theorem relocate_frees {p : List Nat} {d : Nat} (h : SearchPath s key (d :: p)) (hfree : streamAt s d = none) :
    Moved s (relocate s (d :: p)) ∧ streamAt (relocate s (d :: p)) ((d :: p).getLast?.getD 0) = none := by
  induction p generalizing s d with
  | nil => exact ⟨⟨fun _ hk => hk, fun u _ he => ⟨u, he⟩, rfl⟩, hfree⟩
  | cons b rest ih =>
    have hlt := h.lt
    have hnodup := h.nodup
    cases h with
    | move hp he hw hnew =>
      rename_i w e
      have hb : b < stashBase := hlt b (by simp)
      have hdb : streamUnit w e.key ≠ b := fun heq => hnew (heq ▸ List.mem_cons_self)
      have hstep := moved_moved rfl hw hb hdb hfree he
      have hpath : SearchPath (moved s (streamUnit w e.key) b e) key (b :: rest) := by
        refine hp.congr fun u hu => ?_
        rw [List.tail_cons] at hu
        have hub : u ≠ b := by rintro rfl; exact (List.nodup_cons.1 (List.nodup_cons.1 hnodup).2).1 hu
        have hud : u ≠ streamUnit w e.key := by rintro rfl; exact hnew (List.mem_cons_of_mem _ hu)
        rw [streamAt_moved hb, if_neg hub, if_neg hud]
      obtain ⟨hmoved, hlast⟩ := ih hpath (by rw [streamAt_moved hb, if_pos rfl])
      have heq : relocate s (streamUnit w e.key :: b :: rest) = relocate (moved s (streamUnit w e.key) b e) (b :: rest) := by
        rw [relocate, he]; rfl
      rw [heq]
      exact ⟨hstep.trans hmoved, by simpa using hlast⟩

end

/-! ### Insert into each table -/

/-- How an insert of an unlisted key ends: with the table as it was and code 4 or 7, or with the entry in its place and code 0
or 1. -/
structure InsertEnds (s : State) (tb : TableSel) (e : Entry) (q : State × TableResult) : Prop where
  frame : TablesOnly s q.1
  ends : (q.2.code = 4 ∨ q.2.code = 7 ∧ tb ≠ .stream) ∧ q.1 = s ∨
    (q.2.code = 0 ∨ q.2.code = 1 ∧ tb = .stream) ∧ ∃ u, q.2.place = some u ∧ Inserted s q.1 tb e u

section
variable {s : State} {key : Bytes} {r : W32} {u : Nat}

theorem putAt_stream (h : streamAt s u = none) (e : Entry) : PutAt s (putStream s u e) .stream e u :=
  ⟨h, streamAt_putStream_same s u e, fun _ hv => streamAt_putStream_ne hv, fun _ => rfl⟩

theorem putAt_station (h : stationAt s u = none) (e : StationEntry) :
    PutAt s (putStation s u e) .station ⟨e.key, e.result⟩ u where
  free := by rw [entryAt, h]; rfl
  put := by rw [entryAt]; exact congrArg (Option.map _) (spFind_spPut_same _ _ _)
  other v hv := congrArg (Option.map _) (spFind_spPut_ne _ _ _ _ hv)
  candidates _ := rfl

theorem putAt_pfx (h : spFind s.cls.pfxEntries u = none) (e : Entry) : PutAt s (putPrefix s u e) .pfx e u :=
  ⟨h, spFind_spPut_same _ _ _, fun _ hv => spFind_spPut_ne _ _ _ _ hv, fun _ => rfl⟩

theorem findStream_unlisted (h : key ∉ tableKeys s .stream) : findStream s key = none := findEntry_unlisted h
theorem findStation_unlisted (h : key ∉ tableKeys s .station) : findStation s key = none := findEntry_unlisted h

/-- A free candidate of lowest way takes the entry (R186). -/
theorem insertStream_free (hkey : key ∉ tableKeys s .stream)
    (hu : ((List.range 4).map (fun w => streamUnit w key)).find? (streamFree s) = some u) :
    insertStream s ⟨key, r⟩ = (putStream s u ⟨key, r⟩, ⟨0, some u, 0⟩) := by
  simp only [insertStream, findStream_unlisted hkey, hu]

/-- The entry goes to a free candidate in a state that entries have been moved to. -/
theorem inserted_stream {s' : State} (hkey : key ∉ tableKeys s .stream) (hm : Moved s s')
    (hc : u ∈ candidates s .stream key) (hfree : streamAt s' u = none) :
    Inserted s (putStream s' u ⟨key, r⟩) .stream ⟨key, r⟩ u := by
  have hkey' : ∀ v, holdsKey s' .stream key v = false := fun v => by
    refine Bool.eq_false_iff.2 fun hv => ?_
    obtain ⟨e, he, rfl⟩ := holdsKey_eq_true_iff.1 hv
    obtain ⟨w, hw⟩ := hm.source v e he
    exact hkey (key_mem_of_entryAt (tb := .stream) hw)
  obtain ⟨w, hw, rfl⟩ := mem_candidates_stream.1 hc
  obtain ⟨hfind, hresult, hkeep⟩ := (putAt_stream hfree ⟨key, r⟩).inserted hc hkey' fun _ x hx => by
    rwa [stash_putStream (streamUnit_lt hw key)]
  exact ⟨hfind, hresult, fun k hk => hkeep k (hm.keeps k hk)⟩

/-- The entry goes to a free stash entry. -/
theorem inserted_stash {j : Nat} (hkey : key ∉ tableKeys s .stream) (hfree : spFind s.cls.stash j = none) :
    Inserted s (putStream s (stashBase + j) ⟨key, r⟩) .stream ⟨key, r⟩ (stashBase + j) := by
  have hput := putAt_stream ((streamAt_stash s j).trans hfree) ⟨key, r⟩
  have hst : (putStream s (stashBase + j) ⟨key, r⟩).cls.stash = spPut s.cls.stash j ⟨key, r⟩ := by
    rw [putStream, if_neg (by omega), Nat.add_sub_cancel_left]; rfl
  refine ⟨?_, resultAt_of_entryAt hput.put, fun k hk => hput.keeps (fun _ x hx => ?_) hk⟩
  · have hnone : (candidates (putStream s (stashBase + j) ⟨key, r⟩) .stream key).find?
        (holdsKey (putStream s (stashBase + j) ⟨key, r⟩) .stream key) = none := by
      refine List.find?_eq_none.2 fun v hv hk => ?_
      obtain ⟨w, hw, rfl⟩ := mem_candidates_stream.1 hv
      have := hput.only (holdsKey_unlisted hkey) hk
      have := streamUnit_lt hw key
      omega
    have hfound : (spPut s.cls.stash j ⟨key, r⟩).find? (fun e => e.2.key == key) = some (j, ⟨key, r⟩) := by
      refine find?_eq_some_of_only (mem_spPut_self _ _ _) (beq_self_eq_true key) fun x hx hxk => ?_
      refine (mem_spPut _ _ _ _ hx).resolve_right fun hold => hkey ?_
      exact List.mem_map.2 ⟨x, List.mem_append_right _ hold, eq_of_beq hxk⟩
    rw [findEntry_eq, hnone, Option.none_or, stashPlace, hst, hfound]
    rfl
  · rw [hst]
    exact mem_spPut_of_mem hx (spFind_eq_none_iff.1 hfree x hx)

theorem insertStream_ends (hkey : key ∉ tableKeys s .stream) :
    InsertEnds s .stream ⟨key, r⟩ (insertStream s ⟨key, r⟩) := by
  have hself : Moved s s := ⟨fun _ hk => hk, fun u _ he => ⟨u, he⟩, rfl⟩
  cases hfree : ((List.range 4).map (fun w => streamUnit w key)).find? (streamFree s) with
  | some u =>
    rw [insertStream_free hkey hfree]
    have hnone : streamAt s u = none := by
      have := List.find?_some hfree
      simp only [streamFree, Bool.and_eq_true, Option.isNone_iff_eq_none] at this
      exact this.1
    exact ⟨tablesOnly_putStream _ _ _,
      .inr ⟨.inl rfl, u, rfl, inserted_stream hkey hself (List.mem_of_find?_eq_some hfree) hnone⟩⟩
  | none =>
    simp only [insertStream, findStream_unlisted hkey, hfree]
    split
    · rename_i path hp
      obtain ⟨hpath, c, rest, rfl, hc⟩ := searchStream_path (key := key) (fun p hp => by
        obtain ⟨u, hu, rfl⟩ := List.mem_map.1 hp
        obtain ⟨w, hw, rfl⟩ := (mem_candidates_stream (s := s)).1 (List.mem_of_mem_filter hu)
        exact .start hw) hp
      obtain ⟨hmoved, hlast⟩ := relocate_frees hpath hc
      exact ⟨(tablesOnly_relocate _ _).trans (tablesOnly_putStream _ _ _),
        .inr ⟨.inl rfl, _, rfl, inserted_stream hkey hmoved hpath.last hlast⟩⟩
    · split
      · rename_i j hj
        have hnone : spFind s.cls.stash j = none := by
          have := List.find?_some hj
          simp only [Bool.and_eq_true, Option.isNone_iff_eq_none] at this
          exact this.1
        exact ⟨(tablesOnly_putStream _ _ _).trans (tablesOnly_noteStash _),
          .inr ⟨.inr ⟨rfl, rfl⟩, _, rfl, (inserted_stash hkey hnone).same (sameTables_noteStash _)⟩⟩
      · exact ⟨.refl s, .inl ⟨.inl rfl, rfl⟩⟩

theorem insertStation_free (hkey : key ∉ tableKeys s .station) (hu : freeStation s key = some u) :
    insertStation s key r = (putStation s u ⟨key, r, s.cls.second⟩, ⟨0, some u, 0⟩) := by
  simp only [insertStation, findStation_unlisted hkey, hu]

theorem insertStation_ends (hkey : key ∉ tableKeys s .station) : InsertEnds s .station ⟨key, r⟩ (insertStation s key r) := by
  cases hfree : freeStation s key with
  | some u =>
    rw [insertStation_free hkey hfree]
    have hnone : stationAt s u = none := by
      have := List.find?_some hfree
      simp only [Bool.and_eq_true, Option.isNone_iff_eq_none] at this
      exact this.1
    exact ⟨rfl, .inr ⟨.inl rfl, u, rfl, (putAt_station hnone ⟨key, r, s.cls.second⟩).inserted
      (List.mem_of_find?_eq_some hfree) (holdsKey_unlisted hkey) nofun⟩⟩
  | none =>
    simp only [insertStation, findStation_unlisted hkey, hfree]
    refine ⟨.refl s, .inl ⟨?_, rfl⟩⟩
    split
    · exact .inr ⟨rfl, nofun⟩
    · exact .inl rfl

theorem insertPrefix_ends {n : Nat} (hn : descOfKey s key = some n) (hkey : key ∉ tableKeys s .pfx) :
    InsertEnds s .pfx ⟨key, r⟩ (insertPrefix s n ⟨key, r⟩) := by
  have hc : candidates s .pfx key = prefixPlaces (descriptor s n) key := by rw [candidates, hn]; rfl
  have hnone : findPrefix s (descriptor s n) key = none := by
    have := findEntry_unlisted hkey
    rwa [findEntry, hn] at this
  simp only [insertPrefix, hnone]
  split
  · exact ⟨.refl s, .inl ⟨.inr ⟨rfl, nofun⟩, rfl⟩⟩
  · split
    · rename_i u hu
      have hfree : spFind s.cls.pfxEntries u = none := by simpa using List.find?_some hu
      have hmem : u ∈ candidates s .pfx key := hc ▸ List.mem_of_find?_eq_some hu
      exact ⟨rfl, .inr ⟨.inl rfl, u, rfl, ((putAt_pfx hfree ⟨key, r⟩).inserted hmem (holdsKey_unlisted hkey) nofun).same
        ⟨rfl, rfl, rfl, rfl, rfl⟩⟩⟩
    · exact ⟨.refl s, .inl ⟨.inl rfl, rfl⟩⟩

theorem insertEntry_ends {tb : TableSel} (hkey : key ∉ tableKeys s tb) (hok : entryOk s tb key r = true) :
    InsertEnds s tb ⟨key, r⟩ (insertEntry s tb key r) := by
  cases tb with
  | stream => exact insertStream_ends hkey
  | station => exact insertStation_ends hkey
  | pfx =>
    simp only [entryOk, Bool.and_eq_true] at hok
    obtain ⟨-, ⟨-, hdesc⟩, -⟩ := hok
    obtain ⟨n, hn⟩ := Option.isSome_iff_exists.1 hdesc
    rw [insertEntry, hn]
    exact insertPrefix_ends hn hkey

/-- A listed key is not inserted again: code 2, at its place. -/
theorem insertEntry_found {tb : TableSel} (h : findEntry s tb key = some u) :
    insertEntry s tb key r = (s, ⟨2, some u, 0⟩) := by
  cases tb with
  | stream | station =>
    simp only [findEntry] at h
    simp only [insertEntry, insertStream, insertStation, h]
  | pfx =>
    obtain ⟨n, hn, hu⟩ := Option.bind_eq_some_iff.1 h
    simp only [insertEntry, hn, insertPrefix, hu]

end

end Sys2Proof.Machine

/-! PROOF. Deletes, rewritten results, and the report of a command (R187, R191, R202, Table 5.7). -/

namespace Sys2Proof.Machine

/-! ### Delete (R187, R191) -/

section
variable {s : State} {key : Bytes} {u : Nat}

/-- An element whose key is listed once is the only one with it. -/
theorem eq_of_count_eq_one {α : Type} {l : List α} {f : α → Bytes} {a b : α} (h : (l.map f).count key = 1) (ha : a ∈ l) (hb : b ∈ l)
    (hfa : f a = key) (hfb : f b = key) : b = a := by
  obtain ⟨l1, l2, rfl⟩ := List.append_of_mem ha
  simp only [List.map_append, List.map_cons, List.count_append, hfa, List.count_cons_self] at h
  have h1 : key ∉ l1.map f := List.count_eq_zero.1 (by omega)
  have h2 : key ∉ l2.map f := List.count_eq_zero.1 (by omega)
  rcases List.mem_append.1 hb with hb | hb
  · exact absurd (List.mem_map.2 ⟨b, hb, hfb⟩) h1
  · rcases List.mem_cons.1 hb with rfl | hb
    · rfl
    · exact absurd (List.mem_map.2 ⟨b, hb, hfb⟩) h2

/-- Taking out the number of an entry whose key is listed once takes the key out. -/
theorem key_not_mem_spDel {α : Type} {m : Sparse α} {f : α → Bytes} {n : Nat} {v : α}
    (h : (m.map (fun e => f e.2)).count key = 1) (hv : (n, v) ∈ m) (hf : f v = key) :
    key ∉ (spDel m n).map (fun e => f e.2) := by
  intro hk
  obtain ⟨x, hx, hxk⟩ := List.mem_map.1 hk
  have hxe := eq_of_count_eq_one (f := fun e : Nat × α => f e.2) h hv (mem_spDel _ _ _ hx) hf hxk
  exact ne_of_mem_spDel hx (congrArg Prod.fst hxe)

theorem tableKeys_stream (s : State) : tableKeys s .stream =
    s.cls.stream.map (fun e => e.2.key) ++ s.cls.stash.map (fun e => e.2.key) := List.map_append

/-- Clearing the place of a key that is listed once leaves it unlisted. -/
theorem bumpClear_unlisted (hu : findEntry s .stream key = some u) (h : (tableKeys s .stream).count key = 1) :
    key ∉ tableKeys (bumpClear s u) .stream := by
  rw [tableKeys_stream, List.count_append] at h
  rcases findEntry_eq_some hu with ⟨hc, hk⟩ | ⟨-, x, hmem, hk, rfl⟩
  · obtain ⟨w, hw, rfl⟩ := mem_candidates_stream.1 hc
    obtain ⟨e, he, hk⟩ := holdsKey_eq_true_iff.1 hk
    have hlt := streamUnit_lt hw key
    have hmem := mem_of_spFind ((streamAt_bucket hlt).symm.trans he)
    have hcount := List.count_pos_iff.2 (List.mem_map.2 ⟨_, hmem, hk⟩ : key ∈ s.cls.stream.map (fun e => e.2.key))
    rw [tableKeys_stream, bumpClear_bucket hlt, List.mem_append, not_or]
    exact ⟨key_not_mem_spDel (by omega) hmem hk, List.count_eq_zero.1 (by simp only [setCls_cls]; omega)⟩
  · have hcount := List.count_pos_iff.2 (List.mem_map.2 ⟨_, hmem, hk⟩ : key ∈ s.cls.stash.map (fun e => e.2.key))
    rw [tableKeys_stream, bumpClear_stash, List.mem_append, not_or]
    exact ⟨List.count_eq_zero.1 (by simp only [setCls_cls]; omega), key_not_mem_spDel (by omega) hmem hk⟩

/-- A drained stash entry was listed before. -/
theorem mem_tableKeys_drainStash (hu : u < stashBase) {k : Bytes} (hk : k ∈ tableKeys (drainStash s u) .stream) :
    k ∈ tableKeys s .stream := by
  unfold drainStash at hk
  split at hk
  · rename_i e he
    have hmem := List.mem_of_find?_eq_some he
    rw [(sameTables_noteStash _).tableKeys, tableKeys_stream, bumpClear_stash, putStream, if_pos hu] at hk
    rw [tableKeys_stream]
    simp only [setCls_cls, List.mem_append, List.mem_map] at hk ⊢
    rcases hk with ⟨x, hx, rfl⟩ | ⟨x, hx, rfl⟩
    · rcases mem_spPut _ _ _ _ hx with rfl | hx
      · exact .inr ⟨e, hmem, rfl⟩
      · exact .inl ⟨x, hx, rfl⟩
    · exact .inr ⟨x, mem_spDel _ _ _ hx, rfl⟩
  · exact hk

theorem deleteStream_unlisted (hu : findEntry s .stream key = some u) (h : (tableKeys s .stream).count key = 1) :
    key ∉ tableKeys (deleteStream s u) .stream := by
  have hclear := bumpClear_unlisted hu h
  unfold deleteStream
  dsimp only
  split
  · rename_i hlt
    exact fun hk => hclear (mem_tableKeys_drainStash hlt hk)
  · rwa [(sameTables_noteStash _).tableKeys]

theorem pfxEntries_deletePrefix (s : State) (n u : Nat) : (deletePrefix s n u).cls.pfxEntries = spDel s.cls.pfxEntries u := by
  unfold deletePrefix
  dsimp only
  split <;> rfl

theorem deleteEntry_unlisted {tb : TableSel} (hu : findEntry s tb key = some u) (h : (tableKeys s tb).count key = 1) :
    key ∉ tableKeys (deleteEntry s tb key u) tb := by
  cases tb with
  | stream => exact deleteStream_unlisted hu h
  | station =>
    obtain ⟨e, he, hk⟩ := entryAt_key_of_findEntry hu nofun
    obtain ⟨x, hx, rfl⟩ := Option.map_eq_some_iff.1 he
    exact key_not_mem_spDel (f := StationEntry.key) h (mem_of_spFind hx) hk
  | pfx =>
    obtain ⟨e, he, hk⟩ := entryAt_key_of_findEntry hu nofun
    obtain ⟨n, hn, -⟩ := Option.bind_eq_some_iff.1 hu
    rw [deleteEntry, hn, tableKeys, pfxEntries_deletePrefix]
    exact key_not_mem_spDel (f := Entry.key) h (mem_of_spFind he) hk

theorem streamVer_noteStash (s : State) : (noteStash s).cls.streamVer = s.cls.streamVer := by
  unfold noteStash
  dsimp only
  (repeat' split) <;> simp

/-- A delete from a bucket bumps its version once (R187). -/
theorem streamVer_deleteStream (hu : u < stashBase) :
    spGet byteZero (deleteStream s u).cls.streamVer u = spGet byteZero s.cls.streamVer u + 1 := by
  have hdrain : ∀ x : State, (drainStash x u).cls.streamVer = x.cls.streamVer := fun x => by
    unfold drainStash
    split
    · rw [streamVer_noteStash, bumpClear_stash, putStream, if_pos hu]; rfl
    · rfl
  rw [deleteStream, if_pos hu, hdrain, bumpClear_bucket hu]
  exact spGet_spSet_same _ _ _ _

end

/-! ### A result is rewritten (R202) -/

section
variable {s : State} {tb : TableSel} {u : Nat} {e : Entry}

theorem resultAt_setResultAt (h : entryAt s tb u = some e) (r : W32) (seen : Bool) :
    resultAt (setResultAt s tb u r seen) tb u = r := by
  cases tb with
  | stream =>
    have h' : streamAt s u = some e := h
    rw [setResultAt, h', resultAt, streamAt_putStream_same]; rfl
  | station =>
    obtain ⟨x, hx, -⟩ := Option.map_eq_some_iff.1 h
    rw [setResultAt, hx]
    simp [resultAt, stationAt, putStation]
  | pfx =>
    have h' : spFind s.cls.pfxEntries u = some e := h
    rw [setResultAt, h']
    simp [resultAt, putPrefix]

/-- Rewriting a result changes the entries alone. -/
theorem setResultAt_frame (s : State) (tb : TableSel) (u : Nat) (r : W32) (seen : Bool) : setResultAt s tb u r seen =
    setCls s { s.cls with
      stream := (setResultAt s tb u r seen).cls.stream, stash := (setResultAt s tb u r seen).cls.stash
      station := (setResultAt s tb u r seen).cls.station, pfxEntries := (setResultAt s tb u r seen).cls.pfxEntries } := by
  cases tb with
  | stream =>
    simp only [setResultAt]
    split
    · unfold putStream; split <;> rfl
    · rfl
  | station | pfx => simp only [setResultAt]; split <;> rfl

/-- A replace of a Station entry is a sign of life (R200). -/
theorem stationAt_setResultAt (h : entryAt s .station u = some e) (r : W32) :
    ∃ x, stationAt (setResultAt s .station u r true) u = some x ∧ x.lastSeen = s.cls.second := by
  obtain ⟨x, hx, -⟩ := Option.map_eq_some_iff.1 h
  rw [setResultAt, hx]
  exact ⟨_, spFind_spPut_same _ _ _, rfl⟩

end

/-- Nothing has changed but results, last-seen times and the note for a shadow pass. -/
def ResultsOnly (s t : State) : Prop :=
  t = { s with cls := { s.cls with
    stream := t.cls.stream, stash := t.cls.stash, station := t.cls.station, pfxEntries := t.cls.pfxEntries
    shadowStatus := t.cls.shadowStatus } }

theorem ResultsOnly.trans {s t u : State} (h : ResultsOnly s t) (g : ResultsOnly t u) : ResultsOnly s u := by
  unfold ResultsOnly at *
  rw [g, h]

theorem ResultsOnly.hostRegs {s t : State} (h : ResultsOnly s t) : t.cls.hostRegs = s.cls.hostRegs := by
  unfold ResultsOnly at h; rw [h]

theorem resultsOnly_setResultAt (s : State) (tb : TableSel) (u : Nat) (r : W32) (seen : Bool) :
    ResultsOnly s (setResultAt s tb u r seen) := by
  have h := setResultAt_frame s tb u r seen
  unfold ResultsOnly
  rw [h]
  rfl

theorem resultsOnly_noteChange (s : State) (tb : TableSel) : ResultsOnly s (noteChange s tb) := by
  unfold noteChange; split <;> rfl

/-! ### The report of a command (R202, Table 5.7) -/

/-- The status of a command, and the record of the host. -/
def reported (s : State) (code : BitVec 4) (moves : BitVec 2) (regs : TableRegs) : State :=
  setCls s { s.cls with code := code, moves := moves, hostRegs := regs }

section
variable {sec : Bool} {priv : BitVec 2} {s t : State} {tb : TableSel} {code : BitVec 4} {moves : BitVec 2} {u : Nat}

theorem reportTable_plain : reportTable s (.host sec priv) tb ⟨code, none, moves⟩ = reported s code moves s.cls.hostRegs := rfl

theorem reportTable_placed : reportTable s (.host sec priv) tb ⟨code, some u, moves⟩ =
    reported s code moves { s.cls.hostRegs with location := locationWord tb u } := rfl

theorem reportTable_placed_of_eq (h : s = t) : reportTable s (.host sec priv) tb ⟨code, some u, moves⟩ =
    reported t code moves { s.cls.hostRegs with location := locationWord tb u } := by
  subst h; rfl

theorem sameTables_reportTable (s : State) (tb : TableSel) (q : TableResult) :
    SameTables s (reportTable s (.host sec priv) tb q) := by
  obtain ⟨code, _ | u, moves⟩ := q <;> exact ⟨rfl, rfl, rfl, rfl, rfl⟩

/-- What `moves` shows after an insert. -/
def insertMoves (s : State) (tb : TableSel) (q : TableResult) : BitVec 2 := if tb = .stream then q.moves else s.cls.moves

theorem ownMoves_eq (s : State) (tb : TableSel) (q : TableResult) : ownMoves s tb q = ⟨q.code, q.place, insertMoves s tb q⟩ := by
  unfold ownMoves insertMoves; split <;> rfl

end

end Sys2Proof.Machine

/-! PROOF. The table commands of the host: the checks that end them, and what each one leaves and reports (R183, R202, R203, R208,
Table 5.7). -/

namespace Sys2Proof.Machine

/-! ### How the commands end (Table 5.7) -/

/-- A command of the table access record, by its number. -/
def tableOp (op : Nat) : Auth → TableSel → State → State :=
  if op = 1 then insertCommand else if op = 2 then deleteCommand else if op = 3 then readCommand else replaceCommand

/-- A command has ended with a code, and the tables are as they were. -/
def tableEnded (op : Nat) (tb : TableSel) (s : State) (code : BitVec 4) : State :=
  setCls s { s.cls with code := code, moves := if op = 1 ∧ tb = .stream then 0 else s.cls.moves }

/-- The record of the host shows a result. -/
def resultShown (s : State) (r : W32) : State := setCls s { s.cls with hostRegs := { s.cls.hostRegs with result := r } }

theorem tableIndex_lt (tb : TableSel) : tableIndex tb < 3 := by cases tb <;> decide

section
variable {sec : Bool} {priv : BitVec 2} {tb : TableSel} {op : Nat} {c : Instr} {s : State}

theorem valueOf_tableOpBytes (h : op < 8) (tb : TableSel) : valueOf (tableOpBytes op tb) = op + tableIndex tb * 16 := by
  have hlt := tableIndex_lt tb
  rw [tableOpBytes, valueOf_toBE]
  omega

theorem tableCommand_tableOp (hop : op = 1 ∨ op = 2 ∨ op = 3 ∨ op = 4) (au : Auth) :
    tableCommand au (tableOpBytes op tb) s = (tableOp op au tb s, none) := by
  rw [tableCommand, valueOf_tableOpBytes (by omega)]
  rcases hop with rfl | rfl | rfl | rfl <;> cases tb <;> rfl

theorem exec_tableOp (hc : (op = 1 ∧ c = .tableInsert (.host sec priv) tb) ∨ (op = 2 ∧ c = .tableDelete (.host sec priv) tb) ∨
      (op = 3 ∧ c = .tableRead (.host sec priv) tb) ∨ (op = 4 ∧ c = .tableReplace (.host sec priv) tb))
    (hw : hostWrites sec priv 0x3400 1 (tableOpBytes op tb) s = true) :
    exec c s = .next (hostDone (tableOp op (.host sec priv) tb s)) := by
  rcases hc with ⟨rfl, rfl⟩ | ⟨rfl, rfl⟩ | ⟨rfl, rfl⟩ | ⟨rfl, rfl⟩ <;>
    exact congrArg Host.Outcome.next (commandWrite_host_done hw (tableCommand_tableOp (by decide) _))

theorem reportTable_insertEnded (code : BitVec 4) :
    reportTable s (.host sec priv) tb (ownMoves s tb ⟨code, none, 0⟩) = tableEnded 1 tb s code := by
  rw [ownMoves_eq, reportTable_plain, tableEnded]
  simp only [true_and]
  rfl

theorem reportTable_ended (h : op ≠ 1) (code : BitVec 4) :
    reportTable s (.host sec priv) tb ⟨code, none, s.cls.moves⟩ = tableEnded op tb s code := by
  rw [reportTable_plain, tableEnded, if_neg fun hop => h hop.1]
  rfl

theorem tableOp_blocked (hop : op = 1 ∨ op = 2 ∨ op = 3 ∨ op = 4) (hb : rebuildBlocks s tb = true) :
    tableOp op (.host sec priv) tb s = tableEnded op tb s 6 := by
  rcases hop with rfl | rfl | rfl | rfl
  · exact (if_pos hb).trans (reportTable_insertEnded 6)
  · exact (if_pos hb).trans (reportTable_ended (by decide) 6)
  · exact (if_pos hb).trans (reportTable_ended (by decide) 6)
  · exact (if_pos hb).trans (reportTable_ended (by decide) 6)

variable (hb : rebuildBlocks s tb = false)
include hb

theorem tableOp_badKey (hop : op = 1 ∨ op = 2 ∨ op = 3 ∨ op = 4) (hk : keyClean tb (recordKey s.cls.hostRegs) = false) :
    tableOp op (.host sec priv) tb s = tableEnded op tb s 5 := by
  rcases hop with rfl | rfl | rfl | rfl
  · rw [← reportTable_insertEnded (sec := sec) (priv := priv)]
    simp [tableOp, insertCommand, hb, tableRegs, hk]
  · rw [← reportTable_ended (sec := sec) (priv := priv) (by decide)]
    simp [tableOp, deleteCommand, hb, tableRegs, hk]
  · rw [← reportTable_ended (sec := sec) (priv := priv) (by decide)]
    simp [tableOp, readCommand, hb, tableRegs, hk]
  · rw [← reportTable_ended (sec := sec) (priv := priv) (by decide)]
    simp [tableOp, replaceCommand, hb, tableRegs, hk]

theorem tableOp_badResult (hop : op = 1 ∨ op = 4)
    (hr : entryOk s tb (commandKey s (.host sec priv) tb) (softResult s.cls.hostRegs.result) = false) :
    tableOp op (.host sec priv) tb s = tableEnded op tb s 5 := by
  rcases hop with rfl | rfl
  · rw [← reportTable_insertEnded (sec := sec) (priv := priv)]
    simp [tableOp, insertCommand, hb, tableRegs, hr]
  · rw [← reportTable_ended (sec := sec) (priv := priv) (by decide)]
    simp [tableOp, replaceCommand, hb, tableRegs, hr]

variable (hk : keyClean tb (recordKey s.cls.hostRegs) = true)
include hk

theorem tableOp_missing (hop : op = 2 ∨ op = 3 ∨ op = 4)
    (hr : op = 4 → entryOk s tb (commandKey s (.host sec priv) tb) (softResult s.cls.hostRegs.result) = true)
    (hf : findEntry s tb (commandKey s (.host sec priv) tb) = none) :
    tableOp op (.host sec priv) tb s = tableEnded op tb s 3 := by
  rcases hop with rfl | rfl | rfl
  · rw [← reportTable_ended (sec := sec) (priv := priv) (by decide)]
    simp [tableOp, deleteCommand, hb, tableRegs, hk, hf]
  · rw [← reportTable_ended (sec := sec) (priv := priv) (by decide)]
    simp [tableOp, readCommand, hb, tableRegs, hk, hf]
  · rw [← reportTable_ended (sec := sec) (priv := priv) (by decide)]
    simp [tableOp, replaceCommand, hb, tableRegs, hk, hf, hr rfl]

section
variable (hr : entryOk s tb (commandKey s (.host sec priv) tb) (softResult s.cls.hostRegs.result) = true)
include hr

/-- An insert notes the change when it has put the entry in place, and reports. -/
theorem insertCommand_eq {q : State × TableResult}
    (hq : insertEntry s tb (commandKey s (.host sec priv) tb) (softResult s.cls.hostRegs.result) = q) :
    insertCommand (.host sec priv) tb s = reportTable (if q.2.code = 0 ∨ q.2.code = 1 then noteChange q.1 tb else q.1)
      (.host sec priv) tb ⟨q.2.code, q.2.place, insertMoves s tb q.2⟩ := by
  subst hq
  simp only [insertCommand, hb, tableRegs, hk, hr, ownMoves_eq, Bool.not_true, Bool.or_self, Bool.false_eq_true, if_false]
  rfl

theorem replaceCommand_found {u : Nat} (hf : findEntry s tb (commandKey s (.host sec priv) tb) = some u) :
    replaceCommand (.host sec priv) tb s = reportTable (noteChange (setResultAt s tb u
      (setBit (softResult s.cls.hostRegs.result) 24 (bit (resultAt s tb u) 24)) true) tb) (.host sec priv) tb
      ⟨0, some u, s.cls.moves⟩ := by
  simp only [replaceCommand, hb, tableRegs, hk, hr, hf, Bool.not_true, Bool.or_self, Bool.false_eq_true, if_false]

end

section
variable {u : Nat} (hf : findEntry s tb (commandKey s (.host sec priv) tb) = some u)
include hf

theorem deleteCommand_found : deleteCommand (.host sec priv) tb s =
    reportTable (noteChange (deleteEntry s tb (commandKey s (.host sec priv) tb) u) tb) (.host sec priv) tb
      ⟨0, some u, s.cls.moves⟩ := by
  simp only [deleteCommand, hb, tableRegs, hk, hf, Bool.not_true, Bool.false_eq_true, if_false]

theorem readCommand_found : readCommand (.host sec priv) tb s =
    reportTable (setResultAt (resultShown s (resultAt s tb u)) tb u (setBit (resultAt s tb u) 24 false) false) (.host sec priv) tb
      ⟨0, some u, s.cls.moves⟩ := by
  simp only [readCommand, hb, tableRegs, hk, hf, Bool.not_true, Bool.false_eq_true, if_false]
  rfl

end

end

/-! ### What a command shows once it has changed a table -/

section
variable {sec : Bool} {priv : BitVec 2} {tb : TableSel} {s t : State} {q : TableResult}

/-- Nothing has changed but what an operation on a table may change, and the report of the command. -/
def CommandOnly (s t : State) : Prop :=
  t = { s with events := t.events, cls := { s.cls with
    stream := t.cls.stream, streamVer := t.cls.streamVer, stash := t.cls.stash, stashVer := t.cls.stashVer
    bumped := t.cls.bumped, stashHigh := t.cls.stashHigh, station := t.cls.station, pfxEntries := t.cls.pfxEntries
    filters := t.cls.filters, shadowStatus := t.cls.shadowStatus, code := t.cls.code, moves := t.cls.moves
    hostRegs := t.cls.hostRegs } }

theorem TablesOnly.report (h : TablesOnly s t) (q : TableResult) : CommandOnly s (reportTable t (.host sec priv) tb q) := by
  obtain ⟨code, _ | u, moves⟩ := q
  · exact congrArg (reported · code moves t.cls.hostRegs) h
  · exact reportTable_placed_of_eq h

/-- What a rewritten result and its report change. -/
theorem ResultsOnly.report (h : ResultsOnly s t) (u : Nat) :
    ∃ x, reportTable t (.host sec priv) tb ⟨0, some u, s.cls.moves⟩ = x ∧ x = { s with cls := { s.cls with
      stream := x.cls.stream, stash := x.cls.stash, station := x.cls.station, pfxEntries := x.cls.pfxEntries, code := 0
      shadowStatus := x.cls.shadowStatus, hostRegs := x.cls.hostRegs } } :=
  ⟨_, rfl, reportTable_placed_of_eq h⟩

theorem code_reportTable (t : State) (q : TableResult) : (reportTable t (.host sec priv) tb q).cls.code = q.code := by
  obtain ⟨code, _ | u, moves⟩ := q <;> rfl

theorem sameTables_hostDone (s : State) : SameTables s (hostDone s) := ⟨rfl, rfl, rfl, rfl, rfl⟩

theorem streamVer_noteChange (s : State) (tb : TableSel) : (noteChange s tb).cls.streamVer = s.cls.streamVer := by
  unfold noteChange; split <;> rfl

/-- The state of an insert with its change noted. -/
def insertNoted (tb : TableSel) (q : State × TableResult) : State :=
  if q.2.code = 0 ∨ q.2.code = 1 then noteChange q.1 tb else q.1

theorem sameTables_insertNoted (q : State × TableResult) : SameTables q.1 (insertNoted tb q) := by
  unfold insertNoted
  split
  · exact sameTables_noteChange _ _
  · exact ⟨rfl, rfl, rfl, rfl, rfl⟩

theorem tablesOnly_insertNoted {q : State × TableResult} (h : TablesOnly s q.1) : TablesOnly s (insertNoted tb q) := by
  unfold insertNoted
  split
  · exact h.trans (tablesOnly_noteChange _ _)
  · exact h

end

/-! ### Each command, once its checks have passed -/

section
variable {sec : Bool} {priv : BitVec 2} {tb : TableSel} {s : State} {key : Bytes} {u : Nat}
  (hb : rebuildBlocks s tb = false) (hk : keyClean tb (recordKey s.cls.hostRegs) = true)
  (hkey : commandKey s (.host sec priv) tb = key)
include hb hk hkey

/-- An insert of an unlisted key reports how it ended. -/
theorem insertCommand_new (hr : entryOk s tb key (softResult s.cls.hostRegs.result) = true) (hnew : key ∉ tableKeys s tb) :
    ∃ t q, insertCommand (.host sec priv) tb s = t ∧ insertEntry s tb key (softResult s.cls.hostRegs.result) = q ∧
      SameTables q.1 t ∧ CommandOnly s t ∧ t.cls.code = q.2.code ∧
      (∀ u, q.2.place = some u → t.cls.moves = insertMoves s tb q.2 ∧
        t.cls.hostRegs = { s.cls.hostRegs with location := locationWord tb u }) := by
  subst hkey
  have hends := insertEntry_ends hnew hr
  generalize hq : insertEntry s tb (commandKey s (.host sec priv) tb) (softResult s.cls.hostRegs.result) = q at hends
  have honly := tablesOnly_insertNoted (tb := tb) hends.frame
  refine ⟨_, q, insertCommand_eq hb hk hr hq, rfl, (sameTables_insertNoted q).trans (sameTables_reportTable _ _ _),
    honly.report _, code_reportTable _ _, fun u hu => ?_⟩
  rw [hu, reportTable_placed, ← honly.hostRegs]
  exact ⟨rfl, rfl⟩

section
variable (hf : findEntry s tb key = some u)
include hf

theorem deleteCommand_done : ∃ t, deleteCommand (.host sec priv) tb s = t ∧ t.cls.code = 0 ∧ t.cls.moves = s.cls.moves ∧
    t.cls.hostRegs = { s.cls.hostRegs with location := locationWord tb u } ∧
    ((tableKeys s tb).count key = 1 → key ∉ tableKeys t tb) ∧
    (tb = .stream → u < stashBase → spGet byteZero t.cls.streamVer u = spGet byteZero s.cls.streamVer u + 1) := by
  subst hkey
  have honly := (tablesOnly_deleteEntry s tb (commandKey s (.host sec priv) tb) u).trans (tablesOnly_noteChange _ tb)
  refine ⟨_, deleteCommand_found hb hk hf, rfl, rfl, ?_, fun hone => ?_, ?_⟩
  · exact congrArg (fun x : TableRegs => { x with location := locationWord tb u }) honly.hostRegs
  · rw [((sameTables_noteChange _ tb).trans (sameTables_reportTable _ tb _)).tableKeys]
    exact deleteEntry_unlisted hf hone
  · rintro rfl hu
    show spGet byteZero (noteChange (deleteStream s u) .stream).cls.streamVer u = _
    rw [streamVer_noteChange]
    exact streamVer_deleteStream hu

theorem readCommand_done : ∃ t, readCommand (.host sec priv) tb s = t ∧
    t.cls.hostRegs = { s.cls.hostRegs with result := resultAt s tb u, location := locationWord tb u } ∧
    resultAt t tb u = setBit (resultAt s tb u) 24 false ∧
    t = { s with cls := { s.cls with
      stream := t.cls.stream, stash := t.cls.stash, station := t.cls.station, pfxEntries := t.cls.pfxEntries, code := 0
      hostRegs := t.cls.hostRegs } } := by
  subst hkey
  obtain ⟨e, he⟩ := entryAt_of_findEntry hf
  have hframe := setResultAt_frame (resultShown s (resultAt s tb u)) tb u (setBit (resultAt s tb u) 24 false) false
  refine ⟨_, readCommand_found hb hk hf, ?_, ?_, reportTable_placed_of_eq hframe⟩
  · exact congrArg (fun y => { y.cls.hostRegs with location := locationWord tb u }) hframe
  · rw [(sameTables_reportTable _ tb _).resultAt]
    exact resultAt_setResultAt (s := resultShown s (resultAt s tb u)) he _ _

theorem replaceCommand_done (hr : entryOk s tb key (softResult s.cls.hostRegs.result) = true) :
    ∃ t, replaceCommand (.host sec priv) tb s = t ∧
      t.cls.hostRegs = { s.cls.hostRegs with location := locationWord tb u } ∧
      resultAt t tb u = setBit (softResult s.cls.hostRegs.result) 24 (bit (resultAt s tb u) 24) ∧
      (tb = .station → ∃ e, stationAt t u = some e ∧ e.lastSeen = s.cls.second) ∧
      t = { s with cls := { s.cls with
        stream := t.cls.stream, stash := t.cls.stash, station := t.cls.station, pfxEntries := t.cls.pfxEntries, code := 0
        shadowStatus := t.cls.shadowStatus, hostRegs := t.cls.hostRegs } } := by
  subst hkey
  obtain ⟨e, he⟩ := entryAt_of_findEntry hf
  have honly := (resultsOnly_setResultAt s tb u (setBit (softResult s.cls.hostRegs.result) 24 (bit (resultAt s tb u) 24)) true).trans
    (resultsOnly_noteChange _ tb)
  have hsame : ∀ x : State, SameTables x (reportTable (noteChange x tb) (.host sec priv) tb ⟨0, some u, s.cls.moves⟩) :=
    fun x => (sameTables_noteChange x tb).trans (sameTables_reportTable _ tb _)
  obtain ⟨t, ht, hframe⟩ := honly.report (sec := sec) (priv := priv) (tb := tb) u
  refine ⟨t, (replaceCommand_found hb hk hr hf).trans ht, ?_, ?_, ?_, hframe⟩
  · rw [← ht]
    exact congrArg (fun x : TableRegs => { x with location := locationWord tb u }) honly.hostRegs
  · rw [← ht, (hsame _).resultAt]
    exact resultAt_setResultAt he _ _
  · rintro rfl
    rw [← ht, stationAt, (hsame _).station]
    exact stationAt_setResultAt he _

end

end

/-! ### The obligation -/

/-- Settles O47: by the checks of the command, then by where its key is found. -/
theorem tableCommandsActOnTheTables : Obligations.TableCommandsActOnTheTables := by
  intro sec priv tb op c s hc hw
  rw [exec_tableOp hc hw]
  have hop : op = 1 ∨ op = 2 ∨ op = 3 ∨ op = 4 := hc.imp And.left (Or.imp And.left (Or.imp And.left And.left))
  refine ⟨_, _, _, _, rfl, rfl, rfl, rfl, fun hb => ?blocked, fun hb => ?_⟩
  case blocked => rw [tableOp_blocked hop (by simpa [rebuildBlocks] using hb)]; rfl
  have hfree : rebuildBlocks s tb = false := by simpa [rebuildBlocks] using hb
  refine ⟨fun hk => ?badKey, fun hk => ⟨fun h14 hr => ?badResult, fun h1 hr => ⟨fun u hu => ?listed, fun hnew => ?new⟩,
    fun h1 hr hf => ?missing, fun u h1 hr hf => ?found⟩⟩
  case badKey => rw [tableOp_badKey hfree hop hk]; rfl
  case badResult => rw [tableOp_badResult hfree h14 hr]; rfl
  case missing => rw [tableOp_missing hfree hk (hop.resolve_left h1) hr hf]; rfl
  case listed =>
    subst h1
    exact congrArg (fun x => Host.Outcome.next (hostDone x)) (insertCommand_eq hfree hk hr (insertEntry_found hu))
  case new =>
    subst h1
    obtain ⟨t, q, ht, hq, hsame, honly, hcode, hplaced⟩ := insertCommand_new (priv := priv) hfree hk rfl hr hnew
    have hdone := hsame.trans (sameTables_hostDone t)
    refine ⟨hostDone t, congrArg (fun x => Host.Outcome.next (hostDone x)) ht, congrArg hostDone honly, ?_, ?_, ?_⟩
    · obtain ⟨-, ⟨hends, hs⟩ | ⟨hends, u, hu, hins⟩⟩ := hq ▸ insertEntry_ends hnew hr
      · exact .inl ⟨by rwa [← hcode] at hends, (hdone.tableKeys tb).trans (by rw [hs])⟩
      · obtain ⟨hfind, hresult, hkeep⟩ := hins.same hdone
        exact .inr ⟨by rwa [← hcode] at hends, u, hfind, hresult, (hplaced u hu).2, hkeep⟩
    · rintro u rfl hu
      obtain rfl := hq.symm.trans (insertStream_free hnew hu)
      exact ⟨hcode, (hplaced u rfl).1, (hdone.streamAt u).trans (streamAt_putStream_same _ _ _),
        fun v hv => (hdone.streamAt v).trans (streamAt_putStream_ne hv)⟩
    · rintro u rfl hu
      obtain rfl := hq.symm.trans (insertStation_free hnew hu)
      exact ⟨hcode, hdone.station⟩
  case found =>
    rcases hop with rfl | rfl | rfl | rfl
    · exact absurd rfl h1
    · obtain ⟨t, ht, hcode, hmoves, hregs, hkeys, hver⟩ := deleteCommand_done (priv := priv) hfree hk rfl hf
      exact ⟨hostDone t, congrArg (fun x => Host.Outcome.next (hostDone x)) ht, hcode, hmoves, (congrArg TableRegs.location hregs :),
        (congrArg TableRegs.key hregs :), fun _ => ⟨fun hone => by
          rw [(sameTables_hostDone t).tableKeys]; exact hkeys hone, (congrArg TableRegs.result hregs :), hver⟩, nofun, nofun⟩
    · obtain ⟨t, ht, hregs, hresult, hframe⟩ := readCommand_done (priv := priv) hfree hk rfl hf
      exact ⟨hostDone t, congrArg (fun x => Host.Outcome.next (hostDone x)) ht, congrArg (fun x => x.cls.code) hframe,
        congrArg (fun x => x.cls.moves) hframe, (congrArg TableRegs.location hregs :), (congrArg TableRegs.key hregs :), nofun,
        fun _ => ⟨(congrArg TableRegs.result hregs :), ((sameTables_hostDone t).resultAt tb u).trans hresult,
          congrArg hostDone hframe⟩, nofun⟩
    · obtain ⟨t, ht, hregs, hresult, hseen, hframe⟩ := replaceCommand_done (priv := priv) hfree hk rfl hf (hr rfl)
      exact ⟨hostDone t, congrArg (fun x => Host.Outcome.next (hostDone x)) ht, congrArg (fun x => x.cls.code) hframe,
        congrArg (fun x => x.cls.moves) hframe, (congrArg TableRegs.location hregs :), (congrArg TableRegs.key hregs :), nofun, nofun,
        fun _ => ⟨((sameTables_hostDone t).resultAt tb u).trans hresult, (congrArg TableRegs.result hregs :), hseen,
          congrArg hostDone hframe⟩⟩

end Sys2Proof.Machine

/-! PROOF. Descriptors of the Prefix Table, and the rebuild of a length table in a new bank range (R192, R194, R208, Tables 5.5
and 12.6). -/

namespace Sys2Proof.Machine

/-! ### A descriptor is written (R192, Table 5.5) -/

section
variable {s : State} {n : Nat} {v : W32}

/-- The descriptor still has entries, or its rebuild runs. -/
def descBusy (s : State) (n : Nat) : Bool := !(tableEntries s (descriptor s n)).isEmpty || rebuilds s n

/-- Table 5.5 forbids the value. -/
def descBad (s : State) (n : Nat) (d : W64) : Bool := !descRangeOk d || (descEnable d && descClash s n d)

theorem descBusy_iff : descBusy s n = true ↔ (∃ b, s.cls.rebuild = some b ∧ b.desc.val = n) ∨
    (bit (descriptor s n) 9 = true ∧ ∃ e ∈ s.cls.pfxEntries, keyOfDesc (descriptor s n) e.2.key = true) := by
  have hrun : rebuilds s n = true ↔ ∃ b, s.cls.rebuild = some b ∧ b.desc.val = n := by
    unfold rebuilds; cases s.cls.rebuild <;> simp
  have hentries : (!(tableEntries s (descriptor s n)).isEmpty) = true ↔
      bit (descriptor s n) 9 = true ∧ ∃ e ∈ s.cls.pfxEntries, keyOfDesc (descriptor s n) e.2.key = true := by
    simp only [tableEntries, entryOfDesc, descEnable, Bool.not_eq_true', List.isEmpty_eq_false_iff, ne_eq, List.filter_eq_nil_iff,
      Bool.and_eq_true]
    push Not
    exact ⟨fun ⟨e, he, hb, hk⟩ => ⟨hb, e, he, hk⟩, fun ⟨hb, e, he, hk⟩ => ⟨e, he, hb, hk⟩⟩
  rw [descBusy, Bool.or_eq_true, hrun, hentries, or_comm]

/-- Two bank ranges have a bank in common. -/
theorem rangesOverlap_iff (f c f' c' : Nat) : rangesOverlap f c f' c' = true ↔ f < f' + c' ∧ f' < f + c := by
  simp [rangesOverlap]

theorem descRangeOk_eq_false_iff (d : W64) : descRangeOk d = false ↔ (if bit d 8 = true then 128 else 32) < field d 7 0 ∨
    16 < field d 13 10 + field d 18 14 ∨ (bit d 9 = true ∧ field d 18 14 = 0) := by
  simp only [descRangeOk, Bool.and_eq_false_iff, decide_eq_false_iff_not, Nat.not_le, Bool.not_eq_false', Bool.and_eq_true,
    beq_iff_eq]
  simp only [descLength, descV6, descCount, descFirst, descEnable]
  have hcount : 16 < field d 18 14 → 16 < field d 13 10 + field d 18 14 := fun h => Nat.lt_add_left _ h
  tauto

theorem descBad_iff (d : W64) : descBad s n d = true ↔
    (if bit d 8 = true then 128 else 32) < field d 7 0 ∨ 16 < field d 13 10 + field d 18 14 ∨
      (bit d 9 = true ∧ (field d 18 14 = 0 ∨ ∃ j, j < 16 ∧ j ≠ n ∧ bit (descriptor s j) 9 = true ∧
        ((bit (descriptor s j) 8 = bit d 8 ∧ field (descriptor s j) 7 0 = field d 7 0) ∨
          (field d 13 10 < field (descriptor s j) 13 10 + field (descriptor s j) 18 14 ∧
            field (descriptor s j) 13 10 < field d 13 10 + field d 18 14)))) := by
  simp only [descBad, Bool.or_eq_true, Bool.not_eq_true', descRangeOk_eq_false_iff, descClash, descEnable, descV6, descLength,
    descFirst, descCount, List.any_eq_true, List.mem_range, Bool.and_eq_true, decide_eq_true_eq, beq_iff_eq, rangesOverlap_iff,
    and_assoc, and_or_left, or_assoc]

theorem writeDescriptor_busy (h : descBusy s n = true) : writeDescriptor n (wordBytes v) s = (s, some errState) := if_pos h

theorem writeDescriptor_bad (hb : descBusy s n = false) (h : descBad s n (v.setWidth 64) = true) :
    writeDescriptor n (wordBytes v) s = (s, some errRange) := by
  have hbad : descBad s n (BitVec.ofNat 64 (valueOf (wordBytes v))) = true := by
    rwa [valueOf_wordBytes32, BitVec.ofNat_toNat]
  exact (if_neg (Bool.eq_false_iff.1 hb)).trans (if_pos hbad)

theorem writeDescriptor_written (hb : descBusy s n = false) (h : descBad s n (v.setWidth 64) = false) :
    writeDescriptor n (wordBytes v) s = (setCls (setReg s 0x3403 (n + 1) (v.setWidth 64)) { s.cls with
      filters := spDel s.cls.filters n }, none) := by
  have hv : BitVec.ofNat 64 (valueOf (wordBytes v)) = v.setWidth 64 := by
    rw [valueOf_wordBytes32, BitVec.ofNat_toNat]
  have hgood : descBad s n (BitVec.ofNat 64 (valueOf (wordBytes v))) ≠ true := by rw [hv, h]; exact Bool.false_ne_true
  rw [← hv]
  exact (if_neg (Bool.eq_false_iff.1 hb)).trans (if_neg hgood)

end

section
variable {sec : Bool} {priv : BitVec 2} {n : Fin 16} {v : W32} {s t : State}
  (h : hostWrites sec priv 0x3403 (n.val + 1) (wordBytes v) s = true)
include h

theorem exec_descriptorWrite_done (he : writeDescriptor n.val (wordBytes v) s = (t, none)) :
    exec (.descriptorWrite (.host sec priv) n v) s = .next (hostDone t) :=
  congrArg Host.Outcome.next (commandWrite_host_done h he)

theorem exec_descriptorWrite_refused {c : W32} (he : writeDescriptor n.val (wordBytes v) s = (t, some c)) :
    exec (.descriptorWrite (.host sec priv) n v) s = .next (hostRefused sec priv c t) :=
  congrArg Host.Outcome.next (commandWrite_host_refused h he)

end

/-! ### A rebuild starts (R208) -/

section
variable {s : State} {n first count : Nat} {v : W32}

/-- The range is empty, too long, or overlaps that of another enabled descriptor. -/
def rangeBad (s : State) (n first count : Nat) : Bool :=
  decide (count = 0) || decide (16 < first + count) ||
    (List.range 16).any (fun j => j ≠ n && descEnable (descriptor s j) &&
      rangesOverlap first count (descFirst (descriptor s j)) (descCount (descriptor s j)))

theorem rangeBad_iff : rangeBad s n first count = true ↔ count = 0 ∨ 16 < first + count ∨
    ∃ j, j < 16 ∧ j ≠ n ∧ bit (descriptor s j) 9 = true ∧
      first < field (descriptor s j) 13 10 + field (descriptor s j) 18 14 ∧ field (descriptor s j) 13 10 < first + count := by
  simp [rangeBad, descEnable, descFirst, descCount, rangesOverlap_iff, and_assoc, or_assoc]

theorem startRebuild_running (h : s.cls.rebuild.isSome = true) : startRebuild (wordBytes v) s = (s, some errState) := if_pos h

theorem startRebuild_bad (h : s.cls.rebuild = none)
    (hb : rangeBad s (v.toNat % 16) (v.toNat / 16 % 16) (v.toNat / 256 % 32) = true) :
    startRebuild (wordBytes v) s = (s, some errRange) := by
  rw [← valueOf_wordBytes32] at hb
  exact (if_neg (by simp [h])).trans (if_pos hb)

theorem startRebuild_starts (h : s.cls.rebuild = none)
    (hb : rangeBad s (v.toNat % 16) (v.toNat / 16 % 16) (v.toNat / 256 % 32) = false) :
    startRebuild (wordBytes v) s = (requestGrant (setCls s { s.cls with
      rebuild := some ⟨Fin.ofNat 16 (v.toNat % 16), v.toNat / 16 % 16, v.toNat / 256 % 32⟩ }) .rebuild false, none) := by
  rw [← valueOf_wordBytes32] at hb ⊢
  exact (if_neg (by simp [h])).trans (if_neg (Bool.eq_false_iff.1 hb))

/-- After a request the operation holds its grant or waits for it. -/
theorem requestGrant_asked (s : State) (op : HeavyOp) (b : Bool) :
    grantHeld (requestGrant s op b) op = true ∨ grantQueued (requestGrant s op b) op = true := by
  unfold requestGrant
  split
  · rename_i h; simpa using h
  · dsimp only
    split <;> exact .inr (by simp [grantQueued])

theorem requestGrant_setCls_frame (s : State) (c : Classifier) (op : HeavyOp) (b : Bool) : requestGrant (setCls s c) op b =
    { s with cls := (requestGrant (setCls s c) op b).cls, grants := (requestGrant (setCls s c) op b).grants } := by
  rw [requestGrant_cls]
  exact requestGrant_frame _ _ _

end

section
variable {sec : Bool} {priv : BitVec 2} {v : W32} {s t : State} (h : hostWrites sec priv 0x3404 1 (wordBytes v) s = true)
include h

theorem exec_rebuild_done (he : startRebuild (wordBytes v) s = (t, none)) :
    exec (.rebuild (.host sec priv) v) s = .next (hostDone t) :=
  congrArg Host.Outcome.next (commandWrite_host_done h he)

theorem exec_rebuild_refused {c : W32} (he : startRebuild (wordBytes v) s = (t, some c)) :
    exec (.rebuild (.host sec priv) v) s = .next (hostRefused sec priv c t) :=
  congrArg Host.Outcome.next (commandWrite_host_refused h he)

end

/-! ### Places of a bucket that are taken -/

/-- How many of the four places of bucket `b` are taken. -/
def placesTaken (m : Sparse Entry) (b : Nat) : Nat := ((Finset.range 4).filter (fun j => (spFind m (b * 4 + j)).isSome = true)).card

theorem placesTaken_le (m : Sparse Entry) (b : Nat) : placesTaken m b ≤ 4 := (Finset.card_filter_le _ _).trans (by simp)

theorem placesTaken_eq_zero {m : Sparse Entry} {b : Nat} (h : ∀ x ∈ m, x.1 / 4 ≠ b) : placesTaken m b = 0 := by
  refine Finset.card_eq_zero.2 (Finset.filter_eq_empty_iff.2 fun j hj => ?_)
  have hj4 := Finset.mem_range.1 hj
  have hnone : spFind m (b * 4 + j) = none := spFind_eq_none_iff.2 fun x hx hu => h x hx (by omega)
  simp [hnone]

theorem placesTaken_eq_four {m : Sparse Entry} {b : Nat} (h : ∀ j, j < 4 → spFind m (b * 4 + j) ≠ none) : placesTaken m b = 4 := by
  have hall : (Finset.range 4).filter (fun j => (spFind m (b * 4 + j)).isSome = true) = Finset.range 4 :=
    Finset.filter_true_of_mem fun j hj => Option.isSome_iff_ne_none.2 (h j (Finset.mem_range.1 hj))
  rw [placesTaken, hall, Finset.card_range]

/-- A write into a free place takes one more place of its bucket. -/
theorem placesTaken_spPut_same {m : Sparse Entry} {b j : Nat} (v : Entry) (hj : j < 4) (h : spFind m (b * 4 + j) = none) :
    placesTaken (spPut m (b * 4 + j) v) b = placesTaken m b + 1 := by
  have hinsert : (Finset.range 4).filter (fun i => (spFind (spPut m (b * 4 + j) v) (b * 4 + i)).isSome = true) =
      insert j ((Finset.range 4).filter (fun i => (spFind m (b * 4 + i)).isSome = true)) := by
    ext i
    rcases eq_or_ne i j with rfl | hi
    · simp [hj]
    · have hne : b * 4 + i ≠ b * 4 + j := by omega
      simp [spFind_spPut_ne _ _ _ _ hne, hi]
  rw [placesTaken, hinsert, Finset.card_insert_of_notMem (by simp [h]), placesTaken]

theorem placesTaken_spPut_ne {m : Sparse Entry} {b u : Nat} (v : Entry) (h : u / 4 ≠ b) :
    placesTaken (spPut m u v) b = placesTaken m b := by
  have hsame : ∀ j ∈ Finset.range 4, ((spFind (spPut m u v) (b * 4 + j)).isSome = true ↔ (spFind m (b * 4 + j)).isSome = true) := by
    intro j hj
    have hj4 := Finset.mem_range.1 hj
    rw [spFind_spPut_ne _ _ _ _ (by omega)]
  rw [placesTaken, Finset.filter_congr hsame, placesTaken]

/-! ### The copy into the new range (R208) -/

/-- The bucket of an entry in the range of a descriptor. -/
def newBucket (d : W64) (e : Nat × Entry) : Nat := prefixUnit (descFirst d) (descCount d) e.2.key

/-- How many of some entries fall into a bucket. -/
def inBucket (d : W64) (own : List (Nat × Entry)) (b : Nat) : Nat := (own.filter (fun x => newBucket d x == b)).length

/-- What the store holds once the entries `own` have been copied into it, each into a free place of its bucket. -/
structure Copied (d : W64) (rest : Sparse Entry) (own : List (Nat × Entry)) (m : Sparse Entry) : Prop where
  held : ∀ e ∈ own, ∃ j, j < 4 ∧ spFind m (newBucket d e * 4 + j) = some e.2
  source : ∀ u v, spFind m u = some v → spFind rest u = some v ∨ ∃ e ∈ own, e.2 = v
  elsewhere : ∀ u, (∀ e ∈ own, u / 4 ≠ newBucket d e) → spFind m u = spFind rest u
  taken : ∀ b, (∀ x ∈ rest, x.1 / 4 ≠ b) → placesTaken m b = inBucket d own b
  size : m.length = rest.length + own.length

section
variable {s : State} {d : W64} {rest m m' : Sparse Entry} {own : List (Nat × Entry)} {e : Nat × Entry}

theorem Copied.start : Copied d rest [] rest where
  held := by simp
  source _ _ h := .inl h
  elsewhere _ _ := rfl
  taken _ h := placesTaken_eq_zero h
  size := rfl

theorem Copied.put (h : Copied d rest own m) {j : Nat} (hj : j < 4) (hfree : spFind m (newBucket d e * 4 + j) = none) :
    Copied d rest (own ++ [e]) (spPut m (newBucket d e * 4 + j) e.2) where
  held x hx := by
    rcases List.mem_append.1 hx with hx | hx
    · obtain ⟨i, hi, hfind⟩ := h.held x hx
      have hne : newBucket d x * 4 + i ≠ newBucket d e * 4 + j := fun heq => by
        rw [heq, hfree] at hfind
        cases hfind
      exact ⟨i, hi, (spFind_spPut_ne _ _ _ _ hne).trans hfind⟩
    · rw [List.mem_singleton.1 hx]
      exact ⟨j, hj, spFind_spPut_same _ _ _⟩
  source u v hu := by
    rcases eq_or_ne u (newBucket d e * 4 + j) with rfl | hne
    · rw [spFind_spPut_same] at hu
      exact .inr ⟨e, by simp, Option.some.inj hu⟩
    · rw [spFind_spPut_ne _ _ _ _ hne] at hu
      exact (h.source u v hu).imp id fun ⟨x, hx, hv⟩ => ⟨x, by simp [hx], hv⟩
  elsewhere u hu := by
    have hne : u ≠ newBucket d e * 4 + j := by
      have := hu e (by simp)
      omega
    rw [spFind_spPut_ne _ _ _ _ hne, h.elsewhere u fun x hx => hu x (by simp [hx])]
  taken b hb := by
    have hold := h.taken b hb
    rcases eq_or_ne (newBucket d e) b with rfl | hne
    · rw [placesTaken_spPut_same _ hj hfree, hold]
      simp [inBucket]
    · rw [placesTaken_spPut_ne _ (by omega), hold]
      simp [inBucket, hne]
  size := by rw [length_spPut_new hfree, h.size]; simp [Nat.add_assoc]

/-- One entry is copied into the lowest free place of its bucket, unless that is retired. -/
theorem copyEntry_eq_some (h : copyEntry s d (some m) e = some m') : retiredUnit s 5 (newBucket d e) = false ∧
    ∃ j, j < 4 ∧ spFind m (newBucket d e * 4 + j) = none ∧ m' = spPut m (newBucket d e * 4 + j) e.2 := by
  simp only [copyEntry, Option.bind_some] at h
  split at h
  · cases h
  · rename_i hr
    obtain ⟨u, hu, rfl⟩ := Option.map_eq_some_iff.1 h
    have hfree := List.find?_some hu
    obtain ⟨j, hj, rfl⟩ := List.mem_map.1 (List.mem_of_find?_eq_some hu)
    exact ⟨Bool.eq_false_iff.2 hr, j, List.mem_range.1 hj, Option.isNone_iff_eq_none.1 hfree, rfl⟩

theorem copyEntry_ne_none (hr : retiredUnit s 5 (newBucket d e) = false) (h : placesTaken m (newBucket d e) < 4) :
    copyEntry s d (some m) e ≠ none := by
  intro hn
  simp only [copyEntry, Option.bind_some, newBucket] at hn hr
  rw [hr, if_neg Bool.false_ne_true, Option.map_eq_none_iff, List.find?_eq_none] at hn
  refine h.ne (placesTaken_eq_four fun j hj hfree => hn (newBucket d e * 4 + j) ?_ (by simp [hfree]))
  exact List.mem_map.2 ⟨j, List.mem_range.2 hj, rfl⟩

theorem foldl_copyEntry_none (todo : List (Nat × Entry)) : todo.foldl (copyEntry s d) none = none := by
  induction todo with
  | nil => rfl
  | cons e todo ih => exact ih

/-- A copy that ends has put every entry in place, none of them in a retired bucket. -/
theorem copied_of_foldl {todo : List (Nat × Entry)} (h : Copied d rest own m)
    (hf : todo.foldl (copyEntry s d) (some m) = some m') :
    Copied d rest (own ++ todo) m' ∧ ∀ e ∈ todo, retiredUnit s 5 (newBucket d e) = false := by
  induction todo generalizing own m with
  | nil => cases hf; simpa using h
  | cons e todo ih =>
    rw [List.foldl_cons] at hf
    rcases hc : copyEntry s d (some m) e with _ | m1
    · rw [hc, foldl_copyEntry_none] at hf
      cases hf
    · obtain ⟨hr, j, hj, hfree, rfl⟩ := copyEntry_eq_some hc
      rw [hc] at hf
      obtain ⟨hcopied, hrest⟩ := ih (h.put hj hfree) hf
      exact ⟨by simpa using hcopied, List.forall_mem_cons.2 ⟨hr, hrest⟩⟩

/-- A copy ends when no bucket that it needs is retired or gets more than four entries. -/
theorem foldl_copyEntry_ne_none {todo : List (Nat × Entry)} (h : Copied d rest own m)
    (hout : ∀ e ∈ todo, ∀ x ∈ rest, x.1 / 4 ≠ newBucket d e)
    (hfit : ∀ e ∈ todo, retiredUnit s 5 (newBucket d e) = false ∧ inBucket d (own ++ todo) (newBucket d e) ≤ 4) :
    todo.foldl (copyEntry s d) (some m) ≠ none := by
  induction todo generalizing own m with
  | nil => exact Option.some_ne_none m
  | cons e todo ih =>
    obtain ⟨hr, hroom⟩ := hfit e List.mem_cons_self
    have htaken := h.taken (newBucket d e) (hout e List.mem_cons_self)
    have hlt : placesTaken m (newBucket d e) < 4 := by
      simp only [inBucket, List.filter_append, List.length_append, List.filter_cons, beq_self_eq_true, if_true,
        List.length_cons] at hroom htaken
      omega
    obtain ⟨m1, hc⟩ := Option.ne_none_iff_exists'.1 (copyEntry_ne_none hr hlt)
    obtain ⟨-, j, hj, hfree, rfl⟩ := copyEntry_eq_some hc
    rw [List.foldl_cons, hc]
    refine ih (h.put hj hfree) (fun x hx => hout x (List.mem_cons_of_mem _ hx)) fun x hx => ?_
    simpa using hfit x (List.mem_cons_of_mem _ hx)

/-- Every copied entry is found by its key, when no entry of another table lies in its bucket. -/
theorem Copied.findPrefix (h : Copied d rest own m) (hkeys : (own.map (fun e => e.2.key)).Nodup) {t : State}
    (ht : t.cls.pfxEntries = m) (he : e ∈ own) (hout : ∀ x ∈ rest, x.1 / 4 ≠ newBucket d e) :
    ∃ u, findPrefix t d e.2.key = some u ∧ spFind t.cls.pfxEntries u = some e.2 := by
  subst ht
  obtain ⟨j, hj, hfind⟩ := h.held e he
  have hplace : newBucket d e * 4 + j ∈ prefixPlaces d e.2.key := List.mem_map.2 ⟨j, List.mem_range.2 hj, rfl⟩
  obtain ⟨u, hu⟩ : ∃ u, findPrefix t d e.2.key = some u :=
    Option.isSome_iff_exists.1 (List.find?_isSome.2 ⟨_, hplace, by simp [hfind]⟩)
  refine ⟨u, hu, ?_⟩
  obtain ⟨i, hi, rfl⟩ := List.mem_map.1 (List.mem_of_find?_eq_some hu)
  have hkey := List.find?_some hu
  split at hkey
  next v hv =>
    rcases h.source _ _ hv with hrest | ⟨x, hx, rfl⟩
    · have hi4 := List.mem_range.1 hi
      exact absurd (by simp only [newBucket]; omega) (hout _ (mem_of_spFind hrest))
    · rw [List.inj_on_of_nodup_map hkeys hx he (eq_of_beq hkey)] at hv
      exact hv
  next => cases hkey

end

/-! ### The switch (R208) -/

section
variable {s : State} {b : Rebuild}

theorem exec_rebuildSwitch_idle (h : s.cls.rebuild = none ∨ grantHeld s .rebuild = false) : exec .rebuildSwitch s = .next s := by
  rcases h with h | h
  · simp [exec, execRebuildSwitch, h]
  · cases hb : s.cls.rebuild <;> simp [exec, execRebuildSwitch, hb, h]

/-- The descriptor with the new range. -/
def rebuiltDesc (s : State) (b : Rebuild) : W64 :=
  setField (setField (descriptor s b.desc.val) 13 10 b.firstBank) 18 14 b.bankCount

/-- The new range has been switched to, with these entries. -/
def switched (s : State) (b : Rebuild) (m : Sparse Entry) : State :=
  let s1 := setReg s 0x3403 (b.desc.val + 1) (rebuiltDesc s b)
  setCls s1 { s1.cls with
    pfxEntries := m
    filters := spSet filterZero s1.cls.filters b.desc.val
      ((tableEntries s (descriptor s b.desc.val)).foldl (fun f e => addFilter f e.2.key) 0) }

theorem descFirst_rebuiltDesc (h : b.firstBank < 16) : descFirst (rebuiltDesc s b) = b.firstBank := by
  have hkeep : field (rebuiltDesc s b) 13 10 = field (setField (descriptor s b.desc.val) 13 10 b.firstBank) 13 10 := by
    have := congrArg BitVec.toNat (extractLsb'_setField_outside (setField (descriptor s b.desc.val) 13 10 b.firstBank)
      (h := 18) (l := 14) b.bankCount (start := 10) (len := 4) (by decide))
    simpa [rebuiltDesc, field, Nat.shiftRight_eq_div_pow] using this
  rw [descFirst, hkeep, field_setField _ _ (by decide)]
  exact Nat.mod_eq_of_lt h

theorem descCount_rebuiltDesc (h : b.bankCount < 32) : descCount (rebuiltDesc s b) = b.bankCount := by
  rw [descCount, rebuiltDesc, field_setField _ _ (by decide)]
  exact Nat.mod_eq_of_lt h

theorem endRebuild_running (h : s.cls.rebuild = some b) (c : BitVec 4) : endRebuild s c =
    setCls (releaseGrant s .rebuild) { s.cls with rebuild := none, rebuildCode := c } := by
  simp [endRebuild, h]

/-- The rebuild has ended with code 0, and rebuild-done is raised. -/
def rebuilt (s : State) (b : Rebuild) (m : Sparse Entry) : State := raise (endRebuild (switched s b m) 0) 43 0

theorem exec_rebuildSwitch_granted (hb : s.cls.rebuild = some b) (hg : grantHeld s .rebuild = true) :
    exec .rebuildSwitch s = .next (match (tableEntries s (descriptor s b.desc.val)).foldl (copyEntry s (rebuiltDesc s b))
        (some (s.cls.pfxEntries.filter (fun e => !entryOfDesc (descriptor s b.desc.val) e))) with
      | none => endRebuild s 4
      | some m => rebuilt s b m) := by
  simp only [exec, execRebuildSwitch, hb, hg, Bool.not_true, Bool.false_eq_true, if_false]
  rfl

section
variable (hb : s.cls.rebuild = some b) (m : Sparse Entry)
include hb

theorem endRebuild_switched : endRebuild (switched s b m) 0 =
    setCls (releaseGrant (switched s b m) .rebuild) { (switched s b m).cls with rebuild := none, rebuildCode := 0 } :=
  endRebuild_running (s := switched s b m) hb 0

theorem rebuilt_cls : (rebuilt s b m).cls = { (switched s b m).cls with rebuild := none, rebuildCode := 0 } := by
  rw [rebuilt, raise_cls, endRebuild_switched hb]; rfl

theorem rebuilt_grants : (rebuilt s b m).grants = (releaseGrant s .rebuild).grants := by
  rw [rebuilt, raise_grants, endRebuild_switched hb]; rfl

theorem descriptor_rebuilt (j : Nat) : descriptor (rebuilt s b m) j = descriptor (switched s b m) j := by
  have hregs : (rebuilt s b m).regs = (switched s b m).regs := by rw [rebuilt, raise_regs, endRebuild_switched hb]; rfl
  simp only [descriptor, reg, hregs]

theorem descriptor_rebuilt_same : descriptor (rebuilt s b m) b.desc.val = rebuiltDesc s b :=
  (descriptor_rebuilt hb m _).trans (reg_setReg_same _ _ _ _)

theorem descriptor_rebuilt_ne {j : Nat} (h : j ≠ b.desc.val) : descriptor (rebuilt s b m) j = descriptor s j :=
  (descriptor_rebuilt hb m j).trans (reg_setReg_ne _ _ _ _ _ _ (by simp only [oa]; omega))

theorem rebuilt_pending (hc : ctlOn s = true) : (rebuilt s b m).events.pending.getLsbD 43 = true :=
  raise_pending_self _ (by rw [endRebuild_switched hb]; exact hc) (by decide)

end

end

/-! ### The obligation -/

/-- Settles O48: by the checks of a descriptor and of a range, and by whether the copy finds a place for every entry. -/
theorem prefixTablesAreDescribedAndRebuilt : Obligations.PrefixTablesAreDescribedAndRebuilt := by
  refine ⟨?describe, ?start, ?switch, fun s h => exec_rebuildSwitch_idle h⟩
  case describe =>
    rintro sec priv n v s _ rfl hw
    refine ⟨descBusy s n.val = true, descBad s n.val (v.setWidth 64) = true, descBusy_iff, descBad_iff _,
      fun hb => exec_descriptorWrite_refused hw (writeDescriptor_busy hb), fun hb hbad => ?_, fun hb hok => ?_⟩
    · exact exec_descriptorWrite_refused hw (writeDescriptor_bad (Bool.eq_false_iff.2 hb) hbad)
    · exact exec_descriptorWrite_done hw (writeDescriptor_written (Bool.eq_false_iff.2 hb) (Bool.eq_false_iff.2 hok))
  case start =>
    rintro sec priv v s _ _ _ hw rfl rfl rfl
    refine ⟨rangeBad s (v.toNat % 16) (v.toNat / 16 % 16) (v.toNat / 256 % 32) = true, rangeBad_iff,
      fun h => exec_rebuild_refused hw (startRebuild_running h), fun h hb => exec_rebuild_refused hw (startRebuild_bad h hb),
      fun h hb => ⟨_, exec_rebuild_done hw (startRebuild_starts h (Bool.eq_false_iff.2 hb)), ?_, ?_, ?_⟩⟩
    · exact requestGrant_cls _ _ _
    · exact requestGrant_asked _ _ _
    · exact congrArg hostDone (requestGrant_setCls_frame _ _ _ _)
  case switch =>
    rintro s b _ _ own rest hb hg rfl rfl hown hrest hkeys hfirst hcount hout
    have hbucket : ∀ e : Nat × Entry, prefixUnit b.firstBank b.bankCount e.2.key = newBucket (rebuiltDesc s b) e := fun e => by
      rw [newBucket, descFirst_rebuiltDesc hfirst, descCount_rebuiltDesc hcount]
    simp only [hbucket] at hout ⊢
    have hexec := exec_rebuildSwitch_granted hb hg
    rw [show tableEntries s (descriptor s b.desc.val) = own from hown.symm,
      show s.cls.pfxEntries.filter (fun e => !entryOfDesc (descriptor s b.desc.val) e) = rest from hrest.symm] at hexec
    have hsize : s.cls.pfxEntries.length = rest.length + own.length := by
      rw [hown, hrest, Nat.add_comm, ← List.length_eq_length_filter_add]
    cases hf : own.foldl (copyEntry s (rebuiltDesc s b)) (some rest) with
    | none =>
      rw [hf] at hexec
      refine ⟨_, hexec, ?_⟩
      simp only [endRebuild_running hb]
      exact ⟨rfl, releaseGrant_gone _ _, releaseGrant_notQueued _ _,
        fun hfit => absurd hf (foldl_copyEntry_ne_none Copied.start hout hfit), fun _ => rfl⟩
    | some m =>
      rw [hf] at hexec
      obtain ⟨hcopied, hsound⟩ := copied_of_foldl Copied.start hf
      rw [List.nil_append] at hcopied
      have hcls := rebuilt_cls hb m
      have hentries : (rebuilt s b m).cls.pfxEntries = m := congrArg Classifier.pfxEntries hcls
      refine ⟨_, hexec, congrArg Classifier.rebuild hcls, ?_, ?_, fun _ => ⟨congrArg Classifier.rebuildCode hcls,
        descriptor_rebuilt_same hb m, fun j _ hj => descriptor_rebuilt_ne hb m hj,
        fun e he => hcopied.findPrefix hkeys hentries he (hout e he), fun e he => ?_, ?_, rebuilt_pending hb m⟩, fun hbad => ?_⟩
      · rw [grantHeld, rebuilt_grants hb]; exact releaseGrant_gone s _
      · rw [grantQueued, rebuilt_grants hb]; exact releaseGrant_notQueued s _
      · rw [hentries]
        exact hcopied.elsewhere _ fun x hx => hout x hx e he
      · rw [hentries, hcopied.size, hsize]
      · obtain ⟨e, he, hr | hfull⟩ := hbad
        · exact absurd (hsound e he) (by simp [hr])
        · have hle := (hcopied.taken _ (hout e he)).symm.trans_le (placesTaken_le m _)
          exact absurd hfull (Nat.not_lt.2 hle)

end Sys2Proof.Machine

/-! PROOF. The learning queue, the Classifier second and the shadow passes (R197, R198, R200, R201, R204 to R206, Table 5.8). -/

namespace Sys2Proof.Machine

/-! ### One bit of a word is written -/

theorem getLsbD_setBit {w : Nat} (x : BitVec w) (i j : Nat) (b : Bool) :
    (setBit x i b).getLsbD j = if j = i then decide (j < w) && b else x.getLsbD j := by
  have hlt : x.getLsbD j = true → j < w := BitVec.lt_of_getLsbD
  have hone : (BitVec.ofNat w (2 ^ i)).getLsbD j = (decide (j < w) && decide (i = j)) := by
    rw [BitVec.getLsbD_ofNat, Nat.testBit_two_pow]
  cases b <;> simp only [setBit, if_true, Bool.false_eq_true, if_false, BitVec.getLsbD_or, BitVec.getLsbD_and,
    BitVec.getLsbD_not, hone]
  · rcases eq_or_ne j i with rfl | h
    · simp
    · simpa [h, Ne.symm h] using hlt
  · rcases eq_or_ne j i with rfl | h
    · simpa using hlt
    · simp [h, Ne.symm h]

/-! ### A learning request is served (R197, R198) -/

section
variable {s : State} {q : LearnReq} {rest : List LearnReq} {u : Nat} {e : StationEntry}

theorem exec_learningRequest_idle (h : s.cls.learnQ = [] ∨ s.cls.learnStopped = true) : exec .learningRequest s = .next s := by
  rcases h with h | h
  · simp [exec, execLearningRequest, h]
  · cases hq : s.cls.learnQ <;> simp [exec, execLearningRequest, hq, h]

/-- The state once the head of the queue is taken. -/
def learnTaken (s : State) (rest : List LearnReq) : State := setCls s { s.cls with learnQ := rest }

theorem exec_learningRequest_served (hq : s.cls.learnQ = q :: rest) (hs : s.cls.learnStopped = false) :
    exec .learningRequest s = .next (match findStation s (stationKey q.vid q.mac) with
      | none => learnNew (learnTaken s rest) q (stationKey q.vid q.mac)
      | some u => match stationAt s u with
        | some e => learnHit (noteHit (learnTaken s rest) u) q u e
        | none => learnTaken s rest) := by
  have hgo : ¬s.cls.learnStopped = true := by simp [hs]
  simp only [exec, execLearningRequest, hq, if_neg hgo]
  rfl

theorem exec_learningRequest_unknown (hq : s.cls.learnQ = q :: rest) (hs : s.cls.learnStopped = false)
    (hf : findStation s (stationKey q.vid q.mac) = none) :
    exec .learningRequest s = .next (learnNew (learnTaken s rest) q (stationKey q.vid q.mac)) := by
  rw [exec_learningRequest_served hq hs, hf]

theorem exec_learningRequest_known (hq : s.cls.learnQ = q :: rest) (hs : s.cls.learnStopped = false)
    (hf : findStation s (stationKey q.vid q.mac) = some u) (he : stationAt s u = some e) :
    exec .learningRequest s = .next (learnHit (noteHit (learnTaken s rest) u) q u e) := by
  rw [exec_learningRequest_served hq hs, hf]
  simp only [he]

end

/-! ### A source that no entry names (R197) -/

section
variable {s : State} {q : LearnReq} {key : Bytes} {u : Nat}

theorem learnNew_full (h : freeStation s key = none ∨ regN s 0x3402 3 ≤ learnedCount s) :
    learnNew s q key = raise (bump s 0x3406 6) 39 q.port.val := by
  unfold learnNew
  cases hu : freeStation s key with
  | none => rfl
  | some u => exact if_pos (h.resolve_left (by simp [hu]))

variable (hu : freeStation s key = some u) (hroom : learnedCount s < regN s 0x3402 3)
include hu hroom

theorem learnNew_noCredit (h : field (reg s 0x3401 (q.port.val + 1)) 31 16 ≤ spGet natZero s.cls.learned q.port.val) :
    learnNew s q key = raise (bump s 0x3406 7) 39 q.port.val := by
  simp only [learnNew, hu, if_neg (Nat.not_le.2 hroom), if_pos h]; rfl

theorem learnNew_learned (h : spGet natZero s.cls.learned q.port.val < field (reg s 0x3401 (q.port.val + 1)) 31 16) :
    learnNew s q key = setCls s { s.cls with
      station := spPut s.cls.station u ⟨key, learnedResult q.port.val, s.cls.second⟩
      learned := spSet natZero s.cls.learned q.port.val (spGet natZero s.cls.learned q.port.val + 1) } := by
  simp only [learnNew, hu, if_neg (Nat.not_le.2 hroom), if_neg (Nat.not_le.2 h)]; rfl

end

/-! ### A source that an entry names (R198) -/

section
variable {s : State} {q : LearnReq} {u : Nat} {e : StationEntry}

theorem learnHit_onItsPort (h : resPort e.result = q.port.val) :
    learnHit s q u e = putStation s u { e with lastSeen := s.cls.second } := if_pos h

variable (h : resPort e.result ≠ q.port.val)
include h

/-- A pinned or static entry stays; the first such request of the second on a port raises its cause. -/
theorem learnHit_fixed (hfix : resStatic e.result = true ∨ resPinned e.result = true) :
    learnHit s q u e = if s.cls.pinRaised.getLsbD q.port.val then bump s 0x3406 (0x0A + q.port.val) else
      raiseCause (setCls (bump s 0x3406 (0x0A + q.port.val)) { s.cls with
        pinRaised := setBit s.cls.pinRaised q.port.val true }) q.port.val 4 q.port.val := by
  simp only [learnHit, if_neg h, Bool.or_eq_true, if_pos hfix]; rfl

theorem learnHit_learned (hs : resStatic e.result = false) (hp : resPinned e.result = false) (hl : resLearned e.result = true) :
    learnHit s q u e = raise (bump (putStation s u { e with
      result := setField e.result 20 16 q.port.val, lastSeen := s.cls.second }) 0x3406 9) 40 q.port.val := by
  simp only [learnHit, if_neg h, hs, hp, hl, Bool.or_self, Bool.false_eq_true, if_false, if_true]; rfl

theorem learnHit_software (hs : resStatic e.result = false) (hp : resPinned e.result = false) (hl : resLearned e.result = false) :
    learnHit s q u e = s := by
  simp only [learnHit, if_neg h, hs, hp, hl, Bool.or_self, Bool.false_eq_true, if_false]

/-- What a pinned or static entry shows of the request: the counter and, once per second, the cause of its port. -/
theorem learnHit_fixed_shows (hfix : resStatic e.result = true ∨ resPinned e.result = true) :
    (learnHit s q u e).cls.station = s.cls.station ∧
      ctr (learnHit s q u e) 0x3406 (0x0A + q.port.val) = satAdd64 (ctr s 0x3406 (0x0A + q.port.val)) 1 ∧
      (learnHit s q u e).cls.pinRaised.getLsbD q.port.val = true ∧
      (s.cls.pinRaised.getLsbD q.port.val = true → (learnHit s q u e).events = s.events) ∧
      (s.cls.pinRaised.getLsbD q.port.val = false → ctlOn s = true →
        (learnHit s q u e).events.pending.getLsbD q.port.val = true ∧
          (spGet w32Zero (learnHit s q u e).events.cause q.port.val).getLsbD 4 = true) := by
  rw [learnHit_fixed h hfix]
  have hport := q.port.isLt
  cases hr : s.cls.pinRaised.getLsbD q.port.val with
  | true => exact ⟨rfl, ctr_bump_same .., hr, fun _ => rfl, fun hf => nomatch hf⟩
  | false =>
    refine ⟨?_, ?_, ?_, fun ht => (nomatch ht), fun _ hc => ?_⟩
    · simp
    · exact (ctr_raiseCause ..).trans (ctr_bump_same s 0x3406 _)
    · simp [getLsbD_setBit_true _ hport]
    · exact raiseCause_recorded _ hc (by omega) (by decide)

end

/-! ### The Classifier second (R200, R201) -/

section
variable {s : State}

/-- The entries that stay for another second. -/
def unaged (s : State) : Sparse StationEntry :=
  s.cls.station.filter (fun e => (marksOf s.now s.cls.hits).contains e.1 || !agedOut (s.cls.second + 1) (regN s 0x3402 1) e.2)

theorem mem_unaged {x : Nat × StationEntry} : x ∈ unaged s ↔ x ∈ s.cls.station ∧
    (x.1 ∈ marksOf s.now s.cls.hits ∨ bit x.2.result 21 = true ∨ (s.cls.second + 1 - x.2.lastSeen).toNat < regN s 0x3402 1) := by
  simp only [unaged, agedOut, resStatic, List.mem_filter, Bool.or_eq_true, List.contains_iff_mem, Bool.not_eq_true',
    Bool.and_eq_false_iff, Bool.not_eq_false', decide_eq_false_iff_not, Nat.not_le]

theorem exec_classifierSecond_due (hb : s.power.bringUp = .done) (hd : domainOn s 4 = true)
    (he : elapsed s s.cls.secondStart 1200000000 = true) :
    exec .classifierSecond s = .next { s with
      cls := { s.cls with second := s.cls.second + 1, secondStart := s.now, learned := [], pinRaised := 0, station := unaged s }
      attest := { s.attest with nativeThisSecond := 0, refusedThisSecond := false } } := by
  have he' : elapsed s s.cls.secondStart (ctlCycles 200000000) = true := he
  simp only [exec, execClassifierSecond, hb, hd, he', decide_true, Bool.and_self, if_true]
  rfl

theorem exec_classifierSecond_notDue
    (h : s.power.bringUp ≠ .done ∨ domainOn s 4 = false ∨ elapsed s s.cls.secondStart 1200000000 = false) :
    exec .classifierSecond s = .next s := by
  have h' : ¬(s.power.bringUp = .done ∧ domainOn s 4 = true ∧ elapsed s s.cls.secondStart (ctlCycles 200000000) = true) := by
    rintro ⟨hb, hd, he⟩
    rcases h with h | h | h
    · exact h hb
    · simp [hd] at h
    · exact Bool.false_ne_true (h.symm.trans he)
  simp only [exec, execClassifierSecond, Bool.and_eq_true, decide_eq_true_eq, and_assoc, if_neg h']

end

/-! ### Shadow passes (R204 to R206) -/

section
variable {s : State} {tb : TableSel}

theorem exec_shadowPassStart_eq (s : State) : exec .shadowPassStart s = .next (if pathOn s = true ∧ bit (reg s 0x3405 7) 0 = true ∧
    elapsed s s.cls.passStart (secCycles (field (reg s 0x3405 7) 31 16)) = true then
      setCls s { s.cls with passRunning := 7, passStart := s.now } else s) := by
  simp only [exec, execShadowPassStart, Bool.and_eq_true, and_assoc]

theorem exec_shadowPassEnd_idle (h : s.cls.passRunning.getLsbD (tableIndex tb) = false) :
    exec (.shadowPassEnd tb) s = .next s := by
  simp [exec, execShadowPassEnd, h]

/-- A pass is over, with the mismatch of its signature. -/
def passEnded (s : State) (tb : TableSel) (bad : Bool) : State :=
  setCls s { s.cls with
    measured := s.cls.measured.set (tableIndex tb) (signature s tb)
    passRunning := setBit s.cls.passRunning (tableIndex tb) false
    shadowStatus := if bad then setBit (setBit s.cls.shadowStatus (3 + tableIndex tb) true) (tableIndex tb) true
      else setBit s.cls.shadowStatus (3 + tableIndex tb) true
    learnStopped := s.cls.learnStopped || (bad && bit (reg s 0x3405 7) 1) }

theorem exec_shadowPassEnd_running (h : s.cls.passRunning.getLsbD (tableIndex tb) = true) :
    exec (.shadowPassEnd tb) s = .next (if signature s tb = s.cls.expected.getD (tableIndex tb) [] then passEnded s tb false
      else raise (passEnded s tb true) 41 0) := by
  by_cases hm : signature s tb = s.cls.expected.getD (tableIndex tb) []
  · simp only [exec, execShadowPassEnd, h, if_true, if_pos hm, bne_eq_false_iff_eq.2 hm]; rfl
  · simp only [exec, execShadowPassEnd, h, if_true, if_neg hm, bne_iff_ne.2 hm]; rfl

theorem passEnded_complete (s : State) (tb : TableSel) (bad : Bool) :
    (passEnded s tb bad).cls.passRunning.getLsbD (tableIndex tb) = false ∧
      (passEnded s tb bad).cls.shadowStatus.getLsbD (3 + tableIndex tb) = true ∧
      (passEnded s tb bad).cls.shadowStatus.getLsbD (tableIndex tb) = (bad || s.cls.shadowStatus.getLsbD (tableIndex tb)) := by
  have hlt := tableIndex_lt tb
  have hbit : tableIndex tb < 32 := by omega
  have hpass : 3 + tableIndex tb < 32 := by omega
  have hother : (setBit s.cls.shadowStatus (3 + tableIndex tb) true).getLsbD (tableIndex tb) =
      s.cls.shadowStatus.getLsbD (tableIndex tb) := by rw [getLsbD_setBit, if_neg (by omega)]
  refine ⟨by simp [passEnded, getLsbD_setBit], ?_, ?_⟩
  · cases bad <;> simp [passEnded, getLsbD_setBit_of_getLsbD, getLsbD_setBit_true _ hpass]
  · cases bad
    · exact hother
    · exact getLsbD_setBit_true _ hbit

end

/-! ### The obligation -/

/-- Settles O49: by what the queue's head finds, whether the second is over, and the signature of the pass. -/
theorem learningAgingAndShadowPasses : Obligations.LearningAgingAndShadowPasses := by
  refine ⟨fun s h => exec_learningRequest_idle h, ?request, ?second, fun s h => exec_classifierSecond_notDue h,
    exec_shadowPassStart_eq, ?pass⟩
  case request =>
    rintro q rest s _ _ _ hq hs rfl rfl rfl
    refine ⟨fun hf => ?unknown, ?known⟩
    case unknown =>
      rw [exec_learningRequest_unknown hq hs hf]
      exact ⟨fun h => congrArg _ (learnNew_full h), fun u hu hroom => ⟨fun h => congrArg _ (learnNew_noCredit hu hroom h),
        fun h => ⟨_, congrArg _ (learnNew_learned hu hroom h), spFind_spPut_same _ _ _, fun v hv => spFind_spPut_ne _ _ _ _ hv,
          by simp [learnTaken], rfl⟩⟩⟩
    case known =>
      rintro u e _ hf he rfl
      rw [exec_learningRequest_known hq hs hf he]
      exact ⟨fun h => congrArg _ (learnHit_onItsPort h), fun h =>
        ⟨fun hfix => ⟨_, rfl, learnHit_fixed_shows h hfix⟩, fun hs hp hl => congrArg _ (learnHit_learned h hs hp hl),
          fun hs hp hl => congrArg _ (learnHit_software h hs hp hl)⟩⟩
  case second =>
    exact fun s hb hd he => ⟨_, exec_classifierSecond_due hb hd he, rfl, fun _ => mem_unaged, rfl⟩
  case pass =>
    rintro tb _ s rfl
    refine ⟨exec_shadowPassEnd_idle, fun h => ?_⟩
    rw [exec_shadowPassEnd_running h]
    by_cases hm : signature s tb = s.cls.expected.getD (tableIndex tb) []
    · obtain ⟨hrun, hdone, hbad⟩ := passEnded_complete s tb false
      rw [if_pos hm]
      exact ⟨_, rfl, rfl, hrun, hdone, rfl, fun _ => ⟨rfl, by simp [passEnded], hbad⟩, fun hne => absurd hm hne⟩
    · obtain ⟨hrun, hdone, hbad⟩ := passEnded_complete s tb true
      rw [if_neg hm]
      refine ⟨_, rfl, ?_⟩
      simp only [raise_cls]
      exact ⟨rfl, hrun, hdone, raise_frame _ _ _, fun heq => absurd heq hm, fun _ => ⟨hbad, rfl,
        fun hc => raise_pending_self _ hc (by decide)⟩⟩

end Sys2Proof.Machine

/-! PROOF. The slots of the key store: what a write of one leaves of the others, the effective state as a reading of the slots'
origins, and what stays of a slot when only its masks are drawn anew (R216, R221, R230, R232, R241, R242). -/

namespace Sys2Proof.Machine

/-! ### Effective state (R216) -/

/-- A slot without its row: every field but the masked value, the mask and the masked hash subkeys. -/
def rowless (x : KeySlot) : KeySlot := { x with masked := 0, mask := 0, maskedH256 := 0, maskedH128 := 0 }

theorem effState_parentless {s : State} {k : W16} (h : (slotOf s k).hasParent = false) : effState s k = (slotOf s k).state := by
  simp [effState, effStateN, h]

/-- The effective state is a reading of the slots without their rows. -/
theorem effStateN_congr {s t : State} (h : ∀ k, rowless (slotOf t k) = rowless (slotOf s k)) (n : Nat) (k : W16) :
    effStateN t n k = effStateN s n k := by
  have hstate (k : W16) : (slotOf t k).state = (slotOf s k).state := (congrArg KeySlot.state (h k) :)
  have hhas (k : W16) : (slotOf t k).hasParent = (slotOf s k).hasParent := (congrArg KeySlot.hasParent (h k) :)
  have hparent (k : W16) : (slotOf t k).parent = (slotOf s k).parent := (congrArg KeySlot.parent (h k) :)
  have hgen (k : W16) : (slotOf t k).generation = (slotOf s k).generation := (congrArg KeySlot.generation (h k) :)
  have hseen (k : W16) : (slotOf t k).parentGen = (slotOf s k).parentGen := (congrArg KeySlot.parentGen (h k) :)
  induction n generalizing k with
  | zero => exact hstate k
  | succ n ih => simp only [effStateN, hstate, hhas, hparent, hgen, hseen, ih]

/-! ### The same keys under other masks (R230) -/

/-- Every slot of `t` has the value, the hash subkeys and the other fields that it has in `s`. -/
structure SameKeys (s t : State) : Prop where
  value : ∀ k, slotValue t k = slotValue s k
  h256 : ∀ k, slotH256 t k = slotH256 s k
  h128 : ∀ k, slotH128 t k = slotH128 s k
  fields : ∀ k, rowless (slotOf t k) = rowless (slotOf s k)

theorem SameKeys.trans {a b c : State} (h : SameKeys a b) (k : SameKeys b c) : SameKeys a c where
  value j := (k.value j).trans (h.value j)
  h256 j := (k.h256 j).trans (h.h256 j)
  h128 j := (k.h128 j).trans (h.h128 j)
  fields j := (k.fields j).trans (h.fields j)

theorem SameKeys.of_slots {s t : State} (hs : t.keys.slots = s.keys.slots) (hc : t.keys.copies = s.keys.copies) : SameKeys s t := by
  have hslot (k : W16) : slotOf t k = slotOf s k := by rw [slotOf, hs]; rfl
  have hpair (k : W16) : pairOf t k = pairOf s k := by rw [pairOf, hc]; rfl
  exact ⟨fun k => by rw [slotValue, hslot, hpair]; rfl, fun k => by rw [slotH256, hslot]; rfl,
    fun k => by rw [slotH128, hslot]; rfl, fun k => by rw [hslot]⟩

theorem SameKeys.effState {s t : State} (h : SameKeys s t) (k : W16) : effState t k = Machine.effState s k :=
  effStateN_congr h.fields 5 k

/-- The row of a slot under another mask. -/
def remasked (s : State) (k : W16) (m : KeyVal) : KeySlot :=
  { slotOf s k with
    masked := slotValue s k ^^^ m, mask := m, maskedH256 := slotH256 s k ^^^ m.extractLsb' 128 128
    maskedH128 := slotH128 s k ^^^ m.extractLsb' 0 128 }

theorem xor_mask_cancel {w : Nat} (v m : BitVec w) : v ^^^ m ^^^ m = v := by
  rw [BitVec.xor_assoc, BitVec.xor_self, BitVec.xor_zero]

/-- A main row written under another mask holds the same key. -/
theorem setSlot_remasked_sameKeys {s : State} {k : W16} (hk : refRetention k = false) (m : KeyVal) :
    SameKeys s (setSlot s k (remasked s k m)) := by
  have hother {j : W16} (h : j ≠ k) : slotOf (setSlot s k (remasked s k m)) j = slotOf s j := slotOf_setSlot_ne h
  refine ⟨fun j => ?value, fun j => ?h256, fun j => ?h128, fun j => ?fields⟩
  case value =>
    rcases eq_or_ne j k with rfl | h
    · rw [slotValue, hk, if_neg Bool.false_ne_true, slotOf_setSlot_same]
      exact xor_mask_cancel ..
    · rw [slotValue, hother h]; rfl
  case h256 =>
    rcases eq_or_ne j k with rfl | h
    · rw [slotH256, slotOf_setSlot_same]; exact xor_mask_cancel ..
    · rw [slotH256, hother h]; rfl
  case h128 =>
    rcases eq_or_ne j k with rfl | h
    · rw [slotH128, slotOf_setSlot_same]; exact xor_mask_cancel ..
    · rw [slotH128, hother h]; rfl
  case fields =>
    rcases eq_or_ne j k with rfl | h
    · rw [slotOf_setSlot_same]; rfl
    · rw [hother h]

end Sys2Proof.Machine

/-! PROOF. The remasking sweep and its periods (R230, R232, R233, Table 12.6). -/

namespace Sys2Proof.Machine

/-! ### The mask pool and the rows (R232, R238) -/

/-- A request changes the DRBG only. -/
theorem draw_setDrbg (s : State) (n : Nat) : ∃ d, (draw s n).2 = setDrbg s d ∧ d.requests = s.keys.drbg.requests + 1 := ⟨_, rfl, rfl⟩

theorem maskPool_setDrbg (n : Nat) (s : State) : ∃ d, (maskPool n s).2 = setDrbg s d := by
  induction n generalizing s with
  | zero => exact ⟨s.keys.drbg, rfl⟩
  | succ n ih =>
    obtain ⟨d, hd, -⟩ := draw_setDrbg s 65536
    obtain ⟨e, he⟩ := ih (setDrbg s d)
    refine ⟨e, ?_⟩
    rw [maskPool, hd]
    exact he

theorem remaskRows_cons (k : W16) (ks : List W16) (pool : Bytes) (s : State) : remaskRows (k :: ks) pool s =
    remaskRows ks (pool.drop 32) (setSlot s k (remasked s k (BitVec.ofNat 256 (beNat (pool.take 32))))) := rfl

theorem remaskRows_frame (ks : List W16) (pool : Bytes) (s : State) :
    remaskRows ks pool s = { s with keys := (remaskRows ks pool s).keys } := by
  induction ks generalizing pool s with
  | nil => rfl
  | cons k ks ih => rw [remaskRows_cons, ih]; rfl

theorem remaskRows_sameKeys {ks : List W16} (hks : ∀ k ∈ ks, refRetention k = false) (pool : Bytes) (s : State) :
    SameKeys s (remaskRows ks pool s) := by
  induction ks generalizing pool s with
  | nil => exact .of_slots rfl rfl
  | cons k ks ih =>
    obtain ⟨hk, hrest⟩ := List.forall_mem_cons.1 hks
    rw [remaskRows_cons]
    exact (setSlot_remasked_sameKeys hk _).trans (ih hrest _ _)

/-- A sweep visits main slots only: the Retention Bank keeps its copies. -/
theorem sweptSlots_main {s : State} {k : W16} (h : k ∈ sweptSlots s) : refRetention k = false := by
  have hk := (List.mem_filter.1 h).2
  simp only [Bool.and_eq_true, Bool.not_eq_true'] at hk
  exact hk.1

/-! ### The sweep -/

/-- A sweep may run: it is due, has its grant, and the DRBG serves every request it makes. -/
def SweepRuns (s : State) : Prop :=
  s.keys.remaskDue = true ∧ grantHeld s .remask = true ∧ drbgReady s = true ∧ s.keys.drbg.requests + sweepRequests s ≤ 2 ^ 20

/-- The rows of every slot of the sweep under masks of the pool. -/
def sweptRows (s : State) : State :=
  remaskRows (sweptSlots s) (maskPool (sweepRequests s) s).1 (maskPool (sweepRequests s) s).2

/-- The sweep is counted, its grant given back, and no period counts as missed. -/
def sweepEnded (s : State) : State :=
  setKeys (releaseGrant (bump s 0x3806 2) .remask) { s.keys with remaskMissed := 0, remaskDue := false, remaskOverdue := false }

theorem exec_remaskingSweep_runs {s : State} (h : SweepRuns s) : exec .remaskingSweep s = .next (sweepEnded (sweptRows s)) := by
  obtain ⟨hdue, hgrant, hready, hroom⟩ := h
  rw [exec, execRemaskingSweep, if_pos]
  · rfl
  · simp only [hdue, hgrant, hready, hroom, decide_true, Bool.and_self]

theorem exec_remaskingSweep_waits {s : State} (h : ¬SweepRuns s) : exec .remaskingSweep s = .next s := by
  rw [exec, execRemaskingSweep, if_neg]
  simpa only [SweepRuns, Bool.and_eq_true, decide_eq_true_eq, and_assoc] using h

theorem sweptRows_frame (s : State) : sweptRows s = { s with keys := (sweptRows s).keys } := by
  obtain ⟨d, hd⟩ := maskPool_setDrbg (sweepRequests s) s
  rw [sweptRows, hd, remaskRows_frame]
  rfl

theorem sweptRows_sameKeys (s : State) : SameKeys s (sweptRows s) := by
  obtain ⟨d, hd⟩ := maskPool_setDrbg (sweepRequests s) s
  have hpool : SameKeys s (setDrbg s d) := .of_slots rfl rfl
  rw [sweptRows, hd]
  exact hpool.trans (remaskRows_sameKeys (fun k => sweptSlots_main) _ _)

theorem sweepEnded_sameKeys (s : State) : SameKeys s (sweepEnded s) := .of_slots rfl rfl

/-! ### The periods (R233) -/

/-- A period has ended: a sweep is due. -/
def periodEnded (s : State) : State :=
  setKeys s { s.keys with
    remaskStart := s.now, remaskMissed := s.keys.remaskMissed + 1, remaskDue := true
    remaskOverdue := s.keys.remaskOverdue || (decide (4 ≤ s.keys.remaskMissed + 1) && !s.keys.remaskOverdue) }

theorem exec_remaskPeriodExpiry_due {s : State} (hr : drbgReady s = true)
    (he : elapsed s s.keys.remaskStart (msCycles (regN s 0x3806 1)) = true) : exec .remaskPeriodExpiry s =
      .next (if 4 ≤ s.keys.remaskMissed + 1 ∧ s.keys.remaskOverdue = false then
          raise (requestGrant (periodEnded s) .remask false) 66 0
        else requestGrant (periodEnded s) .remask false) := by
  simp [exec, execRemaskPeriodExpiry, hr, he, periodEnded, evRemaskOverdue]

theorem exec_remaskPeriodExpiry_early {s : State} (h : drbgReady s = false ∨
    elapsed s s.keys.remaskStart (msCycles (regN s 0x3806 1)) = false) : exec .remaskPeriodExpiry s = .next s := by
  rcases h with h | h <;> simp [exec, execRemaskPeriodExpiry, h]

/-- Settles O44: a sweep writes main rows under new masks and nothing else of a slot; a period asks for one. -/
theorem remaskingChangesNoKey : Obligations.RemaskingChangesNoKey := by
  refine ⟨fun s hdue hgrant hready hroom => ?sweeps, fun s h => exec_remaskingSweep_waits ?waits,
    fun s hr he hc => ?period, fun s => exec_remaskPeriodExpiry_early⟩
  case sweeps =>
    have same := (sweptRows_sameKeys s).trans (sweepEnded_sameKeys _)
    refine ⟨_, exec_remaskingSweep_runs ⟨hdue, hgrant, hready, hroom⟩,
      fun k => ⟨same.value k, same.h256 k, same.h128 k, same.effState k, same.fields k⟩, ?_, releaseGrant_gone _ _, rfl, rfl, rfl, ?_⟩
    · exact (ctr_bump_same (sweptRows s) 0x3806 2).trans (by rw [sweptRows_frame]; rfl)
    · rw [sweptRows_frame]; rfl
  case waits =>
    rintro ⟨hdue, hgrant, hready, hroom⟩
    rcases h with h | h | h | h
    · simp [hdue] at h
    · simp [hgrant] at h
    · simp [hready] at h
    · omega
  case period =>
    have asked := requestGrant_asked (periodEnded s) .remask false
    rw [exec_remaskPeriodExpiry_due hr he]
    split
    · next hlate =>
      refine ⟨_, rfl, ?_⟩
      simp only [raise_keys, grantHeld, grantQueued, raise_grants, requestGrant_keys]
      refine ⟨rfl, rfl, rfl, asked, fun _ _ => ⟨?_, raise_pending_self _ ?_ (by decide)⟩, fun h => ?_⟩
      · simp [periodEnded, hlate]
      · rw [ctlOn_requestGrant]; exact hc
      · obtain ⟨hlate, hfirst⟩ := hlate
        rcases h with h | h
        · omega
        · simp [hfirst] at h
    · next hlate =>
      refine ⟨_, rfl, ?_⟩
      simp only [requestGrant_keys, requestGrant_events]
      exact ⟨rfl, rfl, rfl, asked, fun h h' => absurd ⟨h, h'⟩ hlate, fun _ => rfl⟩

end Sys2Proof.Machine

/-! PROOF. Commits and stagings of a key slot: what a commit leaves of its slot, of the others and of the DRBG, and what a target
that is staged, or returned to its state before, leaves of them (R213, R220 to R222, R229, R241, R242). -/

namespace Sys2Proof.Machine

/-! ### A slot enters STAGED and leaves it (R213) -/

theorem slotOf_stage_same (s : State) (k : W16) :
    slotOf (stage s k) k = { slotOf s k with state := .staged, before := effState s k } := slotOf_setSlot_same _ _ _

theorem slotOf_stage_ne {s : State} {k j : W16} (h : j ≠ k) : slotOf (stage s k) j = slotOf s j := slotOf_setSlot_ne h

/-- A STAGED slot that is staged again stays STAGED. -/
theorem stage_keeps_staged {s : State} {j : W16} (k : W16) (h : (slotOf s j).state = .staged) :
    (slotOf (stage s k) j).state = .staged := by
  rcases eq_or_ne j k with rfl | hne
  · rw [slotOf_stage_same]
  · rw [slotOf_stage_ne hne, h]

section
variable (f : Nat → W16) (l : List Nat)

theorem foldl_stage_keeps_staged {s : State} {k : W16} (h : (slotOf s k).state = .staged) :
    (slotOf (l.foldl (fun s j => stage s (f j)) s) k).state = .staged := by
  induction l generalizing s with
  | nil => exact h
  | cons i l ih => exact ih (stage_keeps_staged (f i) h)

theorem foldl_stage_staged {j : Nat} (s : State) (hj : j ∈ l) :
    (slotOf (l.foldl (fun s j => stage s (f j)) s) (f j)).state = .staged := by
  induction l generalizing s with
  | nil => cases hj
  | cons i l ih =>
    rcases List.mem_cons.1 hj with rfl | hj
    · exact foldl_stage_keeps_staged f l (by rw [slotOf_stage_same])
    · exact ih _ hj

theorem slotOf_foldl_stage_of_not_mem {k : W16} (s : State) (hk : ∀ j ∈ l, k ≠ f j) :
    slotOf (l.foldl (fun s j => stage s (f j)) s) k = slotOf s k := by
  induction l generalizing s with
  | nil => rfl
  | cons i l ih =>
    obtain ⟨hi, hl⟩ := List.forall_mem_cons.1 hk
    rw [List.foldl_cons, ih _ hl, slotOf_stage_ne hi]

theorem foldl_stage_frame (s : State) : l.foldl (fun s j => stage s (f j)) s = { s with keys := { s.keys with
    slots := (l.foldl (fun s j => stage s (f j)) s).keys.slots
    before := (l.foldl (fun s j => stage s (f j)) s).keys.before } } := by
  induction l generalizing s with
  | nil => rfl
  | cons i l ih => rw [List.foldl_cons, ih]; rfl

end

theorem slotOf_unstage_staged {s : State} {k : W16} (h : (slotOf s k).state = .staged) :
    slotOf (unstage s k) k = { slotOf s k with state := (slotOf s k).before, before := .empty } := by
  simp [unstage, h]

/-! ### A value under a mask (R221, R230) -/

theorem slotValue_main {s : State} {k : W16} (h : refRetention k = false) :
    slotValue s k = (slotOf s k).masked ^^^ (slotOf s k).mask := by
  rw [slotValue, h]; rfl

theorem copyValue_copyWith (v m : KeyVal) (g : Bool) (o : Origin) (n : W16) : copyValue (copyWith v m g o n) = v :=
  xor_mask_cancel v m

theorem copyGood_copyWith (v m : KeyVal) (g : Bool) (o : Origin) (n : W16) : copyGood (copyWith v m g o n) = true := by
  rw [copyGood, copyValue_copyWith]
  simp [copyWith]

/-- The value of the newest good copy of a pair (R241). -/
def pairValue (p : RetPair) : KeyVal :=
  match newestIsA p with
  | some true => copyValue p.a
  | some false => copyValue p.b
  | none => 0

theorem slotValue_retention {s : State} {k : W16} (h : refRetention k = true) : slotValue s k = pairValue (pairOf s k) := by
  rw [slotValue, h]; rfl

theorem copyGood_of_newestIsA {p : RetPair} (h : newestIsA p = some true) : copyGood p.a = true := by
  by_contra hbad
  rw [newestIsA, Bool.eq_false_iff.2 hbad] at h
  cases hb : copyGood p.b <;> simp [hb] at h

theorem newestIsA_writtenA (p : RetPair) {c : RetCopy} (hc : copyGood c = true) (hg : c.gen = !p.b.gen) :
    newestIsA { p with a := c } = some true := by
  cases hb : copyGood p.b <;> simp [newestIsA, hc, hb, hg]

theorem newestIsA_writtenB {p : RetPair} {c : RetCopy} (h : newestIsA p = some true) (hc : copyGood c = true)
    (hg : c.gen = p.a.gen) : newestIsA { p with b := c } = some false := by
  simp [newestIsA, hc, hg, copyGood_of_newestIsA h]

/-- The copy that a commit writes is the newest good one (R242). -/
theorem pairValue_commitPair (p : RetPair) (v m : KeyVal) (o : Origin) (n : W16) : pairValue (commitPair p v m o n) = v := by
  by_cases h : newestIsA p = some true
  · have hpair : commitPair p v m o n = { p with b := copyWith v m p.a.gen o n } := by rw [commitPair, h]
    rw [hpair, pairValue, newestIsA_writtenB h (copyGood_copyWith ..) rfl]
    exact copyValue_copyWith ..
  · have hpair : commitPair p v m o n = { p with a := copyWith v m (!p.b.gen) o n } := by
      rw [commitPair]
      split
      · contradiction
      · rfl
    have hnew := newestIsA_writtenA p (copyGood_copyWith v m (!p.b.gen) o n) rfl
    rw [hpair, pairValue, hnew]
    exact copyValue_copyWith ..

/-! ### A commit (R221, R222, R242) -/

@[simp] theorem slotOf_setPair (s : State) (k j : W16) (p : RetPair) : slotOf (setPair s k p) j = slotOf s j := rfl

@[simp] theorem pairOf_setPair_same (s : State) (k : W16) (p : RetPair) : pairOf (setPair s k p) k = p := spGet_spSet_same ..

section
variable (s : State) (k : W16) (v : KeyVal) (o : Origin)

/-- A commit under a mask `m`, the DRBG being `d` after the request for it. -/
def commitUnder (m : KeyVal) (d : Drbg) : State :=
  let s1 := bump (setDrbg s d) 0x380A 1
  let x := committed (slotOf s k) o
  if refRetention k then setPair (setSlot s1 k (rowless x)) k (commitPair (pairOf s k) v m o x.generation)
  else setSlot s1 k (rowWith x v m (o.usage == .data))

/-- A commit draws its mask by one request (R221, R238). -/
theorem commitValue_eq : ∃ m d, d.requests = s.keys.drbg.requests + 1 ∧ commitValue s k v o = commitUnder s k v o m d := by
  obtain ⟨d, hd, hn⟩ := draw_setDrbg s 32
  refine ⟨BitVec.ofNat 256 (beNat (draw s 32).1), d, hn, ?_⟩
  unfold commitValue
  generalize draw s 32 = r at hd
  obtain ⟨bytes, t⟩ := r
  obtain rfl : t = setDrbg s d := hd
  rfl

section
variable (m : KeyVal) (d : Drbg)

theorem commitUnder_main {k : W16} (h : refRetention k = false) : commitUnder s k v o m d =
    setSlot (bump (setDrbg s d) 0x380A 1) k (rowWith (committed (slotOf s k) o) v m (o.usage == .data)) := by
  rw [commitUnder, h]; rfl

theorem commitUnder_retention {k : W16} (h : refRetention k = true) : commitUnder s k v o m d =
    setPair (setSlot (bump (setDrbg s d) 0x380A 1) k (rowless (committed (slotOf s k) o))) k
      (commitPair (pairOf s k) v m o ((slotOf s k).generation + 1)) := by
  rw [commitUnder, h]; rfl

end

/-- A commit changes the slots, the copies, the DRBG and the counter of commits. -/
theorem commitValue_frame : commitValue s k v o = { s with
    ctrs := (bump s 0x380A 1).ctrs
    keys := { s.keys with
      slots := (commitValue s k v o).keys.slots, before := (commitValue s k v o).keys.before
      copies := (commitValue s k v o).keys.copies, drbg := (commitValue s k v o).keys.drbg } } := by
  obtain ⟨m, d, -, he⟩ := commitValue_eq s k v o
  rw [he]
  cases h : refRetention k
  · rw [commitUnder_main s v o m d h]; rfl
  · rw [commitUnder_retention s v o m d h]; rfl

theorem commitValue_deriveDone : (commitValue s k v o).keys.deriveDone = s.keys.deriveDone := by rw [commitValue_frame]

theorem commitValue_grants : (commitValue s k v o).grants = s.grants := by rw [commitValue_frame]

theorem ctr_commitValue {i j : Nat} (h : oa i j ≠ oa 0x380A 1) : ctr (commitValue s k v o) i j = ctr s i j := by
  have hctrs : (commitValue s k v o).ctrs = (bump s 0x380A 1).ctrs := by rw [commitValue_frame]
  rw [ctr, hctrs]
  exact ctr_bumpBy_ne s 0x380A 1 1 i j h

theorem commitValue_requests : (commitValue s k v o).keys.drbg.requests = s.keys.drbg.requests + 1 := by
  obtain ⟨m, d, hn, he⟩ := commitValue_eq s k v o
  rw [he, ← hn]
  cases h : refRetention k
  · rw [commitUnder_main s v o m d h]; rfl
  · rw [commitUnder_retention s v o m d h]; rfl

theorem slotOf_commitValue_ne {k j : W16} (hj : j ≠ k) : slotOf (commitValue s k v o) j = slotOf s j := by
  obtain ⟨m, d, -, he⟩ := commitValue_eq s k v o
  rw [he]
  cases h : refRetention k
  · rw [commitUnder_main s v o m d h, slotOf_setSlot_ne hj]; rfl
  · rw [commitUnder_retention s v o m d h, slotOf_setPair, slotOf_setSlot_ne hj]; rfl

/-- The metadata of a committed slot, in either bank. -/
theorem rowless_commitValue : rowless (slotOf (commitValue s k v o) k) = rowless (committed (slotOf s k) o) := by
  obtain ⟨m, d, -, he⟩ := commitValue_eq s k v o
  rw [he]
  cases h : refRetention k
  · rw [commitUnder_main s v o m d h, slotOf_setSlot_same]; rfl
  · rw [commitUnder_retention s v o m d h, slotOf_setPair, slotOf_setSlot_same]; rfl

/-- A committed value reads back exactly. -/
theorem slotValue_commitValue : slotValue (commitValue s k v o) k = v := by
  obtain ⟨m, d, -, he⟩ := commitValue_eq s k v o
  rw [he]
  cases h : refRetention k
  · rw [slotValue_main h, commitUnder_main s v o m d h, slotOf_setSlot_same]
    exact xor_mask_cancel v m
  · rw [slotValue_retention h, commitUnder_retention s v o m d h, pairOf_setPair_same, pairValue_commitPair]

/-- The hash subkeys of a committed main DATA key (R221). -/
theorem subkeys_commitValue {k : W16} (h : refRetention k = false) (hu : o.usage = .data) :
    slotH256 (commitValue s k v o) k = subkey256 v ∧ slotH128 (commitValue s k v o) k = subkey128 v := by
  obtain ⟨m, d, -, he⟩ := commitValue_eq s k v o
  rw [he, slotH256, slotH128, commitUnder_main s v o m d h, slotOf_setSlot_same, hu]
  exact ⟨xor_mask_cancel .., xor_mask_cancel ..⟩

end

end Sys2Proof.Machine

/-! PROOF. Derivation batches: their start, the commit of each target, and their end (R213, R225, R227, R229, R430, Table 6.7). -/

namespace Sys2Proof.Machine

/-! ### The end of a batch (R229) -/

theorem unstage_slots_frame (s : State) (k : W16) : unstage s k =
    { s with keys := { s.keys with slots := (unstage s k).keys.slots, before := (unstage s k).keys.before } } := by
  unfold unstage; dsimp only; split <;> rfl

theorem foldl_unstage_slots_frame (f : Nat → W16) (l : List Nat) (s : State) :
    l.foldl (fun s j => unstage s (f j)) s = { s with keys := { s.keys with
      slots := (l.foldl (fun s j => unstage s (f j)) s).keys.slots
      before := (l.foldl (fun s j => unstage s (f j)) s).keys.before } } := by
  induction l generalizing s with
  | nil => rfl
  | cons i l ih => rw [List.foldl_cons, ih, unstage_slots_frame]

section
variable {s : State} {b : Batch} (h : s.keys.batch = some b) (c : BitVec 4)
include h

theorem endBatch_deriveDone : (endBatch s c).keys.deriveDone = s.keys.deriveDone := by
  simp only [endBatch, h]
  rw [foldl_unstage_slots_frame]
  rfl

theorem endBatch_gone : grantHeld (endBatch s c) .derivation = false := by
  rw [endBatch_frame, if_neg (by simp [h])]
  exact releaseGrant_gone s .derivation

/-- A batch without a target left returns no slot. -/
theorem endBatch_complete (hn : b.next = b.count) : endBatch s c =
    setKeys (releaseGrant s .derivation) { s.keys with batch := none, deriveCode := c } := by
  have hrest : (List.range b.count).drop b.next = [] := by simp [hn]
  simp only [endBatch, h, hrest]
  rfl

end

/-! ### A start (R227) -/

/-- The batch that a start records. -/
def startedBatch (s : State) : Batch :=
  { source := deriveSource s, parent := deriveParent s, first := deriveFirst s, count := deriveCount s, next := 0
    purpose := (reg s 0x3804 4).setWidth 32, label := s.keys.label, context := s.keys.context }

/-- Every target of the registers is STAGED. -/
def targetsStaged (s : State) : State :=
  (List.range (deriveCount s)).foldl (fun t j => stage t (batchTarget (startedBatch s) j)) s

def batchStarted (s : State) : State :=
  setKeys (targetsStaged s) { (targetsStaged s).keys with batch := some (startedBatch s), deriveDone := 0, deriveCode := 0 }

/-- A batch of two or more targets waits for its grant (R430). -/
def batchAsked (s : State) : State :=
  if 2 ≤ deriveCount s then requestGrant (batchStarted s) .derivation false else batchStarted s

theorem deriveCommand_start (s : State) : deriveCommand [1] s = deriveStart s := rfl

theorem deriveStart_refused {s : State} {c : BitVec 4} (h : deriveRefusal s = some c) :
    deriveStart s = (setKeys s { s.keys with deriveCode := c }, some errState) := by
  simp only [deriveStart, h]; rfl

theorem deriveStart_starts {s : State} (h : deriveRefusal s = none) : deriveStart s = (batchAsked s, none) := by
  simp only [deriveStart, h]; rfl

theorem targetsStaged_frame (s : State) : targetsStaged s = { s with keys := { s.keys with
    slots := (targetsStaged s).keys.slots, before := (targetsStaged s).keys.before } } :=
  foldl_stage_frame (batchTarget (startedBatch s)) _ s

theorem batchStarted_frame (s : State) : batchStarted s = { s with keys := (batchStarted s).keys } := by
  rw [batchStarted, targetsStaged_frame]; rfl

theorem batchAsked_frame (s : State) : batchAsked s =
    { s with keys := (batchStarted s).keys, grants := (batchAsked s).grants } := by
  rw [batchAsked]
  split
  · rw [requestGrant_frame, batchStarted_frame]
  · rw [batchStarted_frame]

theorem batchAsked_keys (s : State) : (batchAsked s).keys = (batchStarted s).keys := by rw [batchAsked_frame]

theorem slotOf_batchAsked (s : State) (k : W16) : slotOf (batchAsked s) k = slotOf (targetsStaged s) k := by
  rw [slotOf, batchAsked_keys]; rfl

/-! ### A target (R225, R227, R228) -/

section
variable {s : State} {b : Batch} (d : KeyVal)

theorem exec_derivationTargetCommit_idle
    (h : s.keys.batch = none ∨ ∃ b, s.keys.batch = some b ∧ 2 ≤ b.count ∧ grantHeld s .derivation = false) :
    exec .derivationTargetCommit s = .next s := by
  rw [exec, execDerivationTargetCommit]
  rcases h with h | ⟨b, h, hn, hg⟩
  · simp only [h]
  · simp [h, hn, hg]

theorem exec_derivationTargetCommit_served (h : s.keys.batch = some b) (hg : 2 ≤ b.count → grantHeld s .derivation = true)
    (hd : drbgServes s = true) : exec .derivationTargetCommit s = .next (commitTarget s b (s.keys.drs.getD 0)) := by
  have hwait : ((2 ≤ b.count && !grantHeld s .derivation) || !drbgServes s) = false := by
    simpa [hd] using hg
  simp only [exec, execDerivationTargetCommit, h, hwait, Bool.false_eq_true, if_false]

/-- The batch records and counts a target that has its value (R227). -/
def targetCounted (c : State) (b : Batch) : State :=
  setKeys (bump c 0x380A 4) { c.keys with batch := some { b with next := b.next + 1 }, deriveDone := c.keys.deriveDone + 1 }

theorem targetCounted_deriveDone (c : State) (b : Batch) : (targetCounted c b).keys.deriveDone = c.keys.deriveDone + 1 := rfl

theorem targetCounted_grants (c : State) (b : Batch) : (targetCounted c b).grants = c.grants := rfl

theorem targetCounted_ctr (c : State) (b : Batch) : ctr (targetCounted c b) 0x380A 4 = satAdd64 (ctr c 0x380A 4) 1 :=
  ctr_bump_same c 0x380A 4

theorem targetCounted_sameKeys (c : State) (b : Batch) : SameKeys c (targetCounted c b) := .of_slots rfl rfl

/-- The next target of the batch is committed with its value, and counted. -/
def targetCommitted (s : State) (b : Batch) (d : KeyVal) : State :=
  targetCounted (commitValue s (batchTarget b b.next) (targetValue s b d) (batchOrigin s b)) b

theorem commitTarget_orphan (hs : b.source = false) (hp : effState s b.parent ≠ .live) : commitTarget s b d = endBatch s 9 := by
  simp [commitTarget, hs, hp]

theorem commitTarget_live (h : b.source = true ∨ effState s b.parent = .live) : commitTarget s b d =
    if b.next + 1 = b.count then endBatch (targetCommitted s b d) 0 else targetCommitted s b d := by
  have hgo : (!b.source && !(effState s b.parent == .live)) = false := by rcases h with h | h <;> simp [h]
  rw [commitTarget, hgo]; rfl

/-- The next target of the batch holds its derived value and origin in `t`, and is counted. -/
structure Filled (s : State) (b : Batch) (d : KeyVal) (t : State) : Prop where
  value : slotValue t (batchTarget b b.next) = targetValue s b d
  fields : rowless (slotOf t (batchTarget b b.next)) =
    rowless (committed (slotOf s (batchTarget b b.next)) (batchOrigin s b))
  deriveDone : t.keys.deriveDone = s.keys.deriveDone + 1
  counted : ctr t 0x380A 4 = satAdd64 (ctr s 0x380A 4) 1

theorem targetCommitted_filled (s : State) (b : Batch) (d : KeyVal) : Filled s b d (targetCommitted s b d) where
  value := by rw [targetCommitted, (targetCounted_sameKeys _ b).value, slotValue_commitValue]
  fields := by rw [targetCommitted, (targetCounted_sameKeys _ b).fields, rowless_commitValue]
  deriveDone := by rw [targetCommitted, targetCounted_deriveDone, commitValue_deriveDone]
  counted := by rw [targetCommitted, targetCounted_ctr, ctr_commitValue _ _ _ _ (by decide)]

theorem targetCommitted_grants : (targetCommitted s b d).grants = s.grants := by
  rw [targetCommitted, targetCounted_grants, commitValue_grants]

/-- What ends a batch leaves its last target as it is. -/
theorem Filled.ended {t : State} (h : Filled s b d t) (c : BitVec 4) :
    Filled s b d (setKeys (releaseGrant t .derivation) { t.keys with batch := none, deriveCode := c }) :=
  have same : SameKeys t (setKeys (releaseGrant t .derivation) { t.keys with batch := none, deriveCode := c }) := .of_slots rfl rfl
  ⟨(same.value _).trans h.value, (same.fields _).trans h.fields, h.deriveDone, h.counted⟩

theorem commitTarget_filled (h : b.source = true ∨ effState s b.parent = .live) : Filled s b d (commitTarget s b d) := by
  have filled := targetCommitted_filled s b d
  rw [commitTarget_live d h]
  split
  · next hlast =>
    rw [endBatch_complete (b := { b with next := b.next + 1 }) rfl 0 hlast]
    exact filled.ended d 0
  · exact filled

theorem batchOrigin_source : (batchOrigin s b).hasParent = !b.source ∧ (batchOrigin s b).fromDrs = b.source := by
  cases h : b.source <;> simp [batchOrigin, h]

theorem batchOrigin_child (h : b.source = false) : (batchOrigin s b).parent = b.parent ∧
    (batchOrigin s b).parentGen = (slotOf s b.parent).generation ∧ (batchOrigin s b).depth = (slotOf s b.parent).depth + 1 := by
  simp [batchOrigin, h]

end

/-- Settles O43: a start stages its targets one by one, and each commit fills the next of them or ends the batch. -/
theorem derivationsFillTheirTargets : Obligations.DerivationsFillTheirTargets := by
  refine ⟨fun sec priv s hw => ⟨fun c hc => ?refused, fun hc => ?starts⟩, ?target,
    fun s => exec_derivationTargetCommit_idle⟩
  case refused =>
    rw [exec, execDerivationStart, commandWrite_host_refused hw ((deriveCommand_start s).trans (deriveStart_refused hc))]
  case starts =>
    rw [exec, execDerivationStart, commandWrite_host_done hw ((deriveCommand_start s).trans (deriveStart_starts hc))]
    have hkeys : (hostDone (batchAsked s)).keys = (batchStarted s).keys := batchAsked_keys s
    have hslot (k : W16) : slotOf (hostDone (batchAsked s)) k = slotOf (targetsStaged s) k := slotOf_batchAsked s k
    refine ⟨_, startedBatch s, rfl, by rw [hkeys]; rfl, rfl, by rw [hkeys]; rfl, by rw [hkeys]; rfl, fun j hj => ?_,
      fun k hk => ?_, fun hn => ?_, congrArg hostDone ?_⟩
    · rw [hslot]
      exact foldl_stage_staged (batchTarget (startedBatch s)) _ s (List.mem_range.2 hj)
    · rw [hslot]
      exact slotOf_foldl_stage_of_not_mem (batchTarget (startedBatch s)) _ s fun j hj => hk j (List.mem_range.1 hj)
    · rw [batchAsked, if_pos hn]
      exact requestGrant_asked (batchStarted s) .derivation false
    · rw [hkeys]
      exact batchAsked_frame s
  case target =>
    rintro b s _ hb hn rfl hg hd
    rw [exec_derivationTargetCommit_served hb hg hd]
    refine ⟨fun hlive => ?fills, fun hs hp => ?orphan⟩
    case fills =>
      obtain ⟨value, fields, hdone, hcount⟩ := commitTarget_filled (s.keys.drs.getD 0) hlive
      obtain ⟨hhas, hdrs⟩ := batchOrigin_source (s := s) (b := b)
      refine ⟨_, rfl, value, (congrArg KeySlot.state fields :), (congrArg KeySlot.hasParent fields :).trans hhas,
        (congrArg KeySlot.fromDrs fields :).trans hdrs, fun hs => ?_, hdone, hcount, fun hmore => ?_, fun hlast => ?_⟩
      · obtain ⟨hparent, hgen, hdepth⟩ := batchOrigin_child (s := s) hs
        exact ⟨(congrArg KeySlot.parent fields :).trans hparent, (congrArg KeySlot.parentGen fields :).trans hgen,
          (congrArg KeySlot.depth fields :).trans hdepth⟩
      · rw [commitTarget_live _ hlive, if_neg (by omega)]
        exact ⟨rfl, targetCommitted_grants _⟩
      · rw [commitTarget_live _ hlive, if_pos hlast]
        exact ⟨endBatch_batch _ _, endBatch_deriveCode _ rfl, endBatch_gone rfl _⟩
    case orphan =>
      rw [commitTarget_orphan _ hs hp]
      exact ⟨_, rfl, endBatch_batch _ _, endBatch_deriveCode _ (by simp [hb]), endBatch_deriveDone hb _, endBatch_gone hb _⟩

end Sys2Proof.Machine

/-! PROOF. The key staging window: who may write it, a staging from its target to its commit, and how it ends (R213, R217 to R222,
Tables 6.3 and 6.4). -/

namespace Sys2Proof.Machine

/-! ### Reserved bits of a word (R10) -/

theorem land_bitsMask (v h l : Nat) : Nat.land v (bitsMask h l) = v / 2 ^ l % 2 ^ (h + 1 - l) * 2 ^ l := by
  refine Nat.eq_of_testBit_eq fun i => ?_
  change (v &&& (2 ^ (h + 1 - l) - 1) * 2 ^ l).testBit i = _
  simp only [Nat.testBit_and, Nat.testBit_mul_two_pow, Nat.testBit_two_pow_sub_one, Nat.testBit_mod_two_pow,
    Nat.testBit_div_two_pow]
  by_cases hi : l ≤ i
  · simp [hi, Nat.sub_add_cancel hi, Bool.and_comm]
  · simp [hi]

/-- The reserved bits of the target word (Table 6.3). -/
theorem land_targetReserved (v : W32) : Nat.land v.toNat (bitsMask 31 18) = 0 ↔ v.toNat < 2 ^ 18 := by
  have hv := v.isLt
  rw [land_bitsMask]
  norm_num
  omega

theorem and_low18 (v : W32) : (v &&& 0x3FFFF).toNat = v.toNat % 2 ^ 18 := by
  rw [BitVec.toNat_and]
  exact Nat.and_two_pow_sub_one_eq_mod v.toNat 18

/-! ### A write of a word of the window (R217) -/

/-- What the window answers to a write whose reserved bits are ignored. -/
def stagingAnswer (sec : Bool) (priv : BitVec 2) (eff : State → Ack) (s : State) : State :=
  let r := if sec && priv == 3 then eff s else refuse errMaster s
  hpAnswer (hpRespOf r.2) 0 (if r.2.isSome then countRefusal (.host sec priv) r.1 else r.1)

theorem stagingAnswer_otherMaster {sec : Bool} {priv : BitVec 2} (hm : sec = false ∨ priv ≠ 3) (eff : State → Ack) (s : State) :
    stagingAnswer sec priv eff s = hostRefused sec priv errMaster s := by
  have hno : (sec && priv == 3) = false := by
    rcases hm with h | h
    · rw [h, Bool.false_and]
    · rw [beq_eq_false_iff_ne.2 h, Bool.and_false]
  rw [stagingAnswer, hno]; rfl

section
variable {eff : State → Ack} {s t : State}

theorem stagingAnswer_done (he : eff s = (t, none)) : stagingAnswer true 3 eff s = hostDone t := by
  simp only [stagingAnswer, BEq.rfl, Bool.and_self, if_true, he]; rfl

theorem stagingAnswer_refused {c : W32} (he : eff s = (t, some c)) : stagingAnswer true 3 eff s = hostRefused true 3 c t := by
  simp only [stagingAnswer, BEq.rfl, Bool.and_self, if_true, he]; rfl

variable {sec : Bool} {priv : BitVec 2} {resv : Nat} {v : W32} (hr : hpReady s = true)
include hr

theorem stagingWrite_clean (hv : Nat.land v.toNat resv = 0) :
    stagingWrite (.host sec priv) resv v eff s = stagingAnswer sec priv eff s := by
  simp only [stagingWrite, hr, hv, Bool.not_true, Bool.false_eq_true, if_false, ne_eq, not_true_eq_false]
  rfl

/-- Reserved bits that are set are counted and ignored (R10). -/
theorem stagingWrite_stray (hv : Nat.land v.toNat resv ≠ 0) :
    stagingWrite (.host sec priv) resv v eff s = stagingAnswer sec priv eff (bump s 0x2002 3) := by
  simp only [stagingWrite, hr, Bool.not_true, Bool.false_eq_true, if_false, if_pos hv]
  rfl

end

/-! ### The words of the window as the host writes them -/

theorem openStaging_low18 (v : W32) : openStaging (v &&& 0x3FFFF) = openStaging v := by
  have hlow := and_low18 v
  have hkey : (v &&& 0x3FFFF).extractLsb' 0 16 = v.extractLsb' 0 16 := by
    apply BitVec.eq_of_toNat_eq
    simp only [BitVec.extractLsb'_toNat, hlow, Nat.shiftRight_zero]
    omega
  have husage : field (v &&& 0x3FFFF) 17 16 = field v 17 16 := by
    simp only [field, hlow]
    omega
  funext s
  simp only [openStaging, hkey, husage]

section
variable {s : State} {sec : Bool} {priv : BitVec 2} (hr : hpReady s = true)
include hr

theorem exec_stagingOpen_clean {v : W32} (hv : v.toNat < 2 ^ 18) :
    exec (.stagingOpen (.host sec priv) v) s = .next (stagingAnswer sec priv (openStaging v) s) :=
  congrArg _ (stagingWrite_clean hr ((land_targetReserved v).2 hv))

theorem exec_stagingOpen_stray {v : W32} (hv : 2 ^ 18 ≤ v.toNat) :
    exec (.stagingOpen (.host sec priv) v) s = .next (stagingAnswer sec priv (openStaging v) (bump s 0x2002 3)) :=
  congrArg _ (stagingWrite_stray hr (by rw [ne_eq, land_targetReserved]; omega))

theorem exec_stagingWordWrite (w : Fin 9) (v : W32) :
    exec (.stagingWordWrite (.host sec priv) w v) s = .next (stagingAnswer sec priv (writeStagingWord w v) s) :=
  congrArg _ (stagingWrite_clean hr (Nat.and_zero _))

theorem exec_commit : exec (.commit (.host sec priv)) s = .next (stagingAnswer sec priv commitStaging s) :=
  congrArg _ (stagingWrite_clean hr (by decide))

theorem exec_abort : exec (.abort (.host sec priv)) s = .next (stagingAnswer sec priv abortByCommand s) :=
  congrArg _ (stagingWrite_clean hr (by decide))

end

/-! ### A target (R219) -/

section
variable {s : State} {v : W32}

/-- The staging that a target word opens. -/
def openedStaging (s : State) (v : W32) : Staging :=
  { target := v.extractLsb' 0 16, usage := usageOf (field v 17 16), value := List.replicate 8 none, check := none, since := s.now }

def stagingOpened (s : State) (v : W32) : State :=
  setKeys (stage s (v.extractLsb' 0 16)) { (stage s (v.extractLsb' 0 16)).keys with
    staging := some (openedStaging s v), stagingCode := 1, stagingSlot := v.extractLsb' 0 16 }

theorem usage_ne_three (hv : v.toNat < 3 * 2 ^ 16) : field v 17 16 ≠ 3 := by
  simp only [field]; omega

variable (hv : v.toNat < 3 * 2 ^ 16) (hs : s.keys.staging = none)
include hv hs

theorem openStaging_opens (h : stagingRefusal s (v.extractLsb' 0 16) = none) : openStaging v s = (stagingOpened s v, none) := by
  simp only [openStaging, hs, Option.isSome_none, Bool.false_eq_true, if_false, usage_ne_three hv, h]
  rfl

theorem openStaging_refused {c : BitVec 4} (h : stagingRefusal s (v.extractLsb' 0 16) = some c) :
    openStaging v s = (setKeys s { s.keys with stagingCode := c }, some errState) := by
  have hclosed : s.keys.staging.isSome = false := by rw [hs]; rfl
  simp only [openStaging, hclosed, Bool.false_eq_true, if_false, usage_ne_three hv, h]
  rfl

end

/-! ### Words, commit and abort of an open staging (R217, R220 to R222) -/

/-- A staging with one word more. -/
def withWord (st : Staging) (w : Fin 9) (v : W32) : Staging :=
  if w.val = 8 then { st with check := some v } else { st with value := st.value.set w.val (some v) }

/-- A staging that ends with a count in 0x380A and an event (R220, R221). -/
def stagingFailed (s : State) (st : Staging) (c : BitVec 4) (sub src : Nat) : State :=
  raise (bump (abortStaging s c) 0x380A sub) src st.target.toNat

/-- No staging is open after a commit (R221). -/
def stagingClosed (t : State) : State := setKeys t { t.keys with staging := none, stagingCode := 0 }

/-- The staged value is committed to the target in the clear. -/
def stagingCommitted (s : State) (st : Staging) : State :=
  stagingClosed (commitValue s st.target (stagedValue st) (Origin.clear st.usage))

theorem slotOf_stagingClosed (t : State) (k : W16) : slotOf (stagingClosed t) k = slotOf t k := rfl

theorem stagingClosed_sameKeys (t : State) : SameKeys t (stagingClosed t) := .of_slots rfl rfl

theorem stagingClosed_requests (t : State) : (stagingClosed t).keys.drbg.requests = t.keys.drbg.requests := rfl

theorem stagingCommitted_frame (s : State) (st : Staging) : stagingCommitted s st =
    { s with keys := (stagingCommitted s st).keys, ctrs := (stagingCommitted s st).ctrs } := by
  rw [stagingCommitted, commitValue_frame]; rfl

section
variable {s : State} {st : Staging} (hs : s.keys.staging = some st)
include hs

theorem writeStagingWord_open (w : Fin 9) (v : W32) : writeStagingWord w v s =
    (setKeys s { s.keys with staging := some (withWord st w v), stagingCode := openCode (withWord st w v) }, none) := by
  simp only [writeStagingWord, hs]; rfl

theorem abortStaging_open (c : BitVec 4) : abortStaging s c =
    setKeys (unstage s st.target) { (unstage s st.target).keys with staging := none, stagingCode := c } := by
  simp only [abortStaging, hs]

/-- The end of a staging changes the key store alone. -/
theorem abortStaging_frame (c : BitVec 4) : abortStaging s c = { s with keys := (abortStaging s c).keys } := by
  rw [abortStaging_open hs, unstage_frame]; rfl

theorem abortStaging_code (c : BitVec 4) : (abortStaging s c).keys.stagingCode = c := by
  rw [abortStaging_open hs]; rfl

/-- A STAGED target returns to its state before (R213). -/
theorem slotOf_abortStaging_target (c : BitVec 4) (h : (slotOf s st.target).state = .staged) :
    slotOf (abortStaging s c) st.target = { slotOf s st.target with state := (slotOf s st.target).before, before := .empty } := by
  rw [abortStaging_open hs]
  exact slotOf_unstage_staged h

theorem stagingFailed_ends {c : BitVec 4} {sub src : Nat} (hc : ctlOn s = true) (hsrc : src < 256) :
    (stagingFailed s st c sub src).keys.staging = none ∧ (stagingFailed s st c sub src).keys.stagingCode = c ∧
      ctr (stagingFailed s st c sub src) 0x380A sub = satAdd64 (ctr s 0x380A sub) 1 ∧
      (stagingFailed s st c sub src).events.pending.getLsbD src = true ∧
      ((slotOf s st.target).state = .staged →
        (slotOf (stagingFailed s st c sub src) st.target).state = (slotOf s st.target).before) := by
  have hkeys : (stagingFailed s st c sub src).keys = (abortStaging s c).keys := raise_keys ..
  have hslot (k : W16) : slotOf (stagingFailed s st c sub src) k = slotOf (abortStaging s c) k := by rw [slotOf, hkeys]; rfl
  refine ⟨by rw [hkeys, abortStaging_staging], by rw [hkeys, abortStaging_code hs], ?_, raise_pending_self _ ?_ hsrc, fun h => ?_⟩
  · rw [stagingFailed, ctr_raise, ctr_bump_same, abortStaging_frame hs]; rfl
  · rw [abortStaging_frame hs]; exact hc
  · rw [hslot, slotOf_abortStaging_target hs c h]

theorem commitStaging_fails {c : BitVec 4} (h : commitFailure st = some c) : commitStaging s = (stagingFailed s st c 2 65, none) := by
  simp only [commitStaging, hs, h]; rfl

theorem commitStaging_waits (h : commitFailure st = none) (hd : drbgServes s = false) : commitStaging s = (s, some errState) := by
  simp only [commitStaging, hs, h, hd]; rfl

theorem commitStaging_commits (h : commitFailure st = none) (hd : drbgServes s = true) :
    commitStaging s = (stagingCommitted s st, none) := by
  simp only [commitStaging, hs, h, hd]; rfl

theorem abortByCommand_open : abortByCommand s = (abortStaging s 11, none) := by
  simp only [abortByCommand, hs]; rfl

theorem exec_stagingTimeout_open : exec .stagingTimeout s =
    .next (if elapsed s st.since (msCycles 10) then stagingFailed s st 12 3 64 else s) := by
  simp only [exec, execStagingTimeout, hs]; rfl

end

/-! ### No staging is open -/

section
variable {s : State} (hs : s.keys.staging = none)
include hs

theorem commitStaging_none : commitStaging s = (s, some errState) := by
  simp only [commitStaging, hs]; rfl

theorem abortByCommand_none : abortByCommand s = (s, some errState) := by
  simp only [abortByCommand, hs]; rfl

theorem exec_stagingTimeout_none : exec .stagingTimeout s = .next s := by
  simp only [exec, execStagingTimeout, hs]

end

/-! ### The status word (Table 6.3) -/

theorem readWindow_stagingStatus (sec : Bool) (priv : BitVec 2) (s : State) :
    readWindow sec priv (4 * (0x20B : BitVec 14).toNat) s = stagingWindowRead sec priv 0x2C s := rfl

section
variable {s : State} {sec : Bool} {priv : BitVec 2} (hr : hpReady s = true)
include hr

theorem exec_stagingStatus : exec (.registerWrite 0x20B none true 3) s = .next (hpAnswer 0 (stagingStatus s) s) := by
  have hread : readWindow true 3 (4 * (0x20B : BitVec 14).toNat) s = (s, .ok (stagingStatus s)) :=
    (readWindow_stagingStatus ..).trans rfl
  simp only [exec, execRegisterWrite, hr, hread, Bool.not_true, Bool.false_eq_true, if_false]

theorem exec_stagingStatus_otherMaster (hm : sec = false ∨ priv ≠ 3) :
    exec (.registerWrite 0x20B none sec priv) s = .next (hostRefused sec priv errMaster s) := by
  have hno : (!(sec && priv == 3)) = true := by
    rcases hm with h | h
    · rw [h]; rfl
    · rw [beq_eq_false_iff_ne.2 h, Bool.and_false]; rfl
  have hread : readWindow sec priv (4 * (0x20B : BitVec 14).toNat) s = (countRefusal (.host sec priv) s, .error errMaster) :=
    (readWindow_stagingStatus ..).trans (if_pos hno)
  simp only [exec, execRegisterWrite, hr, hread, Bool.not_true, Bool.false_eq_true, if_false, hostRefused]

end

/-- The host port shows PD_CTL On when it is ready. -/
theorem ctlOn_of_hpReady {s : State} (h : hpReady s = true) : ctlOn s = true := by
  simp only [hpReady, serverReady, Bool.and_eq_true] at h
  exact h.1.1.2

/-- Settles O41: each word of the window is written by its own check, and a staging ends in one of four ways. -/
theorem stagingTakesAKeyToLive : Obligations.StagingTakesAKeyToLive := by
  refine ⟨fun priv sec v w s hr hm hv => ?masters, fun v s hr hv => ?reserved, ?opening, fun w v st s hr hs => ?word,
    fun st s hr hs => ⟨fun hok hd => ?commits, fun hok hd => ?waits, fun c hbad => ?fails⟩, fun st s hr hs => ?aborts,
    fun s hr => exec_stagingStatus hr, fun sec priv s hr hm => exec_stagingStatus_otherMaster hr hm,
    fun s hr hs => ⟨?noCommit, ?noAbort, exec_stagingTimeout_none hs⟩, fun st s hs => ⟨fun he hc => ?late, fun he => ?early⟩⟩
  case masters =>
    have hno (eff : State → Ack) := stagingAnswer_otherMaster hm eff s
    rw [exec_stagingOpen_clean hr hv, exec_stagingWordWrite hr, exec_commit hr, exec_abort hr, hno, hno, hno, hno]
    exact ⟨rfl, rfl, rfl, rfl⟩
  case reserved =>
    have hready : hpReady (bump s 0x2002 3) = true := hr
    have hlow := and_low18 v
    rw [exec_stagingOpen_stray hr hv, exec_stagingOpen_clean hready (by omega), openStaging_low18]
  case opening =>
    rintro v k s hr hv rfl hs
    have hclean : v.toNat < 2 ^ 18 := by omega
    refine ⟨fun hok => ?_, fun c hbad => ?_⟩
    · rw [exec_stagingOpen_clean hr hclean, stagingAnswer_done (openStaging_opens hv hs hok)]
      exact ⟨_, rfl, rfl, slotOf_stage_same _ _, rfl, fun j hj => slotOf_stage_ne hj, rfl⟩
    · rw [exec_stagingOpen_clean hr hclean, stagingAnswer_refused (openStaging_refused hv hs hbad)]
  case word =>
    refine ⟨withWord st w v, rfl, ?_⟩
    rw [exec_stagingWordWrite hr, stagingAnswer_done (writeStagingWord_open hs w v)]
    rfl
  case commits =>
    rw [exec_commit hr, stagingAnswer_done (commitStaging_commits hs hok hd)]
    have same : SameKeys _ (hostDone (stagingCommitted s st)) := (stagingClosed_sameKeys _).trans (.of_slots rfl rfl)
    have fields := (same.fields st.target).trans (rowless_commitValue ..)
    refine ⟨_, rfl, (same.value _).trans (slotValue_commitValue ..), ?_, (congrArg KeySlot.usage fields :),
      (congrArg KeySlot.txu fields :), (congrArg KeySlot.generation fields :), fun hmain hu => ?_, fun j hj => ?_, rfl, rfl, ?_,
      congrArg hostDone (stagingCommitted_frame s st)⟩
    · exact (effState_parentless (congrArg KeySlot.hasParent fields :)).trans (congrArg KeySlot.state fields :)
    · obtain ⟨h256, h128⟩ := subkeys_commitValue s (stagedValue st) (Origin.clear st.usage) hmain hu
      exact ⟨(same.h256 _).trans h256, (same.h128 _).trans h128⟩
    · exact (slotOf_stagingClosed _ j).trans (slotOf_commitValue_ne s _ _ hj)
    · exact (stagingClosed_requests _).trans (commitValue_requests ..)
  case waits => rw [exec_commit hr, stagingAnswer_refused (commitStaging_waits hs hok hd)]
  case fails =>
    rw [exec_commit hr, stagingAnswer_done (commitStaging_fails hs hbad)]
    exact ⟨_, rfl, stagingFailed_ends hs (ctlOn_of_hpReady hr) (by decide)⟩
  case aborts =>
    rw [exec_abort hr, stagingAnswer_done (abortByCommand_open hs)]
    exact ⟨_, rfl, abortStaging_staging _ _, abortStaging_code hs _, slotOf_abortStaging_target hs _,
      congrArg hostDone (abortStaging_frame hs _)⟩
  case noCommit => rw [exec_commit hr, stagingAnswer_refused (commitStaging_none hs)]
  case noAbort => rw [exec_abort hr, stagingAnswer_refused (abortByCommand_none hs)]
  case late =>
    rw [exec_stagingTimeout_open hs, if_pos he]
    obtain ⟨hgone, hcode, hcount, hevent, -⟩ := stagingFailed_ends (c := 12) (sub := 3) (src := 64) hs hc (by decide)
    exact ⟨_, rfl, hgone, hcode, hcount, hevent⟩
  case early => rw [exec_stagingTimeout_open hs, he]; rfl

end Sys2Proof.Machine

/-! PROOF. Attestation: how a request begins or is refused, how its work and its restarts end it, and what an extend does meanwhile
(R247, R250, R255 to R257, Tables 7.4 and 7.5). -/

namespace Sys2Proof.Machine

/-! ### The commands of a request -/

/-- The command that brings an event to the request of a kind. -/
def requestCommand : AttestKind → ReqEvent → Instr
  | .native => .nativeResponse
  | .report => .compatibilityReport
  | .publicKey => .publicKey

/-- The value of start (Table 7.1). -/
def startCode : AttestKind → Byte
  | .native => 1
  | .report => 2
  | .publicKey => 3

/-- What the engine does when the work of a request is complete (R257). -/
def finishRequest : AttestKind → State → KeyVal → State
  | .native => finishNative
  | .report => finishReport
  | .publicKey => finishPublicKey

section
variable (k : AttestKind) (s : State)

theorem exec_request_write (m : Master) :
    exec (requestCommand k (.write m)) s = .next (commandWrite m 0x3A01 2 [startCode k] startCommand s) := by cases k <;> rfl

theorem exec_request_covered : exec (requestCommand k .covered) s = .next (restartDigest s k) := by cases k <;> rfl

theorem exec_request_done : exec (requestCommand k .done) s = .next (completeRequest s k (finishRequest k)) := by cases k <;> rfl

theorem startCommand_startCode : startCommand [startCode k] s = startRequest k s := by cases k <;> rfl

end

/-! ### A request begins (R253, R256) -/

/-- A request has begun: it has read what CFG covers, K_AT is held, and a native one counts against its rate. -/
def requestBegun (s : State) (k : AttestKind) : State :=
  { s with keys := { s.keys with kAt := some (s.keys.kAt.getD (attestKey s (s.keys.drs.getD 0))) }
           attest := { s.attest with running := some ⟨k, 0, cfgInput s⟩
                                     nativeThisSecond := s.attest.nativeThisSecond + (if k = .native then 1 else 0) } }

section
variable {s : State} {k : AttestKind}

/-- A request that nothing refuses finds the Device Root Secret (R256 item 2). -/
theorem drs_of_requestRefusal_none (h : requestRefusal s k = none) : ∃ d, s.keys.drs = some d := by
  have hu : drsUsable s = true := by
    refine eq_true_of_ne_false fun hu => ?_
    cases hr : s.attest.running with
    | none => simp [requestRefusal, hr, hu] at h
    | some q => simp [requestRefusal, hr] at h
  simp only [drsUsable, Bool.and_eq_true] at hu
  exact Option.isSome_iff_exists.1 hu.1

theorem startRequest_begins (h : requestRefusal s k = none) : startRequest k s =
    (if k = .native then requestBegun s k else requestGrant (requestBegun s k) .signing false, none) := by
  obtain ⟨d, hd⟩ := drs_of_requestRefusal_none h
  simp only [startRequest, h, holdKat, hd, requestBegun, Option.getD_some]
  rfl

/-- Outside the attestation record, the grants and the keys a beginning changes nothing. -/
theorem requestGrant_requestBegun_frame (s : State) (k : AttestKind) (op : HeavyOp) (b : Bool) :
    requestGrant (requestBegun s k) op b = { s with attest := (requestBegun s k).attest, keys := (requestBegun s k).keys
                                                    grants := (requestGrant (requestBegun s k) op b).grants } := by
  rw [requestGrant_frame]; rfl

end

section
variable {sec : Bool} {priv : BitVec 2} {k : AttestKind} {s : State}
  (hw : hostWrites sec priv 0x3A01 2 [startCode k] s = true)
include hw

theorem exec_start_done {t : State} (he : startRequest k s = (t, none)) :
    exec (requestCommand k (.write (.host sec priv))) s = .next (hostDone t) := by
  rw [exec_request_write, commandWrite_host_done hw ((startCommand_startCode k s).trans he)]

theorem exec_start_refused {t : State} {c : W32} (he : startRequest k s = (t, some c)) :
    exec (requestCommand k (.write (.host sec priv))) s = .next (hostRefused sec priv c t) := by
  rw [exec_request_write, commandWrite_host_refused hw ((startCommand_startCode k s).trans he)]

/-- A start that nothing refuses begins its request, and asks for the signing grant unless it is native. -/
theorem exec_start_begins (h : requestRefusal s k = none) :
    ∃ t, exec (requestCommand k (.write (.host sec priv))) s = .next t ∧ t.attest.running = some ⟨k, 0, cfgInput s⟩ ∧
      (k ≠ .native → grantHeld t .signing = true ∨ grantQueued t .signing = true) ∧
      (k = .native → t.grants = s.grants ∧ t.attest.nativeThisSecond = s.attest.nativeThisSecond + 1) ∧
      t.keys = { s.keys with kAt := some (s.keys.kAt.getD (attestKey s (s.keys.drs.getD 0))) } ∧
      t = hostDone { s with attest := t.attest, grants := t.grants, keys := t.keys } := by
  have hstart := startRequest_begins h
  by_cases hk : k = .native
  · subst hk
    exact ⟨_, exec_start_done hw hstart, rfl, fun hne => absurd rfl hne, fun _ => ⟨rfl, rfl⟩, rfl, rfl⟩
  · rw [if_neg hk] at hstart
    have hasked := requestGrant_asked (requestBegun s k) .signing false
    have hframe := requestGrant_requestBegun_frame s k .signing false
    refine ⟨_, exec_start_done hw hstart, ?_, fun _ => hasked, fun he => absurd he hk, ?_, congrArg hostDone ?_⟩
    · exact congrArg Attest.running (requestGrant_attest (requestBegun s k) .signing false)
    · exact requestGrant_keys (requestBegun s k) .signing false
    · exact hframe.trans (by simp only [hostDone, hpAnswer, requestGrant_attest, requestGrant_keys])

end

/-! ### A request is refused (R256) -/

@[simp] theorem noteRefusal_attest (s : State) : (noteRefusal s).attest = { s.attest with refusedThisSecond := true } := by
  rw [noteRefusal]
  split <;> simp

theorem ctr_noteRefusal (s : State) : ctr (noteRefusal s) 0x3A03 4 = satAdd64 (ctr s 0x3A03 4) 1 := by
  rw [noteRefusal_frame]
  exact ctr_bump_same s 0x3A03 4

/-- A refused start is counted, and the code shows the reason. -/
def startRefused (s : State) (e : BitVec 4) : State := setAttest (noteRefusal s) { (noteRefusal s).attest with code := e }

theorem startRequest_refused {s : State} {k : AttestKind} {e : BitVec 4} (h : requestRefusal s k = some e) :
    startRequest k s = (startRefused s e, some errState) := by
  rw [startRequest, h]; rfl

/-- The refusals of the host port are counted in another object than those of attestation. -/
theorem ctr_hostRefused_attest (sec : Bool) (priv : BitVec 2) (c : W32) (s : State) :
    ctr (hostRefused sec priv c s) 0x3A03 4 = ctr s 0x3A03 4 :=
  ctr_bumpBy_ne s 0x2002 1 1 0x3A03 4 (by decide)

theorem exec_start_refuses {sec : Bool} {priv : BitVec 2} {k : AttestKind} {s : State} {e : BitVec 4}
    (hw : hostWrites sec priv 0x3A01 2 [startCode k] s = true) (h : requestRefusal s k = some e) :
    ∃ t, exec (requestCommand k (.write (.host sec priv))) s = .next t ∧ t.server.hpResp = 1 ∧
      t.attest.running = s.attest.running ∧ ctr t 0x3A03 4 = satAdd64 (ctr s 0x3A03 4) 1 ∧ t.attest.code = e := by
  refine ⟨_, exec_start_refused hw (startRequest_refused h), rfl, ?_, ?_, rfl⟩
  · exact (congrArg Attest.running (noteRefusal_attest s) :)
  · exact (ctr_hostRefused_attest sec priv errState _).trans (ctr_noteRefusal s)

/-! ### A request ends (R247, R257) -/

/-- Extends change the measurement registers and their count alone. -/
theorem foldl_applyExtend_frame (held : List Bytes) (a : Attest) : held.foldl applyExtend a =
    { a with mr := (held.foldl applyExtend a).mr, extendCount := (held.foldl applyExtend a).extendCount } := by
  induction held generalizing a with
  | nil => rfl
  | cons data held ih => rw [List.foldl_cons, ih]; rfl

/-- The end of a request applies the held extends, releases the grant and shows the code. -/
theorem endRequest_frame (s : State) (c : BitVec 4) : endRequest s c =
    { s with grants := (releaseGrant s .signing).grants
             attest := { s.attest with mr := (s.attest.held.foldl applyExtend s.attest).mr
                                       extendCount := (s.attest.held.foldl applyExtend s.attest).extendCount
                                       running := none, held := [], code := c } } := by
  rw [endRequest, releaseGrant_attest, foldl_applyExtend_frame]; rfl

section
variable (s : State) (c : BitVec 4)

@[simp] theorem endRequest_running : (endRequest s c).attest.running = none := rfl
@[simp] theorem endRequest_code : (endRequest s c).attest.code = c := rfl
@[simp] theorem endRequest_keys : (endRequest s c).keys = s.keys := rfl
@[simp] theorem endRequest_responseCount : (endRequest s c).attest.responseCount = s.attest.responseCount := by rw [endRequest_frame]
@[simp] theorem endRequest_cfgDigest : (endRequest s c).attest.cfgDigest = s.attest.cfgDigest := by rw [endRequest_frame]
@[simp] theorem endRequest_response : (endRequest s c).attest.response = s.attest.response := by rw [endRequest_frame]
@[simp] theorem endRequest_report : (endRequest s c).attest.report = s.attest.report := by rw [endRequest_frame]
@[simp] theorem endRequest_publicKey : (endRequest s c).attest.publicKey = s.attest.publicKey := by rw [endRequest_frame]
@[simp] theorem endRequest_keyId : (endRequest s c).attest.keyId = s.attest.keyId := by rw [endRequest_frame]
@[simp] theorem endRequest_keyReady : (endRequest s c).attest.keyReady = s.attest.keyReady := by rw [endRequest_frame]

theorem endRequest_grantGone : grantHeld (endRequest s c) .signing = false := releaseGrant_gone s .signing

theorem endRequest_mr_of_noneHeld {s : State} (h : s.attest.held = []) : (endRequest s c).attest.mr = s.attest.mr := by
  simp [endRequest_frame, h]

end

/-! ### The work of a request is complete (R257, Tables 7.4 and 7.5) -/

section
variable {s : State} {q : AttestReq} {d : KeyVal} (hd : s.keys.drs = some d) (hq : s.attest.running = some q)
include hq

/-- CFG is the digest of what the request has read (R250). -/
theorem requestCfg_running : requestCfg s = sha256 q.cfg := by simp [requestCfg, hq]

include hd

/-- A request at work, with its grant unless it is native, is finished. -/
theorem exec_request_finishes (hg : q.kind ≠ .native → grantHeld s .signing = true) :
    exec (requestCommand q.kind .done) s = .next (finishRequest q.kind s d) := by
  have hwork : atWork s q.kind = true := by
    by_cases hk : q.kind = .native
    · simp [atWork, isKind, hq, hk]
    · simp [atWork, isKind, hq, hg hk]
  simp [exec_request_done, completeRequest, hwork, hd]

/-- The response carries its CMAC under K_AT. -/
theorem exec_native_finishes {body : Bytes} (hk : q.kind = .native) (hbody : body = nativeBody s (sha256 q.cfg) (nextCount s))
    (hheld : s.attest.held = []) :
    ∃ t, exec (.nativeResponse .done) s = .next t ∧
      t.attest.response = body ++ cmac256 (s.keys.kAt.getD (attestKey s d)) body ∧
      t.attest.responseCount = nextCount s ∧ t.attest.cfgDigest = sha256 q.cfg ∧ t.attest.running = none ∧ t.attest.code = 0 ∧
      t.attest.mr = s.attest.mr ∧ t = { s with attest := t.attest, keys := t.keys, grants := t.grants } := by
  have he := exec_request_finishes hd hq (fun hne => absurd hk hne)
  rw [hk] at he
  subst hbody
  refine ⟨finishNative s d, he, ?_, ?_, ?_, rfl, rfl, ?_, rfl⟩
  · simp [finishNative, requestCfg_running hq]
  · simp [finishNative]
  · simp [finishNative, requestCfg_running hq]
  · exact endRequest_mr_of_noneHeld 0 hheld

/-- The report carries its signature. -/
theorem exec_report_finishes {body : Bytes} (hk : q.kind = .report) (hg : grantHeld s .signing = true)
    (hbody : body = reportBody s (sha256 q.cfg) (nextCount s)) :
    ∃ t, exec (.compatibilityReport .done) s = .next t ∧
      t.attest.report = body ++ ecdsaSign (signingScalar (s.attest.signKey.getD (signSource s d))) body ∧
      t.attest.responseCount = nextCount s ∧ t.attest.running = none ∧ t.attest.code = 0 ∧ grantHeld t .signing = false := by
  have he := exec_request_finishes hd hq (fun _ => hg)
  rw [hk] at he
  subst hbody
  refine ⟨finishReport s d, he, ?_, ?_, rfl, rfl, endRequest_grantGone _ 0⟩
  · simp [finishReport, requestCfg_running hq]
  · simp [finishReport]

/-- Q, key_id and key_ready are there. -/
theorem exec_publicKey_finishes (hk : q.kind = .publicKey) (hg : grantHeld s .signing = true) :
    ∃ t, exec (.publicKey .done) s = .next t ∧ t.attest.publicKey = publicKey (signingScalar (signSource s d)) ∧
      t.attest.keyId = keyIdOf (publicKey (signingScalar (signSource s d))) ∧
      t.attest.keyReady = true ∧ t.attest.running = none ∧ t.attest.code = 0 ∧ grantHeld t .signing = false := by
  have he := exec_request_finishes hd hq (fun _ => hg)
  rw [hk] at he
  refine ⟨finishPublicKey s d, he, ?_, ?_, ?_, rfl, rfl, endRequest_grantGone _ 0⟩
  · simp [finishPublicKey]
  · simp [finishPublicKey]
  · simp [finishPublicKey]

end

/-! ### A covered value may have changed (R250) -/

section
variable {s : State} {q : AttestReq} (hq : s.attest.running = some q)
include hq

theorem restartDigest_same (hc : q.cfg = cfgInput s) : restartDigest s q.kind = s := by simp [restartDigest, hq, hc]

theorem restartDigest_restarts (hc : q.cfg ≠ cfgInput s) (hr : q.restarts < 2) : restartDigest s q.kind =
    setAttest s { s.attest with running := some { q with restarts := q.restarts + 1, cfg := cfgInput s } } := by
  simp [restartDigest, hq, hc, Nat.not_le.2 hr]

theorem restartDigest_ends (hc : q.cfg ≠ cfgInput s) (hr : 2 ≤ q.restarts) :
    restartDigest s q.kind = endRequest (noteRefusal s) 7 := by
  simp [restartDigest, hq, hc, hr]

end

/-! ### No request runs -/

section
variable {s : State} (h : s.attest.running = none) (k : AttestKind)
include h

theorem exec_request_done_idle : exec (requestCommand k .done) s = .next s := by
  simp [exec_request_done, completeRequest, atWork, isKind, h]

theorem exec_request_covered_idle : exec (requestCommand k .covered) s = .next s := by
  simp [exec_request_covered, restartDigest, h]

end

/-! ### Extends (R247) -/

section
variable {data : Bytes} {s : State} (hi : (byteAt data 0).toNat < 8)
include hi

theorem extendRegister_applied (hr : s.attest.running = none) :
    extendRegister data s = (setAttest s (applyExtend s.attest data), none) := by
  simp [extendRegister, Nat.not_le.2 hi, hr, done]

theorem extendRegister_held (hr : s.attest.running.isSome = true) (hl : s.attest.held.length < 8) :
    extendRegister data s = (setAttest s { s.attest with held := s.attest.held ++ [data] }, none) := by
  simp [extendRegister, Nat.not_le.2 hi, hr, hl, done]

theorem extendRegister_full (hr : s.attest.running.isSome = true) (hl : 8 ≤ s.attest.held.length) :
    extendRegister data s = (s, some errBroken) := by
  simp [extendRegister, Nat.not_le.2 hi, hr, Nat.not_lt.2 hl, refuse]

end

section
variable {sec : Bool} {priv : BitVec 2} {data : Bytes} {s t : State} (hw : hostWrites sec priv 0x3A02 9 data s = true)
include hw

theorem exec_extend_done (he : extendRegister data s = (t, none)) :
    exec (.extend (.host sec priv) data) s = .next (hostDone t) :=
  congrArg Host.Outcome.next (commandWrite_host_done hw he)

theorem exec_extend_refused {c : W32} (he : extendRegister data s = (t, some c)) :
    exec (.extend (.host sec priv) data) s = .next (hostRefused sec priv c t) :=
  congrArg Host.Outcome.next (commandWrite_host_refused hw he)

end

/-! ### The obligation -/

/-- Settles O46: by what refuses a start, by the kind whose work is complete, by the restarts of CFG, and by whether an extend finds a
request running. -/
theorem attestationAnswersItsRequests : Obligations.AttestationAnswersItsRequests := by
  refine ⟨fun sec priv kind n c s hc hw => ?starts, fun s d q body hd hq => ⟨exec_native_finishes hd hq,
      exec_report_finishes hd hq, exec_publicKey_finishes hd hq, fun c hc => ?covered⟩,
    fun s hr => ?idle, fun sec priv data s i hw hi hlt => ?extend⟩
  case starts =>
    obtain ⟨rfl, rfl⟩ : n = startCode kind ∧ c = requestCommand kind (.write (.host sec priv)) := by
      rcases hc with ⟨rfl, rfl, rfl⟩ | ⟨rfl, rfl, rfl⟩ | ⟨rfl, rfl, rfl⟩ <;> exact ⟨rfl, rfl⟩
    exact ⟨exec_start_begins hw, fun e => exec_start_refuses hw⟩
  case covered =>
    obtain rfl : c = requestCommand q.kind .covered := by
      rcases hc with ⟨hk, rfl⟩ | ⟨hk, rfl⟩ | ⟨hk, rfl⟩ <;> rw [hk] <;> rfl
    rw [exec_request_covered]
    refine ⟨fun hsame => ?_, fun hne hfew => ?_, fun hne hmany => ⟨_, rfl, ?_⟩⟩
    · rw [restartDigest_same hq hsame]
    · rw [restartDigest_restarts hq hne hfew]
    · rw [restartDigest_ends hq hne hmany]
      simp
  case idle =>
    have hdone := exec_request_done_idle hr
    have hcovered := exec_request_covered_idle hr
    exact ⟨hdone .native, hcovered .native, hdone .report, hcovered .report, hdone .publicKey, hcovered .publicKey⟩
  case extend =>
    subst hi
    refine ⟨fun hr => ⟨_, exec_extend_done hw (extendRegister_applied hlt hr), rfl, rfl, rfl⟩,
      fun hr hl => exec_extend_done hw (extendRegister_held hlt hr hl),
      fun hr hl => exec_extend_refused hw (extendRegister_full hlt hr hl)⟩

end Sys2Proof.Machine

/-! PROOF. The disable of a region that has served under an earlier record (R265). -/

namespace Sys2Proof.Machine

theorem exec_regionDisable_enabled {sec : Bool} {priv : BitVec 2} {r : Region} {s : State} {w : W64}
    (hw : w = setBit (reg s (regionIdx r) 1) 8 false) (h : hostWrites sec priv (regionIdx r) 1 (wordBytes w) s = true)
    (hb : bit (reg s (regionIdx r) 1) 8 = true) :
    exec (.regionDisable (.host sec priv) r) s = .next (hostDone (disableRegion r w s)) := by
  subst hw
  refine congrArg Host.Outcome.next (commandWrite_host_done h ?_)
  rw [valueOf_wordBytes64, BitVec.ofNat_toNat, BitVec.setWidth_eq, writeRegionControl, if_pos hb, if_pos rfl, done]

theorem memChan_hostDone (s : State) (k : Chan) : memChan (hostDone s) k = memChan s k := rfl

/-- A read in region 0 waits, under number 0 of its channel. -/
def waitingRead : MemOp := newOp .read 0 3 (some 0)

/-- A write-back under an earlier record of region 0; it bears the number of the read. -/
def earlierBack : MemOp := { newOp (.evict (.dataTags 0)) 0 0 (some 0) with old := some 0 }

/-- Region 0 passes lines through, and both are in work on channel 0. -/
def sharedNumber : State :=
  let earlier : OldRegion :=
    { record := [0x103], state := .active, root := 0, nextBound := false, nextRef := keyNone, rekeyAt := 0, deadBelow := 0 }
  let on : State := setReg { State.reset with power := { Power.default with bringUp := .done, pdIso := 0 } } (regionIdx 0) 1 0x101
  setMemChan (setRegionDyn on 0 { RegionDyn.default with state := .active, old := [(0, earlier)] }) 0
    { MemChan.default with ops := [earlierBack, waitingRead], nextSeq := 1 }

/-- No request goes by the earlier record, so its write-back is dropped by its number, and the read goes with it. -/
theorem ops_disabled_sharedNumber : (memChan (disableRegion 0 1 sharedNumber) 0).ops = [] := by decide +kernel

/-- Refutes O52: a disable drops the write-backs of an earlier record by their number; where an accepted request bears the same
number it is dropped too, and does not go on. The numbers of a channel's operations rise as they are given out, so a run of the
block does not come to such a state, but the statement is about every state. -/
theorem not_regionsAreEnabledAndRunTheirCommands : ¬ Obligations.RegionsAreEnabledAndRunTheirCommands := by
  rintro ⟨-, -, disables, -⟩
  have hw : hostWrites true 3 (regionIdx 0) 1 (wordBytes (1 : W64)) sharedNumber = true := by decide +kernel
  have hb : bit (reg sharedNumber (regionIdx 0) 1) 8 = true := by decide +kernel
  have hv : (1 : W64) = setBit (reg sharedNumber (regionIdx 0) 1) 8 false := by decide +kernel
  obtain ⟨t, ht, -, -, -, -, goesOn, -⟩ := (disables true 3 0 sharedNumber 1 hv hw).1 hb
  have hchan : chanOf (regionCfg sharedNumber 0) = 0 := by decide +kernel
  have hread : waitingRead ∈ (memChan sharedNumber (chanOf (regionCfg sharedNumber 0))).ops := by
    rw [hchan, sharedNumber, memChan_setMemChan_same]
    exact List.mem_of_getElem? (i := 1) rfl
  obtain ⟨g, hmem, -⟩ := goesOn waitingRead hread rfl rfl rfl
  have hstate : hostDone (disableRegion 0 1 sharedNumber) = t :=
    Host.Outcome.next.inj ((exec_regionDisable_enabled hv hw hb).symm.trans ht)
  have hops : (memChan t 0).ops = [] := by rw [← hstate, memChan_hostDone, ops_disabled_sharedNumber]
  rw [hchan, hops] at hmem
  exact List.not_mem_nil hmem

end Sys2Proof.Machine

/-! PROOF. Evaluations of the Memory Guard: how they go on from step to step, and what each reading of a cached line, of a key or
of a tag does to the state (R272, R281, R286). -/

namespace Sys2Proof.Machine

/-! ### An evaluation goes on, or stops -/

section
variable {α β : Type} {m : Ev α} {s t : State}

theorem run_bind_ok {v : α} (h : m.run.run s = (.ok v, t)) (f : α → Ev β) : (m >>= f).run.run s = (f v).run.run t := by
  change StateT.bind (m := Id) m.run (ExceptT.bindCont f) s = _
  have h' : m.run s = (.ok v, t) := h
  simp only [StateT.bind, h']
  rfl

theorem run_bind_error {e : Halt} (h : m.run.run s = (.error e, t)) (f : α → Ev β) :
    (m >>= f).run.run s = (.error e, t) := by
  change StateT.bind (m := Id) m.run (ExceptT.bindCont f) s = _
  have h' : m.run s = (.error e, t) := h
  simp only [StateT.bind, h']
  rfl

theorem run_catch_ok {v : α} (h : m.run.run s = (.ok v, t)) (f : Halt → Ev α) : (tryCatch m f).run.run s = (.ok v, t) := by
  have key : ∀ r : Except Halt α × State, r = (.ok v, t) →
      StateT.run (ExceptT.run (ExceptT.tryCatch (ExceptT.mk (fun _ => r) : Ev α) f)) s = (.ok v, t) := by
    rintro _ rfl
    rfl
  exact key _ h

theorem run_catch_error {e : Halt} (h : m.run.run s = (.error e, t)) (f : Halt → Ev α) :
    (tryCatch m f).run.run s = (f e).run.run t := by
  have key : ∀ r : Except Halt α × State, r = (.error e, t) →
      StateT.run (ExceptT.run (ExceptT.tryCatch (ExceptT.mk (fun _ => r) : Ev α) f)) s = (f e).run.run t := by
    rintro _ rfl
    rfl
  exact key _ h

@[simp] theorem run_pure (v : α) (s : State) : (pure v : Ev α).run.run s = (.ok v, s) := rfl
@[simp] theorem run_throw (e : Halt) (s : State) : (throw e : Ev α).run.run s = (.error e, s) := rfl
@[simp] theorem run_evGet (f : State → Ev β) (s : State) : (evGet >>= f).run.run s = (f s).run.run s := rfl
@[simp] theorem run_evSet (t s : State) : (evSet t).run.run s = (.ok (), t) := rfl
@[simp] theorem run_evMod (g : State → State) (s : State) : (evMod g).run.run s = (.ok (), g s) := rfl

end

/-! ### Lines of the cache (R286) -/

/-- A cached line is used. -/
def touchLine (s : State) (a : Nat) : State := touchPlace s ((cachePlace s a).getD 0)

/-- A line takes the place that its address has. -/
def storeLine (s : State) (l : CacheLine) : State :=
  touchPlace (setCache s ((cachePlace s l.addr).getD 0) l) ((cachePlace s l.addr).getD 0)

section
variable {s : State} {a b n : Nat} {l : CacheLine}

theorem cachePlace_some (h : cachePlace s a = some n) : ∃ l, spFind s.mem.cache n = some l ∧ l.addr = a := by
  have hp := List.find?_some h
  split at hp
  · next l hl => exact ⟨l, hl, eq_of_beq hp⟩
  · cases hp

/-- A line is cached at the place of its address. -/
theorem cached_eq_some (h : cached s a = some l) : ∃ n, cachePlace s a = some n ∧ spFind s.mem.cache n = some l ∧ l.addr = a := by
  unfold cached at h
  split at h
  · next n hn =>
    obtain ⟨l', hl', ha⟩ := cachePlace_some hn
    rw [hl'] at h
    cases h
    exact ⟨n, hn, hl', ha⟩
  · cases h

@[simp] theorem cached_touchLine (s : State) (a b : Nat) : cached (touchLine s a) b = cached s b := rfl
@[simp] theorem cachePlace_touchLine (s : State) (a b : Nat) : cachePlace (touchLine s a) b = cachePlace s b := rfl

/-- A line that takes the place of its address moves no other. -/
theorem cachePlace_setCache (hn : cachePlace s l.addr = some n) (b : Nat) : cachePlace (setCache s n l) b = cachePlace s b := by
  obtain ⟨o, hf, ha⟩ := cachePlace_some hn
  have hplace : ∀ m, (match spFind (spPut s.mem.cache n l) m with
      | some l => l.addr == b
      | none => false) = (match spFind s.mem.cache m with
      | some l => l.addr == b
      | none => false) := by
    intro m
    by_cases hm : m = n
    · rw [hm, spFind_spPut_same, hf]; exact congrArg (· == b) ha.symm
    · rw [spFind_spPut_ne _ _ _ _ hm]
  exact congrArg (List.find? · (cachePlaces b)) (funext hplace)

theorem cached_setCache (hn : cachePlace s l.addr = some n) (b : Nat) :
    cached (setCache s n l) b = if b = l.addr then some l else cached s b := by
  obtain ⟨o, hf, ha⟩ := cachePlace_some hn
  have hcache : (setCache s n l).mem.cache = spPut s.mem.cache n l := rfl
  simp only [cached, cachePlace_setCache hn, hcache]
  by_cases hb : b = l.addr
  · rw [if_pos hb, hb, hn]; exact spFind_spPut_same _ _ _
  · rw [if_neg hb]
    rcases hp : cachePlace s b with _ | m
    · rfl
    · obtain ⟨l', hl', hb'⟩ := cachePlace_some hp
      have hm : m ≠ n := by
        rintro rfl
        rw [hf] at hl'; cases hl'
        exact hb (hb'.symm.trans ha)
      exact spFind_spPut_ne _ _ _ _ hm

theorem cached_storeLine (h : (cached s l.addr).isSome = true) (b : Nat) :
    cached (storeLine s l) b = if b = l.addr then some l else cached s b := by
  obtain ⟨o, ho⟩ := Option.isSome_iff_exists.1 h
  obtain ⟨n, hn, -⟩ := cached_eq_some ho
  simp only [storeLine, hn]
  exact cached_setCache hn b

/-- A line that takes its place leaves the others cached. -/
theorem isSome_cached_storeLine (h : (cached s l.addr).isSome = true) (hb : (cached s b).isSome = true) :
    (cached (storeLine s l) b).isSome = true := by
  rw [cached_storeLine h]
  split
  · rfl
  · exact hb

theorem fillLine_cached (h : (cached s l.addr).isSome = true) (cause : OpCause) :
    (fillLine cause l).run.run s = (.ok (), storeLine s l) := by
  obtain ⟨o, ho⟩ := Option.isSome_iff_exists.1 h
  obtain ⟨n, hn, -⟩ := cached_eq_some ho
  simp only [fillLine, run_evGet, hn, run_evSet, storeLine, Option.getD_some]

end

/-! ### Work in the cache and on the channels alone -/

/-- Two states differ at most in the use of the cache. -/
def UseOnly (s t : State) : Prop := t = { s with mem := { s.mem with plru := t.mem.plru } }

/-- Two states differ at most in the use of the cache and in the channels. -/
def WaitOnly (s t : State) : Prop := t = { s with mem := { s.mem with plru := t.mem.plru, chans := t.mem.chans } }

/-- Two states differ at most in the lines of the cache, their use, and the channels. -/
def LinesOnly (s t : State) : Prop :=
  t = { s with mem := { s.mem with cache := t.mem.cache, plru := t.mem.plru, chans := t.mem.chans } }

section
variable {s t u : State}

theorem UseOnly.refl (s : State) : UseOnly s s := rfl

theorem UseOnly.trans (h : UseOnly s t) (h' : UseOnly t u) : UseOnly s u := by
  rw [UseOnly] at h h' ⊢
  rw [h', h]

theorem touchLine_use (s : State) (a : Nat) : UseOnly s (touchLine s a) := rfl

theorem UseOnly.wait (h : UseOnly s t) : WaitOnly s t := by
  rw [UseOnly] at h
  rw [WaitOnly, h]

theorem UseOnly.memChan (h : UseOnly s t) (k : Chan) : memChan t k = memChan s k := by rw [h]; rfl

theorem WaitOnly.trans (h : WaitOnly s t) (h' : WaitOnly t u) : WaitOnly s u := by
  rw [WaitOnly] at h h' ⊢
  rw [h', h]

theorem setMemChan_wait (s : State) (k : Chan) (c : MemChan) : WaitOnly s (setMemChan s k c) := rfl

theorem WaitOnly.lines (h : WaitOnly s t) : LinesOnly s t := by
  rw [WaitOnly] at h
  rw [LinesOnly, h]

theorem WaitOnly.cached (h : WaitOnly s t) (a : Nat) : cached t a = cached s a := by rw [h]; rfl

theorem LinesOnly.trans (h : LinesOnly s t) (h' : LinesOnly t u) : LinesOnly s u := by
  rw [LinesOnly] at h h' ⊢
  rw [h', h]

theorem storeLine_lines (s : State) (l : CacheLine) : LinesOnly s (storeLine s l) := rfl

theorem LinesOnly.now (h : LinesOnly s t) : t.now = s.now := by rw [h]

theorem LinesOnly.regionDyn (h : LinesOnly s t) (r : Region) : regionDyn t r = regionDyn s r := by rw [h]; rfl

theorem LinesOnly.regionCfg (h : LinesOnly s t) (r : Region) : regionCfg t r = regionCfg s r := by rw [h]; rfl

theorem LinesOnly.pathOn (h : LinesOnly s t) : pathOn t = pathOn s := by rw [h]; rfl

end

end Sys2Proof.Machine

/-! PROOF. What the evaluations read of a line under full protection, and what they place in the cache (R281, R282). -/

namespace Sys2Proof.Machine

/-! ### What an evaluation reads -/

section
variable {s : State} {c : RegionCfg} {op : MemOp} {a level j i : Nat} {l : CacheLine} {d : Line}

theorem gathered_missing (hf : op.failed = []) (hg : op.got = []) (a : Nat) (s : State) :
    (gathered op a).run.run s = (.error (.need [a]), s) := by
  simp only [gathered, hf, hg, spFind, run_throw]

theorem gathered_got (hf : op.failed = []) (hg : spFind op.got a = some d) (s : State) :
    (gathered op a).run.run s = (.ok d, s) := by
  simp only [gathered, hf, hg, spFind, run_pure]

theorem stored_missing (hg : op.got = []) (a : Nat) (s : State) : (stored op a).run.run s = (.error (.need [a]), s) := by
  simp only [stored, hg, spFind, run_throw]

theorem tagLine_cached (h : cached s a = some l) (kind : LineKind) : (tagLine c op a kind).run.run s = (.ok l.data, s) := by
  simp only [tagLine, run_evGet, h, run_pure]

/-- The root stands above the levels. -/
theorem nodeOf_root (h : levelsOf c.lines < level) (j : Nat) :
    (nodeOf c op level j).run.run s = (.ok (regionDyn s c.region).root, s) := by
  rw [nodeOf, Nat.sub_eq_zero_of_le h]
  rfl

theorem nodeOf_cached (hl : level ≤ levelsOf c.lines) (h : cached s (nodeAddr c level j) = some l) :
    (nodeOf c op level j).run.run s = (.ok l.data, touchLine s (nodeAddr c level j)) := by
  obtain ⟨n, hn, -⟩ := cached_eq_some h
  rw [nodeOf, Nat.succ_sub hl]
  simp only [fetchNode, run_evGet, h, hn, touchLine, Option.getD_some]
  rfl

theorem beside_ok {x : Ev Line} {t : State} (h : x.run.run s = (.ok d, t)) (a : Nat) : (beside op a x).run.run s = (.ok d, t) :=
  run_catch_ok h _

theorem lineLive_usable (hd : lineDead s c i = false) (hk : keyUsable s (lineKey s c i) = true) :
    (lineLive c i).run.run s = (.ok (slotValue s (lineKey s c i)), s) := by
  simp only [lineLive, liveKey, run_evGet, hd, hk, Bool.false_eq_true, if_false, if_true, run_pure]

theorem nodeLive_usable (hd : nodeDead s c level j = false) (hk : keyUsable s (nodeKey s c level j) = true) :
    (nodeLive c level j).run.run s = (.ok (slotValue s (nodeKey s c level j)), s) := by
  simp only [nodeLive, liveKey, run_evGet, hd, hk, Bool.false_eq_true, if_false, if_true, run_pure]

theorem storeNode_root (h : levelsOf c.lines < level) (cause : OpCause) :
    (storeNode c cause level j d).run.run s =
      (.ok (), setRegionDyn s c.region { regionDyn s c.region with root := d }) := by
  simp only [storeNode, if_pos h, run_evMod]

/-- A node as the cache holds it once it has been written. -/
def nodeLine (c : RegionCfg) (level j : Nat) (d : Line) : CacheLine :=
  { addr := nodeAddr c level j, region := c.region, kind := .node level j, dirty := true, data := d }

theorem storeNode_cached (hl : level ≤ levelsOf c.lines) (h : (cached s (nodeAddr c level j)).isSome = true) (cause : OpCause) :
    (storeNode c cause level j d).run.run s = (.ok (), storeLine s (nodeLine c level j d)) := by
  simp only [storeNode, if_neg (Nat.not_lt.2 hl)]
  exact fillLine_cached (l := nodeLine c level j d) h cause

/-- The next minor below 127 (R283). -/
theorem nextMinor_next {k : Nat} (h : nodeMinor d k ≠ 127) :
    (nextMinor level j d k).run.run s = (.ok (nodeMinor d k + 1), s) := by
  simp only [nextMinor, if_neg h, run_pure]

theorem nextMinor_renorm {k : Nat} (h : nodeMinor d k = 127) (hm : nodeMajor d ≠ BitVec.allOnes 64) :
    (nextMinor level j d k).run.run s = (.error (.renorm level j), s) := by
  simp only [nextMinor, if_pos h, if_neg hm, run_throw]

theorem nextMinor_locked {k : Nat} (h : nodeMinor d k = 127) (hm : nodeMajor d = BitVec.allOnes 64) :
    (nextMinor level j d k).run.run s = (.error .locked, s) := by
  simp only [nextMinor, if_pos h, if_pos hm, run_throw]

/-- A line of data tags as the cache holds it once a tag has been placed in it. -/
def dataTagLine (c : RegionCfg) (i : Nat) (d : Line) : CacheLine :=
  { addr := dataTagAddr c i, region := c.region, kind := .dataTags (i / 8), dirty := true, data := d }

theorem placeDataTag_cached (h : cached s (dataTagAddr c i) = some l) (t : W64) :
    (placeDataTag c op i t).run.run s = (.ok (), storeLine s (dataTagLine c i (setTag l.data (i % 8) t))) := by
  rw [placeDataTag, run_bind_ok (tagLine_cached h _)]
  exact fillLine_cached (l := dataTagLine c i (setTag l.data (i % 8) t)) (Option.isSome_iff_exists.2 ⟨l, h⟩) _

def nodeTagLine (c : RegionCfg) (level j : Nat) (d : Line) : CacheLine :=
  { addr := nodeTagAddr c level j, region := c.region, kind := .nodeTags level (j / 8), dirty := true, data := d }

theorem placeNodeTag_cached (h : cached s (nodeTagAddr c level j) = some l) (t : W64) :
    (placeNodeTag c op level j t).run.run s = (.ok (), storeLine s (nodeTagLine c level j (setTag l.data (j % 8) t))) := by
  rw [placeNodeTag, run_bind_ok (tagLine_cached h _)]
  exact fillLine_cached (l := nodeTagLine c level j (setTag l.data (j % 8) t)) (Option.isSome_iff_exists.2 ⟨l, h⟩) _

theorem levelsOf_pos (lines : Nat) : 1 ≤ levelsOf lines := by
  unfold levelsOf
  (repeat' split) <;> decide

end

/-! ### A line under full protection (R281, R282) -/

/-- Data line i of region r, of full protection with record g, can be worked on under a key: no request of an earlier record is
left, the line is neither poisoned nor lost, and the key may be used. -/
structure Keyed (s : State) (r : Region) (i : Nat) (g : RegionCfg) (key : KeyVal) : Prop where
  cfg : regionCfg s r = g
  mode : g.mode = 3
  old : (regionDyn s r).old = []
  clean : poisonedLine s r i = false
  live : lineDead s g i = false
  usable : keyUsable s (lineKey s g i) = true
  key : slotValue s (lineKey s g i) = key

/-- Such a line whose counter node is cached. -/
structure Guarded (s : State) (r : Region) (i : Nat) (g : RegionCfg) (key : KeyVal) (ln : CacheLine) : Prop
    extends Keyed s r i g key where
  node : cached s (nodeAddr g 1 (i / 64)) = some ln

section
variable {s t : State} {r : Region} {i : Nat} {g : RegionCfg} {key : KeyVal} {ln : CacheLine} {op : MemOp}

theorem Keyed.region (h : Keyed s r i g key) : g.region = r := by rw [← h.cfg]; rfl

theorem Keyed.not_poisoned (h : Keyed s r i g key) : ¬poisonedLine s g.region i = true := by
  rw [h.region, h.clean]
  exact Bool.false_ne_true

theorem Keyed.moved (h : Keyed s r i g key) (ht : LinesOnly s t) : Keyed t r i g key := by
  rw [LinesOnly] at ht
  rw [ht]
  exact ⟨h.cfg, h.mode, h.old, h.clean, h.live, h.usable, h.key⟩

theorem Guarded.moved (h : Guarded s r i g key ln) (ht : WaitOnly s t) : Guarded t r i g key ln :=
  ⟨h.toKeyed.moved ht.lines, by rw [ht.cached]; exact h.node⟩

theorem Guarded.touched (h : Guarded s r i g key ln) (a : Nat) : Guarded (touchLine s a) r i g key ln :=
  h.moved (touchLine_use s a).wait

theorem Guarded.onChan (h : Guarded s r i g key ln) (k : Chan) (c : MemChan) : Guarded (setMemChan s k c) r i g key ln :=
  h.moved (setMemChan_wait s k c)

theorem Guarded.bumped (h : Guarded s r i g key ln) (x y : Nat) : Guarded (bump s x y) r i g key ln :=
  ⟨⟨h.cfg, h.mode, h.old, h.clean, h.live, h.usable, h.key⟩, h.node⟩

theorem Keyed.fetchesKey (h : Keyed s r i g key) : (lineLive g i).run.run s = (.ok key, s) := by
  rw [← h.key]
  exact lineLive_usable h.live h.usable

theorem Guarded.fetchesNode (h : Guarded s r i g key ln) (op : MemOp) :
    (nodeOf g op 1 (i / 64)).run.run s = (.ok ln.data, touchLine s (nodeAddr g 1 (i / 64))) :=
  nodeOf_cached (levelsOf_pos _) h.node

end

end Sys2Proof.Machine

/-! PROOF. One evaluation of a read or of a write of a line under full protection (R281, R282, R283, R285). -/

namespace Sys2Proof.Machine

/-! ### Reading and writing such a line (R281, R282, R285) -/

section
variable {s : State} {r : Region} {i : Nat} {g : RegionCfg} {key : KeyVal} {ln lt : CacheLine} {op : MemOp} {d ct : Line}
  {e : BitVec 7}

/-- A full write under entry e of its node: its tag and the entry are placed, and the line goes to mc_ (R282). -/
def writeUnder (g : RegionCfg) (op : MemOp) (i : Nat) (key : KeyVal) (n1 d : Line) (e : BitVec 7) : Ev OpEnd := do
  let ct := d ^^^ lineStream key (nodeMajor n1) e (g.base + i)
  placeDataTag g op i (dataTag key (nodeMajor n1) e (g.base + i) ct)
  storeNode g (ledBy op) 1 (i / 64) (setMinor n1 (i % 64) e)
  pure (.keep { op with cipher := some ct, children := [(g.base + i, ct)] })

/-- What a write with ciphertext ct under entry e leaves in the cache. -/
def placed (s : State) (g : RegionCfg) (key : KeyVal) (i : Nat) (ln lt : CacheLine) (e : BitVec 7) (ct : Line) : State :=
  storeLine (storeLine (touchLine s (nodeAddr g 1 (i / 64)))
      (dataTagLine g i (setTag lt.data (i % 8) (dataTag key (nodeMajor ln.data) e (g.base + i) ct))))
    (nodeLine g 1 (i / 64) (setMinor ln.data (i % 64) e))

theorem placed_lines (s : State) (g : RegionCfg) (key : KeyVal) (i : Nat) (ln lt : CacheLine) (e : BitVec 7) (ct : Line) :
    LinesOnly s (placed s g key i ln lt e ct) :=
  ((touchLine_use _ _).wait.lines.trans (storeLine_lines _ _)).trans (storeLine_lines _ _)

section
variable (h : Guarded s r i g key ln)
include h

/-- A read first asks mc_ for its line. -/
theorem readProtected_missing (hf : op.failed = []) (hg : op.got = []) :
    (readProtected g op i).run.run s = (.error (.need [g.base + i]), touchLine s (nodeAddr g 1 (i / 64))) := by
  rw [readProtected, run_bind_ok h.fetchesKey]
  dsimp only
  rw [run_bind_ok (beside_ok (h.fetchesNode op) _), run_bind_error (gathered_missing hf hg _ _)]

/-- With its line read, a read is decided by the tag: the plaintext, a repeat, or an integrity failure (R271, R281). -/
theorem readProtected_judged {a : Nat} (ha : a = g.base + i) (hf : op.failed = []) (hg : spFind op.got a = some d)
    (ht : cached s (dataTagAddr g i) = some lt) :
    (readProtected g op i).run.run s =
      if dataTag key (nodeMajor ln.data) (nodeMinor ln.data (i % 64)) a d = tagAt lt.data (i % 8) then
        (notedOnce g op a >>= fun _ => pure (d ^^^ lineStream key (nodeMajor ln.data) (nodeMinor ln.data (i % 64)) a) : Ev Line).run.run
          (touchLine s (nodeAddr g 1 (i / 64)))
      else if op.once.contains a then
        (.error (.status 2),
          raiseCause (bump (touchLine s (nodeAddr g 1 (i / 64))) (0x3C11 + r.val) 3) (evRegion r.val) 0 r.val)
      else (.error (.retry [a, dataTagAddr g i]), touchLine s (nodeAddr g 1 (i / 64))) := by
  subst ha
  rw [readProtected, run_bind_ok h.fetchesKey]
  dsimp only
  rw [run_bind_ok (beside_ok (h.fetchesNode op) _), run_bind_ok (gathered_got hf hg _),
    run_bind_ok (tagLine_cached ((cached_touchLine s _ _).trans ht) _), h.region]
  split
  · rfl
  · split <;> rfl

section
variable (hc : op.cipher = none) (hs : (regionDyn s r).state ≠ .writeLocked)
include hc hs

/-- A full write takes the next minor of its line. -/
theorem writeProtected_full (d : Line) : (writeProtected g op i d (BitVec.allOnes 64)).run.run s =
    (nextMinor 1 (i / 64) ln.data (i % 64) >>= writeUnder g op i key ln.data d).run.run (touchLine s (nodeAddr g 1 (i / 64))) := by
  have hopen : (regionDyn s g.region).state ≠ .writeLocked := by rw [h.region]; exact hs
  have hplain : (writePlain (BitVec.allOnes 64 = BitVec.allOnes 64) (readProtected g op i) d
      (BitVec.allOnes 64)).run.run s = (.ok d, s) := by simp only [writePlain, decide_true, if_true, run_pure]
  rw [writeProtected, hc]
  dsimp only
  rw [run_evGet, if_neg hopen, if_neg h.not_poisoned, run_bind_ok h.fetchesKey, run_bind_ok hplain,
    run_bind_ok (h.fetchesNode op)]
  rfl

theorem writeProtected_next (ht : cached s (dataTagAddr g i) = some lt) (ha : op.addr = g.base + i)
    (he : e = nodeMinor ln.data (i % 64) + 1) (h127 : nodeMinor ln.data (i % 64) ≠ 127)
    (hct : ct = d ^^^ lineStream key (nodeMajor ln.data) e op.addr) :
    (writeProtected g op i d (BitVec.allOnes 64)).run.run s = (.ok (.keep (sentWrite op ct)), placed s g key i ln lt e ct) := by
  have htag : cached (touchLine s (nodeAddr g 1 (i / 64))) (dataTagAddr g i) = some lt := ht
  subst he hct
  rw [writeProtected_full h hc hs, run_bind_ok (nextMinor_next h127), writeUnder, run_bind_ok (placeDataTag_cached htag _),
    run_bind_ok (storeNode_cached (levelsOf_pos _) ?_ _), run_pure, sentWrite, placed, ha]
  exact isSome_cached_storeLine (l := dataTagLine _ _ _) (Option.isSome_iff_exists.2 ⟨lt, htag⟩)
    (Option.isSome_iff_exists.2 ⟨ln, h.node⟩)

theorem writeProtected_spent (h127 : nodeMinor ln.data (i % 64) = 127) (hm : nodeMajor ln.data = BitVec.allOnes 64) (d : Line) :
    (writeProtected g op i d (BitVec.allOnes 64)).run.run s = (.error .locked, touchLine s (nodeAddr g 1 (i / 64))) := by
  rw [writeProtected_full h hc hs, run_bind_error (nextMinor_locked h127 hm)]

theorem writeProtected_renorm (h127 : nodeMinor ln.data (i % 64) = 127) (hm : nodeMajor ln.data ≠ BitVec.allOnes 64) (d : Line) :
    (writeProtected g op i d (BitVec.allOnes 64)).run.run s = (.error (.renorm 1 (i / 64)), touchLine s (nodeAddr g 1 (i / 64))) := by
  rw [writeProtected_full h hc hs, run_bind_error (nextMinor_renorm h127 hm)]

end
end

/-! ### One evaluation of an operation of a region -/

section
variable {k : Chan} {m : W64} (hr : op.region = some r) (ho : op.old = none)
include ho

omit hr in
theorem opCfg_current (s : State) (r : Region) : opCfg s op r = regionCfg s r := by
  simp only [opCfg, ho, Option.bind_none]

include hr

theorem evalOp_evict {kind : LineKind} (hw : op.work = .evict kind) : evalOp s k op = evict (regionCfg s r) op kind := by
  simp only [evalOp, hw, hr, opCfg_current ho]

theorem evalOp_renorm {level j : Nat} (hw : op.work = .renorm level j) :
    evalOp s k op = renormalise (regionCfg s r) op level j := by
  simp only [evalOp, hw, hr, opCfg_current ho]

section
variable (hg : regionCfg s r = g) (hm : g.mode = 3) (ha : op.addr = g.base + i)
include hg hm ha

theorem evalOp_read (hw : op.work = .read) : evalOp s k op = readRegion g op i := by
  have h1 : g.mode ≠ 1 := by omega
  have hi : op.addr - g.base = i := by omega
  simp only [evalOp, hw, hr, opCfg_current ho, hg, if_neg h1, hi]

theorem evalOp_readPoisoned (hw : op.work = .read) (hp : poisonedLine s r i = true) :
    (evalOp s k op).run.run s = (.error (.status 3), s) := by
  have hpoison : poisonedLine s g.region i = true := by rw [← hg]; exact hp
  rw [evalOp_read hr ho hg hm ha hw, readRegion, run_evGet, if_pos hm, if_pos hpoison, run_throw]

theorem evalOp_write (hw : op.work = .write d m) : evalOp s k op = writeProtected g op i d m := by
  have h1 : g.mode ≠ 1 := by omega
  have h2 : g.mode ≠ 2 := by omega
  have hi : op.addr - g.base = i := by omega
  simp only [evalOp, hw, hr, opCfg_current ho, hg, if_neg h1, if_neg h2, hi]

/-- A write that has gone to mc_ waits for its answer. -/
theorem evalOp_writeSent (hw : op.work = .write d m) (hc : op.cipher = some ct) (hf : op.failed = []) :
    (evalOp s k op).run.run s = (.ok (if op.done.contains op.addr then .answer 0 0 else .keep op), s) := by
  rw [evalOp_write hr ho hg hm ha hw, writeProtected, hc]
  dsimp only
  rw [← ha, writeAnswer, hf]
  rfl

end
end

/-! A read whose line has come is decided by its tag (R271, R281). -/

section
variable {k : Chan} (hr : op.region = some r) (ho : op.old = none) (hw : op.work = .read) (ha : op.addr = g.base + i)
include hr ho hw ha

theorem evalOp_readOf (h : Keyed s r i g key) {judged : Except Halt Line × State} (hj : (readProtected g op i).run.run s = judged) :
    (evalOp s k op).run.run s = (judged.1.map (OpEnd.answer 0), judged.2) := by
  rw [evalOp_read hr ho h.cfg h.mode ha hw, readRegion, run_evGet, if_pos h.mode, if_neg h.not_poisoned]
  obtain ⟨_ | p, t⟩ := judged
  · exact run_bind_error hj _
  · exact run_bind_ok hj _

variable (h : Guarded s r i g key ln)
include h

theorem evalOp_readMissing (hf : op.failed = []) (hg : op.got = []) :
    (evalOp s k op).run.run s = (.error (.need [op.addr]), touchLine s (nodeAddr g 1 (i / 64))) := by
  rw [evalOp_readOf hr ho hw ha h.toKeyed (readProtected_missing h hf hg), ha]
  rfl

variable (hf : op.failed = []) (hg : spFind op.got op.addr = some d) (ht : cached s (dataTagAddr g i) = some lt)
include hf hg ht

/-- The tag matches: the line is answered in the clear. -/
theorem evalOp_readGood {u : State} (hu : (notedOnce g op op.addr).run.run (touchLine s (nodeAddr g 1 (i / 64))) = (.ok (), u))
    (hm : dataTag key (nodeMajor ln.data) (nodeMinor ln.data (i % 64)) op.addr d = tagAt lt.data (i % 8)) :
    (evalOp s k op).run.run s =
      (.ok (.answer 0 (d ^^^ lineStream key (nodeMajor ln.data) (nodeMinor ln.data (i % 64)) op.addr)), u) := by
  rw [evalOp_readOf hr ho hw ha h.toKeyed (readProtected_judged h ha hf hg ht), if_pos hm, run_bind_ok hu]
  rfl

section
variable (hm : dataTag key (nodeMajor ln.data) (nodeMinor ln.data (i % 64)) op.addr d ≠ tagAt lt.data (i % 8))
include hm

/-- A second mismatch is an integrity failure. -/
theorem evalOp_readFails (hon : op.once.contains op.addr = true) :
    (evalOp s k op).run.run s = (.error (.status 2),
      raiseCause (bump (touchLine s (nodeAddr g 1 (i / 64))) (0x3C11 + r.val) 3) (evRegion r.val) 0 r.val) := by
  rw [evalOp_readOf hr ho hw ha h.toKeyed (readProtected_judged h ha hf hg ht), if_neg hm, if_pos hon]
  rfl

/-- A first mismatch has the line and its tags read again. -/
theorem evalOp_readAgain (hon : op.once.contains op.addr = false) :
    (evalOp s k op).run.run s = (.error (.retry [op.addr, dataTagAddr g i]), touchLine s (nodeAddr g 1 (i / 64))) := by
  rw [evalOp_readOf hr ho hw ha h.toKeyed (readProtected_judged h ha hf hg ht), if_neg hm, if_neg (Bool.eq_false_iff.1 hon)]
  rfl

end
end

/-! A full write that has not yet gone to mc_ (R282, R283, R285). -/

section
variable {k : Chan} (hr : op.region = some r) (ho : op.old = none) (hw : op.work = .write d (BitVec.allOnes 64))
  (hc : op.cipher = none) (ha : op.addr = g.base + i) (h : Guarded s r i g key ln) (hs : (regionDyn s r).state ≠ .writeLocked)
include hr ho hw hc ha h hs

theorem evalOp_writeNext (ht : cached s (dataTagAddr g i) = some lt) (he : e = nodeMinor ln.data (i % 64) + 1)
    (h127 : nodeMinor ln.data (i % 64) ≠ 127) (hct : ct = d ^^^ lineStream key (nodeMajor ln.data) e op.addr) :
    (evalOp s k op).run.run s = (.ok (.keep (sentWrite op ct)), placed s g key i ln lt e ct) := by
  rw [evalOp_write hr ho h.cfg h.mode ha hw, writeProtected_next h hc hs ht ha he h127 hct]

variable (h127 : nodeMinor ln.data (i % 64) = 127)
include h127

theorem evalOp_writeSpent (hm : nodeMajor ln.data = BitVec.allOnes 64) :
    (evalOp s k op).run.run s = (.error .locked, touchLine s (nodeAddr g 1 (i / 64))) := by
  rw [evalOp_write hr ho h.cfg h.mode ha hw, writeProtected_spent h hc hs h127 hm]

theorem evalOp_writeRenorm (hm : nodeMajor ln.data ≠ BitVec.allOnes 64) :
    (evalOp s k op).run.run s = (.error (.renorm 1 (i / 64)), touchLine s (nodeAddr g 1 (i / 64))) := by
  rw [evalOp_write hr ho h.cfg h.mode ha hw, writeProtected_renorm h hc hs h127 hm]

end
end

section
variable {s t : State} {k : Chan} {op o : MemOp}

theorem runOp_keep (h : (evalOp s k op).run.run s = (.ok (.keep o), t)) : runOp k op s = issueWrites (putOp t k o) k o := by
  simp only [runOp, h]

theorem runOp_answer {st : Nat} {d : Line} (h : (evalOp s k op).run.run s = (.ok (.answer st d), t)) :
    runOp k op s = dropOp (respond t k op.id (isWrite op) op.region st d) k op.seq := by
  simp only [runOp, h]

theorem runOp_error {e : Halt} (h : (evalOp s k op).run.run s = (.error e, t)) : runOp k op s = onHalt t k op e := by
  simp only [runOp, h]

end

end Sys2Proof.Machine

/-! PROOF. Requests to full-protection regions on an idle channel, and the answers of mc_ to them (R271, R281, R282, R285). -/

namespace Sys2Proof.Machine

/-! ### The cache and the channels are apart -/

section
variable (s : State) (k : Chan) (c : MemChan)

theorem touchLine_setMemChan (a : Nat) : touchLine (setMemChan s k c) a = setMemChan (touchLine s a) k c := rfl

theorem storeLine_setMemChan (l : CacheLine) : storeLine (setMemChan s k c) l = setMemChan (storeLine s l) k c := rfl

theorem placed_setMemChan (g : RegionCfg) (key : KeyVal) (i : Nat) (ln lt : CacheLine) (e : BitVec 7) (ct : Line) :
    placed (setMemChan s k c) g key i ln lt e ct = setMemChan (placed s g key i ln lt e ct) k c := by
  rw [placed, touchLine_setMemChan, storeLine_setMemChan, storeLine_setMemChan, placed]

theorem raise_setMemChan (src d : Nat) : raise (setMemChan s k c) src d = setMemChan (raise s src d) k c := by
  unfold raise
  split
  · next h => rw [if_pos (show ctlOn s = true from h)]; rfl
  · next h => rw [if_neg (show ¬ctlOn s = true from h)]; split <;> rfl

theorem raiseCause_setMemChan (src b d : Nat) : raiseCause (setMemChan s k c) src b d = setMemChan (raiseCause s src b d) k c := by
  unfold raiseCause
  dsimp only
  rw [raise_setMemChan]
  split
  · next h => rw [if_pos (show ctlOn s = true from h)]; rfl
  · next h => rw [if_neg (show ¬ctlOn s = true from h)]

theorem lockRegion_setMemChan (r : Region) : lockRegion (setMemChan s k c) r = setMemChan (lockRegion s r) k c :=
  raiseCause_setMemChan (setRegionDyn s r { regionDyn s r with state := .writeLocked }) k c (evRegion r.val) 2 r.val

@[simp] theorem regionDyn_setRegionDyn (r : Region) (d : RegionDyn) : regionDyn (setRegionDyn s r d) r = d :=
  spGet_spSet_same regionDefault s.mem.regions r.val d

@[simp] theorem regionDyn_raiseCause (src b d : Nat) (r : Region) : regionDyn (raiseCause s src b d) r = regionDyn s r := by
  rw [regionDyn, raiseCause_mem]
  rfl

theorem regionDyn_lockRegion (r : Region) : regionDyn (lockRegion s r) r = { regionDyn s r with state := .writeLocked } := by
  rw [lockRegion, regionDyn_raiseCause, regionDyn_setRegionDyn]

end

/-! ### An operation that is alone on its channel -/

section
variable {s t u : State} {k : Chan} {c e : MemChan} {op o : MemOp} {qs rs : List McReq}

/-- An operation is alone on its channel, and may be evaluated: it is no renormalisation, and a request has room for its answer. -/
structure Alone (s : State) (k : Chan) (op : MemOp) : Prop where
  ops : (memChan s k).ops = [op]
  plain : ∀ l j, op.work ≠ .renorm l j
  room : isRequest op = true → (memChan s k).rsp.length < 256

theorem Alone.not_blocked (h : Alone s k op) : blocked s k op = false := by
  simp [blocked, h.ops, underRenorm, sweepBars, h.plain]

theorem Alone.pumpOnce (h : Alone s k op) : pumpOnce s k = advanceOp s k op := by
  have hroom : (isRequest op && decide (256 ≤ (memChan s k).rsp.length)) = false := by
    rcases hq : isRequest op with _ | _
    · rfl
    · exact decide_eq_false (Nat.not_le.2 (h.room hq))
  simp only [Machine.pumpOnce, h.ops, List.map_cons, List.map_nil, List.foldl_cons, List.foldl_nil,
    List.find?_cons_of_pos, beq_self_eq_true, h.not_blocked, hroom, Bool.or_self, Bool.false_eq_true, if_false]

/-- The two evaluations of a cycle, when the operation is still there after the first. -/
theorem Alone.pump (h : Alone s k op) (ht : advanceOp s k op = t) (h' : Alone t k o) : pump s k = advanceOp t k o := by
  rw [Machine.pump, h.pumpOnce, ht, h'.pumpOnce]

theorem alone_working (hw : ∀ l j, op.work ≠ .renorm l j) (hl : isRequest op = true → c.rsp.length < 256) (qs : List McReq) :
    Alone (setMemChan s k (working c op qs)) k op where
  ops := by rw [memChan_setMemChan_same]; rfl
  plain := hw
  room := by rw [memChan_setMemChan_same]; exact hl

/-- With no request of an earlier record, an evaluation is all that an operation of a region does. -/
theorem advanceOp_eq {r : Region} (hr : op.region = some r) (ho : op.old = none) (hrun : runOp k op s = t)
    (hold : (regionDyn t r).old = []) : advanceOp s k op = t :=
  (advanceOp_region hr ho (by rw [hrun]; exact hold)).trans hrun

theorem issueWrites_sentWrite {d : Line} (hf : op.failed = []) (hd : op.done = [])
    (hm : opMask s (sentWrite op d) = BitVec.allOnes 64) :
    issueWrites s k (sentWrite op d) = issueMc s k op.seq op.addr true d (BitVec.allOnes 64) none := by
  have hopen : ¬(op.done.contains op.addr || (spFind op.failed (op.addr + 2 ^ 34)).isSome) = true := by
    simp [hf, hd, spFind]
  exact (if_neg hopen).trans (congrArg (issueMc s k op.seq op.addr true d · none) hm)

/-- The operation sends its line to mc_ at its first evaluation, and waits for the answer. -/
theorem pump_sends {r : Region} {d : Line} (hr : op.region = some r) (ho : op.old = none) (hw : ∀ l j, op.work ≠ .renorm l j)
    (hl : isRequest op = true → c.rsp.length < 256) (hf : op.failed = []) (hd : op.done = []) (hwh : c.withheld = [])
    (hold : (regionDyn t r).old = []) (hm : ∀ e, opMask (setMemChan t k e) (sentWrite op d) = BitVec.allOnes 64)
    (first : (evalOp (setMemChan s k (working c op [])) k op).run.run (setMemChan s k (working c op [])) =
      (.ok (.keep (sentWrite op d)), setMemChan t k (working c op [])))
    (again : ∀ e, (evalOp (setMemChan t k e) k (sentWrite op d)).run.run (setMemChan t k e) =
      (.ok (.keep (sentWrite op d)), setMemChan t k e)) :
    pump (setMemChan s k (working c op [])) k =
      setMemChan t k (working c (sentWrite op d) [⟨0, op.seq, op.addr, true, d, BitVec.allOnes 64, t.now, c.mcReady⟩]) := by
  have hfirst : runOp k op (setMemChan s k (working c op [])) = setMemChan t k
      (working c (sentWrite op d) [⟨0, op.seq, op.addr, true, d, BitVec.allOnes 64, t.now, c.mcReady⟩]) := by
    rw [runOp_keep first, putOp_working (op := op) (o := sentWrite op d) rfl, issueWrites_sentWrite hf hd (hm _),
      issueMc_first (freeMcId_none hwh)]
  have hagain : runOp k (sentWrite op d) (setMemChan t k
      (working c (sentWrite op d) [⟨0, op.seq, op.addr, true, d, BitVec.allOnes 64, t.now, c.mcReady⟩])) = setMemChan t k
      (working c (sentWrite op d) [⟨0, op.seq, op.addr, true, d, BitVec.allOnes 64, t.now, c.mcReady⟩]) := by
    rw [runOp_keep (again _), putOp_working rfl, issueWrites_sentWrite hf hd (hm _), issueMc_waiting rfl rfl rfl]
  rw [(alone_working hw hl []).pump (advanceOp_eq hr ho hfirst hold) (alone_working (op := sentWrite op d) hw hl _)]
  exact advanceOp_eq (op := sentWrite op d) hr ho hagain hold

end

/-! ### Acceptance (R267, R269) -/

section
variable {s : State} {k : Chan} {r : Region} {a : Nat} {id : BitVec 12} {work : MemWork} {write : Bool} {mask : W64}

/-- A request as its channel holds it. -/
def requestOf (work : MemWork) (a : Nat) (id : BitVec 12) (r : Region) (n : Nat) : MemOp :=
  { newOp work a id (some r) with seq := n }

theorem acceptMq_region (hi : Idle s k) (h : decodeLine s k a = .region r) (hr : regionRefusal s r write mask = none) :
    acceptMq s k a id work write mask =
      pump (setMemChan (bump s (0x3C11 + r.val) (if write then 2 else 1)) k
        (working (numbered (memChan s k)) (requestOf work a id r (memChan s k).nextSeq) [])) k := by
  simp only [acceptMq, h, hr]
  rw [appendOp_resting (memChan_bump s k _ _) hi.resting]
  rfl

theorem regionRefusal_active (h : (regionDyn s r).state = .active) (hg : groupCount s 4 ≠ 0) (hm : write = true → mask ≠ 0) :
    regionRefusal s r write mask = none := by
  have hmask : ¬(write = true ∧ mask = 0) := fun hw => hm hw.1 hw.2
  have hgroup : ¬(2 ≤ (regionCfg s r).mode ∧ groupCount s 4 = 0) := fun hw => hg hw.2
  simp only [regionRefusal, h, if_neg hmask, if_neg hgroup, reduceCtorEq, or_self, and_false, if_false]

end

end Sys2Proof.Machine

/-! PROOF. A read or a full write on an idle channel, through the two evaluations of its cycle (R281, R282, R285). -/

namespace Sys2Proof.Machine

/-! ### A read on an idle channel (R281) -/

section
variable {s : State} {k : Chan} {c : MemChan} {r : Region} {i : Nat} {g : RegionCfg} {key : KeyVal} {ln lt : CacheLine}
  {op : MemOp} {d ct : Line} {e : BitVec 7} (hr : op.region = some r) (ho : op.old = none) (ha : op.addr = g.base + i)
  (hl : c.rsp.length < 256)

section
variable (hw : op.work = .read)
include hw

theorem isRequest_read : isRequest op = true := by simp [isRequest, hw]

theorem isWrite_read : isWrite op = false := by simp [isWrite, hw]

theorem not_renorm_read (l j : Nat) : op.work ≠ .renorm l j := by rw [hw]; exact nofun

include hr ho

/-- A read that ends with a status is answered with it. -/
theorem pump_readStatus (hl : c.rsp.length < 256) (hc : Resting c) {s0 : State} {st : Nat}
    (heval : (evalOp (setMemChan s0 k (working c op [])) k op).run.run (setMemChan s0 k (working c op [])) =
      (.error (.status st), setMemChan s k (working c op []))) (hold : (regionDyn (countAnswer s (some r) st) r).old = []) :
    pump (setMemChan s0 k (working c op [])) k =
      setMemChan (countAnswer s (some r) st) k (answeredWith c ⟨op.id, false, 0, BitVec.ofNat 3 st⟩) := by
  have hrun : runOp k op (setMemChan s0 k (working c op [])) =
      setMemChan (countAnswer s (some r) st) k (answeredWith c ⟨op.id, false, 0, BitVec.ofNat 3 st⟩) := by
    rw [runOp_error heval, onHalt]
    simp only [endWith, hw, isRequest_read hw, isWrite_read hw, hr, if_true]
    rw [dropOp_respond hc, ite_self]
  exact pump_ends (isRequest_read hw) hl hc.ops (advanceOp_eq hr ho hrun hold)

include ha

/-- A poisoned line is answered with status 3 (R281). -/
theorem pump_readPoisoned (hl : c.rsp.length < 256) (hc : Resting c) (hg : regionCfg s r = g) (hm : g.mode = 3)
    (hold : (regionDyn s r).old = []) (hp : poisonedLine s r i = true) :
    pump (setMemChan s k (working c op [])) k =
      setMemChan (bump s (0x3C11 + r.val) 6) k (answeredWith c ⟨op.id, false, 0, 3⟩) :=
  pump_readStatus hr ho hw hl hc (evalOp_readPoisoned hr ho hg hm ha hw hp) hold

/-- What the read of a guarded line leaves of the cache's use, after the two evaluations of its first cycle. -/
def readTwice (s : State) (a : Nat) : State := touchLine (touchLine s a) a

theorem runOp_readAsks (h : Guarded s r i g key ln) (hf : op.failed = []) (hg : op.got = []) (qs : List McReq) :
    runOp k op (setMemChan s k (working c op qs)) =
      issueMc (setMemChan (touchLine s (nodeAddr g 1 (i / 64))) k (working c op qs)) k op.seq op.addr false 0 0 none := by
  rw [runOp_error (evalOp_readMissing hr ho hw ha (h.onChan k _) hf hg), onHalt, List.foldl_cons, List.foldl_nil,
    touchLine_setMemChan]

/-- The read of a guarded line asks mc_ for it. -/
theorem pump_readAsks (hl : c.rsp.length < 256) (h : Guarded s r i g key ln) (hf : op.failed = []) (hg : op.got = [])
    (hwh : c.withheld = []) :
    pump (setMemChan s k (working c op [])) k = setMemChan (readTwice s (nodeAddr g 1 (i / 64))) k
      (working c op [⟨0, op.seq, op.addr, false, 0, 0, s.now, c.mcReady⟩]) := by
  have hfirst := runOp_readAsks (k := k) (c := c) hr ho ha hw h hf hg []
  rw [issueMc_first (freeMcId_none hwh)] at hfirst
  have hagain := runOp_readAsks (k := k) (c := c) hr ho ha hw (h.touched (nodeAddr g 1 (i / 64))) hf hg
    [⟨0, op.seq, op.addr, false, 0, 0, s.now, c.mcReady⟩]
  rw [issueMc_waiting rfl rfl rfl] at hagain
  rw [(alone_working (not_renorm_read hw) (fun _ => hl) []).pump (advanceOp_eq hr ho hfirst ((h.touched _).onChan k _).old)
    (alone_working (not_renorm_read hw) (fun _ => hl) _), readTwice]
  exact advanceOp_eq hr ho hagain (((h.touched _).touched _).onChan k _).old

end

/-! ### A full write on an idle channel (R282, R285) -/

section
variable (hw : op.work = .write d (BitVec.allOnes 64))
include hr ho ha hl hw

/-- A full write below the last minor sends its ciphertext to mc_, with its tag and its entry placed in the cache. -/
theorem pump_writeSends (hf : op.failed = []) (h : Guarded s r i g key ln) (ht : cached s (dataTagAddr g i) = some lt)
    (hc : op.cipher = none) (hd : op.done = []) (hs : (regionDyn s r).state ≠ .writeLocked) (hwh : c.withheld = [])
    (he : e = nodeMinor ln.data (i % 64) + 1) (h127 : nodeMinor ln.data (i % 64) ≠ 127)
    (hct : ct = d ^^^ lineStream key (nodeMajor ln.data) e op.addr) :
    pump (setMemChan s k (working c op [])) k = setMemChan (placed s g key i ln lt e ct) k
      (working c (sentWrite op ct) [⟨0, op.seq, op.addr, true, ct, BitVec.allOnes 64, s.now, c.mcReady⟩]) := by
  have hplaced := placed_lines s g key i ln lt e ct
  have hcfg : ∀ c', regionCfg (setMemChan (placed s g key i ln lt e ct) k c') r = g :=
    fun c' => (hplaced.trans ((setMemChan_wait _ k c').lines)).regionCfg r |>.trans h.cfg
  rw [← hplaced.now]
  refine pump_sends hr ho (by rw [hw]; exact nofun) (fun _ => hl) hf hd hwh (by rw [hplaced.regionDyn]; exact h.old)
    (fun c' => ?mask) ?first (fun c' => ?again)
  case mask =>
    have hwork : (sentWrite op ct).work = .write d (BitVec.allOnes 64) := hw
    have hreg : (sentWrite op ct).region = some r := hr
    simp only [opMask, hwork, hreg, ite_self]
  case first => rw [evalOp_writeNext hr ho hw hc ha (h.onChan k _) hs ht he h127 hct, placed_setMemChan]
  case again =>
    have hnone : ¬((sentWrite op ct).done.contains (sentWrite op ct).addr) = true := by
      rw [show (sentWrite op ct).done = [] from hd]; exact Bool.false_ne_true
    rw [evalOp_writeSent (op := sentWrite op ct) hr ho (hcfg c') h.mode ha hw rfl hf, if_neg hnone]

/-- A write that finds its counters spent locks its region, and is answered with status 5. -/
theorem pump_writeSpent (h : Guarded s r i g key ln) (hc : op.cipher = none) (hs : (regionDyn s r).state ≠ .writeLocked)
    (h127 : nodeMinor ln.data (i % 64) = 127) (hm : nodeMajor ln.data = BitVec.allOnes 64) (hrest : Resting c) :
    pump (setMemChan s k (working c op [])) k =
      setMemChan (bump (lockRegion (touchLine s (nodeAddr g 1 (i / 64))) r) (0x3C11 + r.val) 8) k
        (answeredWith c ⟨op.id, true, 0, 5⟩) := by
  have hq : isRequest op = true := by simp [isRequest, hw]
  have hiw : isWrite op = true := by simp [isWrite, hw]
  have hrun : runOp k op (setMemChan s k (working c op [])) =
      setMemChan (bump (lockRegion (touchLine s (nodeAddr g 1 (i / 64))) r) (0x3C11 + r.val) 8) k
        (answeredWith c ⟨op.id, true, 0, 5⟩) := by
    rw [runOp_error (evalOp_writeSpent hr ho hw hc ha (h.onChan k _) hs h127 hm), onHalt, touchLine_setMemChan, hr]
    simp only [onLocked, endWith, hw, hq, hiw, if_true]
    rw [lockRegion_setMemChan, hr, dropOp_respond hrest, ite_self]
    rfl
  refine pump_ends hq hl hrest.ops (advanceOp_eq hr ho hrun ?_)
  rw [regionDyn_setMemChan]
  exact (congrArg RegionDyn.old (regionDyn_lockRegion _ r)).trans h.old

/-- The answer of mc_ ends a write. -/
theorem pump_writeAnswered (hf : op.failed = []) (hg : regionCfg s r = g) (hm : g.mode = 3) (hold : (regionDyn s r).old = [])
    (hrest : Resting c) (hc : op.cipher = some ct) (hd : op.done.contains op.addr = true) :
    pump (setMemChan s k (working c op [])) k = setMemChan s k (answeredWith c ⟨op.id, true, 0, 0⟩) := by
  have hiw : isWrite op = true := by simp [isWrite, hw]
  have heval := evalOp_writeSent (s := setMemChan s k (working c op [])) (k := k) hr ho hg hm ha hw hc hf
  rw [if_pos hd] at heval
  have hrun : runOp k op (setMemChan s k (working c op [])) = setMemChan s k (answeredWith c ⟨op.id, true, 0, 0⟩) := by
    rw [runOp_answer heval, hr, hiw, dropOp_respond hrest]
    rfl
  exact pump_ends (by simp [isRequest, hw]) hl hrest.ops (advanceOp_eq hr ho hrun hold)

end
end

end Sys2Proof.Machine

/-! PROOF. The answer of mc_ to a read: the line in the clear, or an integrity failure (R271, R281). -/

namespace Sys2Proof.Machine

/-! ### The answer to a read (R271, R281) -/

section
variable {s : State} {k : Chan} {c : MemChan} {r : Region} {i : Nat} {g : RegionCfg} {key : KeyVal} {ln lt : CacheLine}
  {op : MemOp} {d : Line}

/-- What an access that needed its second attempt adds to the faults noted on its channel. -/
def notesOf (op : MemOp) (a : Nat) : List (Nat × Nat) := if op.once.contains a then [(op.seq, a)] else []

/-- It counts as a transient fault of the region (R271). -/
def countOnce (s : State) (r : Region) (op : MemOp) (a : Nat) : State :=
  if op.once.contains a then bump s (0x3C11 + r.val) 5 else s

theorem run_notedOnce (hk : chanOf g = k) (hr : g.region = r) (hn : c.noted = []) (a : Nat) :
    (notedOnce g op a).run.run (setMemChan s k (working c op [])) =
      (.ok (), setMemChan (countOnce s r op a) k (working { c with noted := notesOf op a } op [])) := by
  rcases ho : op.once.contains a with _ | _
  · rw [notedOnce, ho, countOnce, notesOf, ho, if_neg Bool.false_ne_true, if_neg Bool.false_ne_true, if_neg Bool.false_ne_true,
      ← hn]
    rfl
  · have hnoted : (working c op []).noted = [] := hn
    rw [notedOnce, ho, countOnce, notesOf, ho, if_pos rfl, if_pos rfl, if_pos rfl, noteFault, run_evMod, hk, hr,
      memChan_setMemChan_same]
    dsimp only
    rw [hnoted, List.contains_nil, if_neg Bool.false_ne_true, setMemChan_working, bump_setMemChan]
    rfl

/-- The operation is answered, and the faults noted for it are forgotten. -/
theorem dropOp_respond_noted (hc : Resting c) (a : Nat) (w : Bool) (r : Option Region) (st : Nat) (d : Line) :
    dropOp (respond (setMemChan s k (working { c with noted := notesOf op a } op [])) k op.id w r st d) k op.seq =
      setMemChan (countAnswer s r st) k (answeredWith c ⟨op.id, w, if st = 0 ∧ !w then d else 0, BitVec.ofNat 3 st⟩) := by
  have hforget : (notesOf op a).filter (fun e => e.1 != op.seq) = [] := by
    unfold notesOf; split <;> simp
  have hgone : [op].filter (fun o => o.seq != op.seq) = [] := by simp
  rw [respond_working]
  simp only [dropOp, memChan_setMemChan_same, setMemChan_working]
  obtain ⟨ops, mc, withheld, rsp, nextSeq, late, noted, ready⟩ := c
  obtain ⟨rfl, rfl, rfl⟩ : ops = [] ∧ mc = [] ∧ noted = [] := ⟨hc.ops, hc.mc, hc.noted⟩
  simp only [working, answeredWith, hforget, hgone]

theorem countOnce_regionDyn (s : State) (r : Region) (op : MemOp) (a : Nat) (q : Region) :
    regionDyn (countOnce s r op a) q = regionDyn s q := by unfold countOnce; split <;> rfl

section
variable (hr : op.region = some r) (ho : op.old = none) (hw : op.work = .read) (ha : op.addr = g.base + i)
  (hl : c.rsp.length < 256) (hc : Resting c) (h : Guarded s r i g key ln) (hf : op.failed = [])
  (hg : spFind op.got op.addr = some d) (ht : cached s (dataTagAddr g i) = some lt)
include hr ho hw ha hl hc h hf hg ht

theorem pump_readGood (hk : chanOf g = k)
    (hm : dataTag key (nodeMajor ln.data) (nodeMinor ln.data (i % 64)) op.addr d = tagAt lt.data (i % 8)) :
    pump (setMemChan s k (working c op [])) k =
      setMemChan (countOnce (touchLine s (nodeAddr g 1 (i / 64))) r op op.addr) k (answeredWith c
        ⟨op.id, false, d ^^^ lineStream key (nodeMajor ln.data) (nodeMinor ln.data (i % 64)) op.addr, 0⟩) := by
  have hnote := run_notedOnce (s := touchLine s (nodeAddr g 1 (i / 64))) (op := op) hk h.region hc.noted op.addr
  rw [← touchLine_setMemChan] at hnote
  have hrun := runOp_answer (evalOp_readGood (k := k) hr ho hw ha (h.onChan k _) hf hg ht hnote hm)
  rw [isWrite_read hw, hr, dropOp_respond_noted hc] at hrun
  refine pump_ends (isRequest_read hw) hl hc.ops (advanceOp_eq hr ho hrun ?_)
  rw [regionDyn_setMemChan]
  exact (congrArg RegionDyn.old (countOnce_regionDyn _ r op op.addr r)).trans h.old

variable (hm : dataTag key (nodeMajor ln.data) (nodeMinor ln.data (i % 64)) op.addr d ≠ tagAt lt.data (i % 8))
include hm

/-- The integrity failure of a read is counted, raised, and answered with status 2. -/
theorem pump_readFails (hon : op.once.contains op.addr = true) :
    pump (setMemChan s k (working c op [])) k =
      setMemChan (raiseCause (bump (touchLine s (nodeAddr g 1 (i / 64))) (0x3C11 + r.val) 3) (evRegion r.val) 0 r.val) k
        (answeredWith c ⟨op.id, false, 0, 2⟩) := by
  have heval := evalOp_readFails (k := k) hr ho hw ha (h.onChan k (working c op [])) hf hg ht hm hon
  rw [touchLine_setMemChan, bump_setMemChan, raiseCause_setMemChan] at heval
  refine pump_readStatus hr ho hw hl hc heval ?_
  exact (congrArg RegionDyn.old (regionDyn_raiseCause _ _ _ _ r)).trans h.old

end
end

end Sys2Proof.Machine

/-! PROOF. A read whose tag does not match is read again (R271). -/

namespace Sys2Proof.Machine

/-! ### An operation that has read nothing asks for lines -/

/-- The evaluation comes to a value, or to a wait for lines; it changes the use of the cache at most. -/
def Asks {α : Type} (m : Ev α) : Prop :=
  ∀ s, ∃ t, UseOnly s t ∧ ((∃ d, m.run.run s = (.ok d, t)) ∨ ∃ as, m.run.run s = (.error (.need as), t))

section
variable {c : RegionCfg} {op : MemOp} {m : Ev Line}

theorem Asks.asPoison (h : Asks m) (level j : Nat) : Asks (asPoison level j m) := fun s => by
  obtain ⟨t, ht, ⟨d, hd⟩ | ⟨as, has⟩⟩ := h s
  · exact ⟨t, ht, .inl ⟨d, run_catch_ok hd _⟩⟩
  · exact ⟨t, ht, .inr ⟨as, run_catch_error has _⟩⟩

theorem Asks.beside (h : Asks m) (op : MemOp) (a : Nat) : Asks (beside op a m) := fun s => by
  obtain ⟨t, ht, ⟨d, hd⟩ | ⟨as, has⟩⟩ := h s
  · exact ⟨t, ht, .inl ⟨d, run_catch_ok hd _⟩⟩
  · exact ⟨t, ht, .inr ⟨_, run_catch_error has _⟩⟩

theorem asks_pure {α : Type} (v : α) : Asks (pure v) := fun s => ⟨s, rfl, .inl ⟨v, rfl⟩⟩

theorem Asks.bind {α β : Type} {m : Ev α} {f : α → Ev β} (h : Asks m) (hf : ∀ v, Asks (f v)) : Asks (m >>= f) := fun s => by
  obtain ⟨t, ht, ⟨v, hv⟩ | ⟨as, has⟩⟩ := h s
  · obtain ⟨u, hu, hend⟩ := hf v t
    exact ⟨u, ht.trans hu, by rw [run_bind_ok hv]; exact hend⟩
  · exact ⟨t, ht, .inr ⟨as, run_bind_error has f⟩⟩

/-- What waits for lines asks, whatever it would do with them. -/
theorem asks_waits {α β : Type} {m : Ev α} {as : List Nat} (h : ∀ s, m.run.run s = (.error (.need as), s)) (f : α → Ev β) :
    Asks (m >>= f) := fun s => ⟨s, rfl, .inr ⟨as, run_bind_error (h s) f⟩⟩

theorem Asks.optional {α : Type} {m : Ev α} (h : Asks m) : Asks (optional m) := fun s => by
  obtain ⟨t, ht, ⟨v, hv⟩ | ⟨as, has⟩⟩ := h.bind (fun v => asks_pure (some v)) s
  · exact ⟨t, ht, .inl ⟨v, run_catch_ok hv _⟩⟩
  · exact ⟨t, ht, .inr ⟨as, run_catch_error has _⟩⟩

variable (hf : op.failed = []) (hg : op.got = [])
include hf hg

theorem asks_tagLine (a : Nat) (kind : LineKind) : Asks (tagLine c op a kind) := fun s => by
  rcases h : cached s a with _ | l
  · refine ⟨s, rfl, .inr ⟨[a], ?_⟩⟩
    simp only [tagLine, run_evGet, h]
    rw [run_bind_error (gathered_missing hf hg a s)]
  · exact ⟨s, rfl, .inl ⟨_, tagLine_cached h kind⟩⟩

/-- A node that is not cached needs lines of its own, and those of a node above it. -/
theorem asks_fetchNode (fuel level j : Nat) : Asks (fetchNode c op fuel level j) := by
  induction fuel generalizing level j with
  | zero => exact fun s => ⟨s, rfl, .inl ⟨_, rfl⟩⟩
  | succ fuel ih =>
    intro s
    rcases h : cached s (nodeAddr c level j) with _ | l
    · simp only [fetchNode, run_evGet, h]
      exact (ih (level + 1) (j / 64)).bind (fun p =>
        ((asks_tagLine hf hg _ _).asPoison level j).bind fun tl =>
          asks_waits (fun s => run_catch_error (gathered_missing hf hg _ s) _) _) s
    · obtain ⟨n, hn, -⟩ := cached_eq_some h
      refine ⟨touchPlace s n, rfl, .inl ⟨l.data, ?_⟩⟩
      simp only [fetchNode, run_evGet, h, hn]
      rfl

/-- The read of a line that can be worked on asks mc_, whatever is cached. -/
theorem readProtected_asks {s : State} {r : Region} {i : Nat} {g : RegionCfg} {key : KeyVal} (h : Keyed s r i g key) :
    ∃ t as, UseOnly s t ∧ (readProtected g op i).run.run s = (.error (.need as), t) := by
  rw [readProtected, run_bind_ok h.fetchesKey]
  dsimp only
  obtain ⟨t, ht, ⟨d, hd⟩ | ⟨as, has⟩⟩ := (asks_fetchNode (c := g) hf hg _ 1 (i / 64)).beside op (g.base + i) s
  · rw [nodeOf, run_bind_ok hd, run_bind_error (gathered_missing hf hg _ _)]
    exact ⟨t, _, ht, rfl⟩
  · rw [nodeOf, run_bind_error has]
    exact ⟨t, as, ht, rfl⟩

end

/-! ### Requests join those on mc_ -/

/-- The channel's requests on mc_ are those it had, with others behind them; its operations and answers are the same. -/
structure Requests (s t : State) (k : Chan) : Prop where
  wait : WaitOnly s t
  joined : ∃ l, memChan t k = { memChan s k with mc := (memChan s k).mc ++ l }

section
variable {s t u : State} {k : Chan}

theorem UseOnly.requests (h : UseOnly s t) (k : Chan) : Requests s t k :=
  ⟨h.wait, [], by rw [h.memChan, List.append_nil]⟩

theorem Requests.trans (h : Requests s t k) (h' : Requests t u k) : Requests s u k := by
  obtain ⟨l, hl⟩ := h.joined
  obtain ⟨l', hl'⟩ := h'.joined
  exact ⟨h.wait.trans h'.wait, l ++ l', by rw [hl', hl, List.append_assoc]⟩

theorem issueMc_requests (s : State) (k : Chan) (seq a : Nat) (w : Bool) (d : Line) (mask : W64) (spent : Option Nat) :
    Requests s (issueMc s k seq a w d mask spent) k := by
  unfold issueMc
  dsimp only
  split
  · exact (UseOnly.refl s).requests k
  · split
    · exact (UseOnly.refl s).requests k
    · exact ⟨setMemChan_wait s k _, _, memChan_setMemChan_same s k _⟩

theorem foldl_requests {β : Type} {f : State → β → State} (hf : ∀ s b, Requests s (f s b) k) (l : List β) (s : State) :
    Requests s (l.foldl f s) k := by
  induction l generalizing s with
  | nil => exact (UseOnly.refl s).requests k
  | cons b l ih => exact (hf s b).trans (ih (f s b))

theorem Requests.ops (h : Requests s t k) : (memChan t k).ops = (memChan s k).ops := by
  obtain ⟨l, hl⟩ := h.joined
  rw [hl]

theorem Requests.rsp (h : Requests s t k) : (memChan t k).rsp = (memChan s k).rsp := by
  obtain ⟨l, hl⟩ := h.joined
  rw [hl]

theorem Requests.mem_mc (h : Requests s t k) {q : McReq} (hq : q ∈ (memChan s k).mc) : q ∈ (memChan t k).mc := by
  obtain ⟨l, hl⟩ := h.joined
  rw [hl]
  exact List.mem_append_left l hq

end

/-! ### A read whose tag does not match (R271) -/

section
variable {s : State} {k : Chan} {c : MemChan} {r : Region} {i : Nat} {g : RegionCfg} {key : KeyVal} {ln lt : CacheLine}
  {op : MemOp} {d : Line} (hr : op.region = some r) (ho : op.old = none) (hw : op.work = .read) (ha : op.addr = g.base + i)
include hr ho hw ha

/-- A read that has lost its line asks for what it needs, and waits. -/
theorem advanceOp_readAsks (h : Keyed s r i g key) (hf : op.failed = []) (hg : op.got = []) :
    Requests s (advanceOp s k op) k := by
  obtain ⟨t, as, ht, hread⟩ := readProtected_asks hf hg h
  have hrun := runOp_error (evalOp_readOf (k := k) hr ho hw ha h hread)
  have hreq : Requests s (runOp k op s) k := by
    rw [hrun]
    exact (ht.requests k).trans (foldl_requests (fun s a => issueMc_requests s k op.seq a false 0 0 none) as t)
  rw [advanceOp_region hr ho (by rw [hreq.wait.lines.regionDyn]; exact h.old)]
  exact hreq

omit hr ho hw ha in
theorem cached_eq_none {a : Nat} (h : ∀ x ∈ s.mem.cache, x.2.addr ≠ a) : cached s a = none := by
  rcases hc : cached s a with _ | l
  · rfl
  · obtain ⟨n, -, hf, hl⟩ := cached_eq_some hc
    exact absurd hl (h _ (mem_of_spFind hf))

/-- One more fault of an operation is noted on its channel. -/
def noting (c : MemChan) (x : Nat × Nat) : MemChan := { c with noted := c.noted ++ [x] }

/-- The read once its tag has not matched: it has read nothing, and its line and tags have failed once. -/
def repeated (op : MemOp) (g : RegionCfg) (i : Nat) : MemOp := { op with got := [], once := [op.addr, dataTagAddr g i] }

omit hr ho hw ha in
/-- The line is asked for again at once; its tags too, unless a dirty line of the cache holds them. -/
theorem retryOp_working (hwh : c.withheld = []) (hg : op.got = [(op.addr, d)]) (hon : op.once = [])
    (hfree : ∀ x ∈ s.mem.cache, x.2.addr ≠ op.addr) :
    ∃ u q, u = setMemChan (dropClean s [op.addr, dataTagAddr g i]) k
        (working (noting c (op.seq, dataTagAddr g i)) (repeated op g i) [q]) ∧
      q.addr = op.addr ∧ q.write = false ∧
      Requests u (retryOp (setMemChan s k (working c op [])) k op [op.addr, dataTagAddr g i]) k := by
  have hagain : againOp op [op.addr, dataTagAddr g i] = repeated op g i := by
    simp only [againOp, repeated, hg, hon, List.foldl_cons, List.foldl_nil, spDel, if_true, List.nil_append]
  have hdrop : dropClean (setMemChan s k (working c op [])) [op.addr, dataTagAddr g i] =
      setMemChan (dropClean s [op.addr, dataTagAddr g i]) k (working c op []) := rfl
  have hnone : ∀ c', cached (setMemChan (dropClean s [op.addr, dataTagAddr g i]) k c') op.addr = none :=
    fun c' => cached_eq_none fun x hx => hfree x (List.mem_of_mem_filter hx)
  have hnoted : { working c (repeated op g i) [] with
      noted := (working c (repeated op g i) []).noted ++ [(op.seq, dataTagAddr g i)] } =
      working (noting c (op.seq, dataTagAddr g i)) (repeated op g i) [] := rfl
  refine ⟨_, ⟨0, op.seq, op.addr, false, 0, 0, s.now, c.mcReady⟩, rfl, rfl, rfl, ?_⟩
  simp only [retryOp, hagain, hdrop, List.foldl_cons, List.foldl_nil, List.drop_succ_cons, List.drop_zero, List.map_cons,
    List.map_nil]
  rw [putOp_working (op := op) (o := repeated op g i) rfl, memChan_setMemChan_same, setMemChan_working, hnone, Option.isSome_none,
    if_neg Bool.false_ne_true, hnoted, issueMc_first (c := noting c (op.seq, dataTagAddr g i)) (freeMcId_none hwh)]
  split
  · exact (UseOnly.refl _).requests k
  · exact issueMc_requests _ k op.seq (dataTagAddr g i) false 0 0 none

/-- A first mismatch: the line and its tags are to be read again, and the read of the line is on mc_. -/
theorem pump_readAgain (hl : c.rsp.length < 256) (hwh : c.withheld = []) (h : Guarded s r i g key ln) (hf : op.failed = [])
    (hg : op.got = [(op.addr, d)]) (ht : cached s (dataTagAddr g i) = some lt) (hon : op.once = [])
    (hm : dataTag key (nodeMajor ln.data) (nodeMinor ln.data (i % 64)) op.addr d ≠ tagAt lt.data (i % 8))
    (hfree : ∀ x ∈ s.mem.cache, x.2.addr ≠ op.addr) {t : State} (hpump : pump (setMemChan s k (working c op [])) k = t) :
    (memChan t k).rsp = c.rsp ∧ (memChan t k).ops = [repeated op g i] ∧
      ∃ q ∈ (memChan t k).mc, q.addr = op.addr ∧ q.write = false := by
  have hgot : spFind op.got op.addr = some d := by rw [hg]; exact if_pos rfl
  have hrun := runOp_error (evalOp_readAgain (k := k) hr ho hw ha (h.onChan k (working c op [])) hf hgot ht hm (by rw [hon]; rfl))
  obtain ⟨u, q, hu, hqa, hqw, hreq⟩ := retryOp_working (s := touchLine s (nodeAddr g 1 (i / 64))) (k := k) (c := c) (g := g)
    (i := i) hwh hg hon hfree
  rw [onHalt, touchLine_setMemChan] at hrun
  rw [← hrun] at hreq
  have hlines : LinesOnly s (runOp k op (setMemChan s k (working c op []))) := by
    have hdrop : LinesOnly s (dropClean (touchLine s (nodeAddr g 1 (i / 64))) [op.addr, dataTagAddr g i]) := rfl
    exact (hdrop.trans (hu ▸ (setMemChan_wait _ k _).lines)).trans hreq.wait.lines
  have hkeyed := h.toKeyed.moved hlines
  have hchan : memChan u k = working (noting c (op.seq, dataTagAddr g i)) (repeated op g i) [q] := by
    rw [hu, memChan_setMemChan_same]
  have halone : Alone (runOp k op (setMemChan s k (working c op []))) k (repeated op g i) :=
    ⟨by rw [hreq.ops, hchan]; rfl, not_renorm_read hw, fun _ => by rw [hreq.rsp, hchan]; exact hl⟩
  rw [(alone_working (not_renorm_read hw) (fun _ => hl) []).pump (advanceOp_eq hr ho rfl hkeyed.old) halone] at hpump
  have hall := hreq.trans (advanceOp_readAsks (op := repeated op g i) hr ho hw ha hkeyed hf rfl)
  rw [hpump] at hall
  exact ⟨by rw [hall.rsp, hchan]; rfl, by rw [hall.ops, hchan]; rfl,
    q, hall.mem_mc (by rw [hchan]; exact List.mem_singleton_self q), hqa, hqw⟩

end

end Sys2Proof.Machine

/-! PROOF. Write-back of a cached line, and the eviction of a way (R286, R287). -/

namespace Sys2Proof.Machine

section
variable {s t t0 t2 : State} {k : Chan} {c : MemChan} {r : Region} {g : RegionCfg} {l : CacheLine} {m : Nat} {op : MemOp}

/-- The write-back of a line, as its channel holds it. -/
def backOf (l : CacheLine) (m : Nat) : MemOp := { newOp (.evict l.kind) l.addr 0 (some l.region) with seq := m }

/-- The line once it has been written back. -/
def cleanLine (l : CacheLine) : CacheLine := { l with dirty := false }

theorem startEviction_idle {n : Nat} (hf : spFind s.mem.cache n = some l) (hd : l.dirty = true)
    (ho : (regionDyn s l.region).old = []) (hk : chanOf (regionCfg s l.region) = k) (h : memChan s k = c)
    (hops : c.ops = []) (hmc : c.mc = []) :
    startEviction s n .none = setMemChan s k (working (numbered c) (backOf l c.nextSeq) []) := by
  have howner : cacheOwner s l.region = none := by simp [cacheOwner, ho]
  have hcfg : lineCfg s l = regionCfg s l.region := by simp [lineCfg, howner]
  simp only [startEviction, hf, hcfg, hk, h, hops, hd, howner, appendOp, List.any_nil, Bool.not_true, Bool.false_eq_true, if_false,
    List.nil_append]
  rw [← hmc]
  rfl

theorem issueBack_cached (h : (cached s l.addr).isSome = true) :
    (issueBack (backOf l m) l).run.run s = (.ok (.keep (sentWrite (backOf l m) l.data)), storeLine s (cleanLine l)) :=
  run_bind_ok (m := fillLine (ledBy (backOf l m)) (cleanLine l)) (fillLine_cached (l := cleanLine l) h _) _

section
variable (h : cached s l.addr = some l) (hd : l.dirty = true)
include h hd

/-- A dirty line of tags goes to mc_ as it stands. -/
theorem evict_tags (hk : ∀ lv j, l.kind ≠ .node lv j) :
    (evict g (backOf l m) l.kind).run.run s =
      (.ok (.keep (sentWrite (backOf l m) l.data)), storeLine s (cleanLine l)) := by
  have hcipher : (backOf l m).cipher = none := rfl
  have haddr : (backOf l m).addr = l.addr := rfl
  have hsome : (cached s l.addr).isSome = true := Option.isSome_iff_exists.2 ⟨l, h⟩
  rw [evict, run_evGet, hcipher, haddr, h]
  dsimp only
  rw [hd, Bool.not_true, if_neg Bool.false_ne_true]
  split
  · next lv j hlv => exact absurd hlv (hk lv j)
  · exact issueBack_cached hsome

/-- A dirty node advances its entry in its parent, and its new tag is placed (R287). -/
theorem evict_node {lv j : Nat} {p : Line} {tl : CacheLine} {e : BitVec 7} {key : KeyVal} (hk : l.kind = .node lv j)
    (hp : (nodeOf g (backOf l m) (lv + 1) (j / 64)).run.run s = (.ok p, t0)) (h0 : UseOnly s t0)
    (h127 : nodeMinor p (j % 64) ≠ 127) (he : e = nodeMinor p (j % 64) + 1) (hdead : nodeDead t0 g lv j = false)
    (huse : keyUsable t0 (nodeKey t0 g lv j) = true) (hkey : key = slotValue t0 (nodeKey t0 g lv j))
    (htl : cached s (nodeTagAddr g lv j) = some tl)
    (hstore : (storeNode g (ledBy (backOf l m)) (lv + 1) (j / 64) (setMinor p (j % 64) e)).run.run
      (storeLine t0 (nodeTagLine g lv j (setTag tl.data (j % 8) (nodeTag key (nodeMajor p) e l.addr l.data)))) = (.ok (), t2))
    (hl : (cached t2 l.addr).isSome = true) :
    (evict g (backOf l m) l.kind).run.run s =
      (.ok (.keep (sentWrite (backOf l m) l.data)), storeLine t2 (cleanLine l)) := by
  have hcipher : (backOf l m).cipher = none := rfl
  have haddr : (backOf l m).addr = l.addr := rfl
  have htl0 : cached t0 (nodeTagAddr g lv j) = some tl := by rw [h0.wait.cached]; exact htl
  subst he hkey
  rw [evict, run_evGet, hcipher, haddr, h]
  dsimp only
  rw [hd, Bool.not_true, if_neg Bool.false_ne_true, hk]
  dsimp only
  rw [run_bind_ok hp, run_bind_ok (nextMinor_next h127), run_bind_ok (nodeLive_usable hdead huse),
    run_bind_ok (placeNodeTag_cached htl0 _), run_bind_ok hstore, issueBack_cached hl]

end

/-- A write-back that has gone to mc_ waits for its answer. -/
theorem evict_sent (g : RegionCfg) (m : Nat) (kind : LineKind) (d : Line) (s : State) :
    (evict g (sentWrite (backOf l m) d) kind).run.run s = (.ok (.keep (sentWrite (backOf l m) d)), s) := rfl

/-- The write-back of a line sends it to mc_ at once. -/
theorem pump_back (hr : regionCfg s l.region = g) (hwh : c.withheld = []) (hold : (regionDyn t l.region).old = [])
    (hnow : t.now = s.now)
    (heval : (evict g (backOf l m) l.kind).run.run (setMemChan s k (working c (backOf l m) [])) =
      (.ok (.keep (sentWrite (backOf l m) l.data)), setMemChan t k (working c (backOf l m) []))) :
    pump (setMemChan s k (working c (backOf l m) [])) k = setMemChan t k
      (working c (sentWrite (backOf l m) l.data) [⟨0, m, l.addr, true, l.data, BitVec.allOnes 64, s.now, c.mcReady⟩]) := by
  rw [← hnow]
  refine pump_sends (op := backOf l m) (r := l.region) rfl rfl nofun nofun rfl rfl hwh hold (fun _ => rfl) ?_ (fun e => ?_)
  · rw [evalOp_evict (r := l.region) rfl rfl (kind := l.kind) rfl]
    exact hr ▸ heval
  · rw [evalOp_evict (op := sentWrite (backOf l m) l.data) (r := l.region) rfl rfl (kind := l.kind) rfl]
    exact evict_sent _ m l.kind l.data _

end

end Sys2Proof.Machine

/-! PROOF. The eviction of a way (R286, R287). -/

namespace Sys2Proof.Machine

/-! ### A node is read and stored: in the cache, or as the root (R286) -/

/-- Two states differ at most in the cache, the channels and the regions. -/
def GuardOnly (s t : State) : Prop :=
  t = { s with mem := { s.mem with cache := t.mem.cache, plru := t.mem.plru, chans := t.mem.chans, regions := t.mem.regions } }

/-- Node j of a level is at hand with content p: as the root, or in the cache. -/
def NodeAt (s : State) (c : RegionCfg) (level j : Nat) (p : Line) : Prop :=
  levelsOf c.lines < level ∧ p = (regionDyn s c.region).root ∨
    level ≤ levelsOf c.lines ∧ ∃ l, cached s (nodeAddr c level j) = some l ∧ p = l.data

/-- The node has been read. -/
def nodeRead (s : State) (c : RegionCfg) (level j : Nat) : State :=
  if levelsOf c.lines < level then s else touchLine s (nodeAddr c level j)

/-- The node has been given new content. -/
def nodeStored (s : State) (c : RegionCfg) (level j : Nat) (d : Line) : State :=
  if levelsOf c.lines < level then setRegionDyn s c.region { regionDyn s c.region with root := d }
  else storeLine s (nodeLine c level j d)

section
variable {s t u : State} {c : RegionCfg} {level j : Nat} {p d : Line}

theorem GuardOnly.trans (h : GuardOnly s t) (h' : GuardOnly t u) : GuardOnly s u := by
  rw [GuardOnly] at h h' ⊢
  rw [h', h]

theorem LinesOnly.guard (h : LinesOnly s t) : GuardOnly s t := by
  rw [LinesOnly] at h
  rw [GuardOnly, h]

theorem setRegionDyn_guard (s : State) (r : Region) (d : RegionDyn) : GuardOnly s (setRegionDyn s r d) := rfl

theorem GuardOnly.now (h : GuardOnly s t) : t.now = s.now := by rw [h]

theorem nodeOf_at (h : NodeAt s c level j p) (op : MemOp) :
    (nodeOf c op level j).run.run s = (.ok p, nodeRead s c level j) := by
  rcases h with ⟨hl, rfl⟩ | ⟨hl, l, hc, rfl⟩
  · rw [nodeOf_root hl, nodeRead, if_pos hl]
  · rw [nodeOf_cached hl hc, nodeRead, if_neg (Nat.not_lt.2 hl)]

theorem nodeRead_use (s : State) (c : RegionCfg) (level j : Nat) : UseOnly s (nodeRead s c level j) := by
  unfold nodeRead
  split
  · exact UseOnly.refl s
  · exact touchLine_use s _

theorem nodeRead_setMemChan (s : State) (k : Chan) (e : MemChan) (c : RegionCfg) (level j : Nat) :
    nodeRead (setMemChan s k e) c level j = setMemChan (nodeRead s c level j) k e := by
  unfold nodeRead; split <;> rfl

theorem storeNode_at (h : level ≤ levelsOf c.lines → (cached s (nodeAddr c level j)).isSome = true) (cause : OpCause) :
    (storeNode c cause level j d).run.run s = (.ok (), nodeStored s c level j d) := by
  by_cases hl : levelsOf c.lines < level
  · rw [storeNode_root hl, nodeStored, if_pos hl]
  · rw [storeNode_cached (Nat.not_lt.1 hl) (h (Nat.not_lt.1 hl)), nodeStored, if_neg hl]

theorem nodeStored_setMemChan (s : State) (k : Chan) (e : MemChan) (c : RegionCfg) (level j : Nat) (d : Line) :
    nodeStored (setMemChan s k e) c level j d = setMemChan (nodeStored s c level j d) k e := by
  unfold nodeStored; split <;> rfl

theorem nodeStored_guard (s : State) (c : RegionCfg) (level j : Nat) (d : Line) : GuardOnly s (nodeStored s c level j d) := by
  unfold nodeStored
  split
  · exact setRegionDyn_guard _ _ _
  · exact (storeLine_lines _ _).guard

theorem cached_nodeStored (h : level ≤ levelsOf c.lines → (cached s (nodeAddr c level j)).isSome = true) (b : Nat) :
    cached (nodeStored s c level j d) b =
      if level ≤ levelsOf c.lines ∧ b = nodeAddr c level j then some (nodeLine c level j d) else cached s b := by
  by_cases hl : levelsOf c.lines < level
  · rw [nodeStored, if_pos hl, if_neg fun hb => Nat.not_le.2 hl hb.1]
    rfl
  · have hle := Nat.not_lt.1 hl
    rw [nodeStored, if_neg hl, cached_storeLine (l := nodeLine c level j d) (h hle)]
    exact if_congr (by simp [hle, nodeLine]) rfl rfl

theorem regionDyn_nodeStored (s : State) (c : RegionCfg) (level j : Nat) (d : Line) (r : Region) (hr : c.region = r) :
    regionDyn (nodeStored s c level j d) r =
      { regionDyn s r with root := if levelsOf c.lines < level then d else (regionDyn s r).root } := by
  subst hr
  unfold nodeStored
  split
  · rw [regionDyn_setRegionDyn]
  · exact (storeLine_lines _ _).regionDyn _

end

/-! ### The eviction of a way -/

section
variable {s : State} {st : Fin 2048} {w : Fin 16} {n : Nat} {l : CacheLine} {k : Chan} {ch : MemChan}

theorem exec_cacheEviction_none (hn : n = st.val * 16 + w.val) (h : pathOn s = false ∨ spFind s.mem.cache n = none) :
    exec (.cacheEviction st w) s = .next s := by
  subst hn
  rcases h with h | h
  · simp [exec, execCacheEviction, h]
  · simp [exec, execCacheEviction, h]

/-- A clean line is dropped, unless work of its region holds it. -/
theorem exec_cacheEviction_clean (hn : n = st.val * 16 + w.val) (hp : pathOn s = true) (hf : spFind s.mem.cache n = some l)
    (hd : l.dirty = false) : exec (.cacheEviction st w) s =
      .next (if pinned s l then s else { s with mem := { s.mem with cache := spDel s.mem.cache n } }) := by
  subst hn
  simp [exec, execCacheEviction, hp, hf, hd]

/-- A dirty line stands at its place in the cache, and nothing is in work on the channel of its region. -/
structure Evictable (s : State) (n : Nat) (l : CacheLine) (k : Chan) (ch : MemChan) : Prop where
  path : pathOn s = true
  found : spFind s.mem.cache n = some l
  place : cachePlace s l.addr = some n
  dirty : l.dirty = true
  old : (regionDyn s l.region).old = []
  serves : chanOf (regionCfg s l.region) = k
  chan : memChan s k = ch
  ops : ch.ops = []
  mc : ch.mc = []
  withheld : ch.withheld = []

/-- The channel of a line that has gone to mc_ to be written back. -/
def backOut (s : State) (ch : MemChan) (l : CacheLine) : MemChan :=
  working (numbered ch) (sentWrite (backOf l ch.nextSeq) l.data)
    [⟨0, ch.nextSeq, l.addr, true, l.data, BitVec.allOnes 64, s.now, ch.mcReady⟩]

section
variable (h : Evictable s n l k ch) (hn : n = st.val * 16 + w.val)
include h

theorem Evictable.cached : cached s l.addr = some l := by
  simp only [Machine.cached, h.place, h.found]

include hn

theorem exec_cacheEviction_dirty {t : State} (hold : (regionDyn t l.region).old = []) (hnow : t.now = s.now)
    (heval : (evict (regionCfg s l.region) (backOf l ch.nextSeq) l.kind).run.run
        (setMemChan s k (working (numbered ch) (backOf l ch.nextSeq) [])) =
      (.ok (.keep (sentWrite (backOf l ch.nextSeq) l.data)), setMemChan t k (working (numbered ch) (backOf l ch.nextSeq) []))) :
    exec (.cacheEviction st w) s = .next (setMemChan t k (backOut s ch l)) := by
  subst hn
  have howner : cacheOwner s l.region = none := by simp [cacheOwner, h.old]
  have hcfg : lineCfg s l = regionCfg s l.region := by simp [lineCfg, howner]
  have hstart := startEviction_idle h.found h.dirty h.old h.serves h.chan h.ops h.mc
  simp only [exec, execCacheEviction, h.path, h.found, h.dirty, hcfg, h.serves, hstart, Bool.not_true, Bool.false_eq_true, if_false,
    if_true]
  rw [pump_back (c := numbered ch) rfl h.withheld hold hnow heval]
  rfl

/-- A dirty line of tags is written back as it stands. -/
theorem exec_cacheEviction_tags (hk : ∀ lv j, l.kind ≠ .node lv j) :
    exec (.cacheEviction st w) s = .next (setMemChan (storeLine s (cleanLine l)) k (backOut s ch l)) := by
  refine exec_cacheEviction_dirty h hn h.old rfl ?_
  rw [evict_tags (s := setMemChan s k _) h.cached h.dirty hk, storeLine_setMemChan]

end

section
variable {c : RegionCfg} {lv j : Nat} {p : Line} {tl : CacheLine} {e : BitVec 7} {key : KeyVal}

/-- The write-back of node j of a level has read the parent p, and has placed the node's tag under entry e in line tl. -/
def evictedTag (s : State) (c : RegionCfg) (l tl : CacheLine) (lv j : Nat) (key : KeyVal) (p : Line) (e : BitVec 7) : State :=
  storeLine (nodeRead s c (lv + 1) (j / 64))
    (nodeTagLine c lv j (setTag tl.data (j % 8) (nodeTag key (nodeMajor p) e l.addr l.data)))

/-- It has also put the entry in the parent. -/
def evictedEntry (s : State) (c : RegionCfg) (l tl : CacheLine) (lv j : Nat) (key : KeyVal) (p : Line) (e : BitVec 7) : State :=
  nodeStored (evictedTag s c l tl lv j key p e) c (lv + 1) (j / 64) (setMinor p (j % 64) e)

/-- What the write-back of a node leaves. -/
def evictedNode (s : State) (c : RegionCfg) (l tl : CacheLine) (lv j : Nat) (key : KeyVal) (p : Line) (e : BitVec 7) : State :=
  storeLine (evictedEntry s c l tl lv j key p e) (cleanLine l)

theorem evictedNode_setMemChan (ch : MemChan) :
    evictedNode (setMemChan s k ch) c l tl lv j key p e = setMemChan (evictedNode s c l tl lv j key p e) k ch := by
  rw [evictedNode, evictedEntry, evictedTag, nodeRead_setMemChan, storeLine_setMemChan, nodeStored_setMemChan,
    storeLine_setMemChan, evictedNode, evictedEntry, evictedTag]

theorem evictedTag_lines : LinesOnly s (evictedTag s c l tl lv j key p e) :=
  (nodeRead_use _ _ _ _).wait.lines.trans (storeLine_lines _ _)

theorem evictedNode_guard : GuardOnly s (evictedNode s c l tl lv j key p e) :=
  (evictedTag_lines.guard.trans (nodeStored_guard _ _ _ _ _)).trans (storeLine_lines _ _).guard

theorem regionDyn_evictedNode (hr : c.region = l.region) : regionDyn (evictedNode s c l tl lv j key p e) l.region =
    { regionDyn s l.region with
      root := if levelsOf c.lines < lv + 1 then setMinor p (j % 64) e else (regionDyn s l.region).root } := by
  rw [evictedNode, (storeLine_lines _ _).regionDyn, evictedEntry, regionDyn_nodeStored _ _ _ _ _ _ hr,
    evictedTag_lines.regionDyn]

/-- The lines that the write-back of a node works on are cached: the node, its parent below the root, and the line of its tag. -/
structure NodeCached (s : State) (c : RegionCfg) (l tl : CacheLine) (lv j : Nat) : Prop where
  line : (cached s l.addr).isSome = true
  tag : cached s (nodeTagAddr c lv j) = some tl
  parent : lv + 1 ≤ levelsOf c.lines → (cached s (nodeAddr c (lv + 1) (j / 64))).isSome = true

section
variable (h : NodeCached s c l tl lv j)
include h

theorem NodeCached.cached_tag (b : Nat) : cached (evictedTag s c l tl lv j key p e) b =
    if b = nodeTagAddr c lv j then
      some (nodeTagLine c lv j (setTag tl.data (j % 8) (nodeTag key (nodeMajor p) e l.addr l.data)))
    else cached s b := by
  have hread : ∀ a, cached (nodeRead s c (lv + 1) (j / 64)) a = cached s a := (nodeRead_use s c _ _).wait.cached
  rw [evictedTag, cached_storeLine (l := nodeTagLine c lv j _) (by rw [hread]; exact Option.isSome_iff_exists.2 ⟨tl, h.tag⟩),
    hread]
  rfl

theorem NodeCached.tag_keeps {b : Nat} (hb : (cached s b).isSome = true) :
    (cached (evictedTag s c l tl lv j key p e) b).isSome = true := by
  rw [h.cached_tag]
  split
  · rfl
  · exact hb

theorem NodeCached.cached_entry (b : Nat) : cached (evictedEntry s c l tl lv j key p e) b =
    if lv + 1 ≤ levelsOf c.lines ∧ b = nodeAddr c (lv + 1) (j / 64) then
      some (nodeLine c (lv + 1) (j / 64) (setMinor p (j % 64) e))
    else cached (evictedTag s c l tl lv j key p e) b :=
  cached_nodeStored (fun hle => h.tag_keeps (h.parent hle)) b

theorem NodeCached.line_kept : (cached (evictedEntry s c l tl lv j key p e) (cleanLine l).addr).isSome = true := by
  rw [h.cached_entry]
  split
  · rfl
  · exact h.tag_keeps h.line

/-- The node, the line of its tag and its parent are then as the write-back has left them. -/
theorem NodeCached.cached_node (b : Nat) : cached (evictedNode s c l tl lv j key p e) b =
    if b = l.addr then some (cleanLine l) else cached (evictedEntry s c l tl lv j key p e) b :=
  cached_storeLine h.line_kept b

end

/-- What the write-back of a node in the cache goes by: its parent, its key and the line of its tag are at hand, and its entry has
another value (R287). -/
structure NodeBack (s : State) (c : RegionCfg) (l tl : CacheLine) (lv j : Nat) (key : KeyVal) (p : Line) (e : BitVec 7) : Prop where
  kind : l.kind = .node lv j
  parent : NodeAt s c (lv + 1) (j / 64) p
  unspent : nodeMinor p (j % 64) ≠ 127
  entry : e = nodeMinor p (j % 64) + 1
  live : nodeDead s c lv j = false
  usable : keyUsable s (nodeKey s c lv j) = true
  key : key = slotValue s (nodeKey s c lv j)
  tag : cached s (nodeTagAddr c lv j) = some tl

theorem NodeBack.cached (h : NodeBack s c l tl lv j key p e) (hl : cached s l.addr = some l) : NodeCached s c l tl lv j where
  line := by rw [hl]; rfl
  tag := h.tag
  parent hle := by
    rcases h.parent with ⟨hlt, -⟩ | ⟨-, x, hx, -⟩
    · exact absurd hle (Nat.not_le.2 hlt)
    · rw [hx]; rfl

theorem NodeBack.onChan (h : NodeBack s c l tl lv j key p e) (k : Chan) (x : MemChan) :
    NodeBack (setMemChan s k x) c l tl lv j key p e :=
  ⟨h.kind, h.parent, h.unspent, h.entry, h.live, h.usable, h.key, h.tag⟩

theorem NodeBack.moved {t : State} (h : NodeBack s c l tl lv j key p e) (ht : UseOnly s t) : NodeBack t c l tl lv j key p e := by
  rw [UseOnly] at ht
  rw [ht]
  exact ⟨h.kind, h.parent, h.unspent, h.entry, h.live, h.usable, h.key, h.tag⟩

theorem NodeBack.evict {m : Nat} (h : NodeBack s c l tl lv j key p e) (hl : Machine.cached s l.addr = some l) (hd : l.dirty = true) :
    (evict c (backOf l m) l.kind).run.run s =
      (.ok (.keep (sentWrite (backOf l m) l.data)), evictedNode s c l tl lv j key p e) := by
  have huse := nodeRead_use s c (lv + 1) (j / 64)
  obtain ⟨-, -, -, -, hlive, husable, hkey, -⟩ := h.moved huse
  have hc := h.cached hl
  exact evict_node hl hd h.kind (nodeOf_at h.parent _) huse h.unspent h.entry hlive husable hkey h.tag
    (storeNode_at (fun hle => hc.tag_keeps (hc.parent hle)) _) hc.line_kept

/-- A dirty node is written back with its entry in its parent advanced and its new tag placed (R287). -/
theorem exec_cacheEviction_node (h : Evictable s n l k ch) (hn : n = st.val * 16 + w.val)
    (hb : NodeBack s (regionCfg s l.region) l tl lv j key p e) : exec (.cacheEviction st w) s =
      .next (setMemChan (evictedNode s (regionCfg s l.region) l tl lv j key p e) k (backOut s ch l)) := by
  refine exec_cacheEviction_dirty h hn ?old evictedNode_guard.now ?eval
  case old =>
    rw [regionDyn_evictedNode rfl]
    exact h.old
  case eval => rw [← evictedNode_setMemChan, (hb.onChan k _).evict h.cached h.dirty]

end
end

/-! ### What an eviction leaves (R286, R287) -/

section
variable {s : State} {st : Fin 2048} {w : Fin 16} {n : Nat} {l : CacheLine} {k : Chan} {ch : MemChan}

/-- The line is on its way to mc_, and is clean in the cache. -/
structure WrittenBack (s t : State) (l : CacheLine) (k : Chan) (ch : MemChan) : Prop where
  mc : (memChan t k).mc = [⟨0, ch.nextSeq, l.addr, true, l.data, BitVec.allOnes 64, s.now, ch.mcReady⟩]
  line : cached t l.addr = some { l with dirty := false }

theorem evictionOfTags (h : Evictable s n l k ch) (hn : n = st.val * 16 + w.val) (hk : ∀ lv j, l.kind ≠ .node lv j) :
    ∃ t, exec (.cacheEviction st w) s = .next t ∧ WrittenBack s t l k ch ∧ LinesOnly s t := by
  refine ⟨_, exec_cacheEviction_tags h hn hk, ⟨?_, ?_⟩, (storeLine_lines s (cleanLine l)).trans (setMemChan_wait _ _ _).lines⟩
  · rw [memChan_setMemChan_same]; rfl
  · have hsome : (cached s (cleanLine l).addr).isSome = true := Option.isSome_iff_exists.2 ⟨l, h.cached⟩
    rw [(setMemChan_wait _ k _).cached, cached_storeLine hsome]
    exact if_pos rfl

theorem evictionOfNode {c : RegionCfg} {lv j : Nat} {p : Line} {tl : CacheLine} {e : BitVec 7} {key : KeyVal}
    (h : Evictable s n l k ch) (hn : n = st.val * 16 + w.val) (hc : c = regionCfg s l.region)
    (hb : NodeBack s c l tl lv j key p e) (htag : nodeTagAddr c lv j ≠ l.addr) (hpar : nodeAddr c (lv + 1) (j / 64) ≠ l.addr)
    (hapart : nodeAddr c (lv + 1) (j / 64) ≠ nodeTagAddr c lv j) :
    ∃ t, exec (.cacheEviction st w) s = .next t ∧ WrittenBack s t l k ch ∧ GuardOnly s t ∧
      cached t (nodeTagAddr c lv j) =
        some (nodeTagLine c lv j (setTag tl.data (j % 8) (nodeTag key (nodeMajor p) e l.addr l.data))) ∧
      (levelsOf c.lines < lv + 1 → (regionDyn t l.region).root = setMinor p (j % 64) e) ∧
      (lv + 1 ≤ levelsOf c.lines → cached t (nodeAddr c (lv + 1) (j / 64)) =
        some (nodeLine c (lv + 1) (j / 64) (setMinor p (j % 64) e))) := by
  subst hc
  have hcached := hb.cached h.cached
  refine ⟨_, exec_cacheEviction_node h hn hb, ⟨?mc, ?line⟩, evictedNode_guard.trans (setMemChan_wait _ _ _).lines.guard, ?tag, ?root,
    ?parent⟩
  case mc => rw [memChan_setMemChan_same]; rfl
  case line =>
    rw [(setMemChan_wait _ k _).cached, hcached.cached_node]
    exact if_pos rfl
  case tag =>
    rw [(setMemChan_wait _ k _).cached, hcached.cached_node, if_neg htag, hcached.cached_entry,
      if_neg fun hx => hapart hx.2.symm, hcached.cached_tag, if_pos rfl]
  case root =>
    intro hlt
    rw [regionDyn_setMemChan, regionDyn_evictedNode rfl]
    exact if_pos hlt
  case parent =>
    intro hle
    rw [(setMemChan_wait _ k _).cached, hcached.cached_node, if_neg hpar, hcached.cached_entry, if_pos ⟨hle, rfl⟩]

end

end Sys2Proof.Machine

/-! PROOF. A renormalisation: its start for a waiting write, and its commit (R283, R284). -/

namespace Sys2Proof.Machine

/-! ### The commit (R283) -/

/-- Two states differ at most in the grants, the counters, and the cache, channels and regions of the Memory Guard. -/
def CommitOnly (s t : State) : Prop :=
  t = { s with grants := t.grants, ctrs := t.ctrs, mem := { s.mem with
    cache := t.mem.cache, plru := t.mem.plru, chans := t.mem.chans, regions := t.mem.regions } }

section
variable {s t u : State}

theorem CommitOnly.trans (h : CommitOnly s t) (h' : CommitOnly t u) : CommitOnly s u := by
  rw [CommitOnly] at h h' ⊢
  rw [h', h]

theorem GuardOnly.commit (h : GuardOnly s t) : CommitOnly s t := by
  rw [GuardOnly] at h
  rw [CommitOnly, h]

theorem GuardOnly.ctr (h : GuardOnly s t) (i j : Nat) : ctr t i j = ctr s i j := by rw [h]; rfl

theorem bump_commit (s : State) (i j : Nat) : CommitOnly s (bump s i j) := rfl

theorem releaseGrant_commit (s : State) (op : HeavyOp) : CommitOnly s (releaseGrant s op) := rfl

theorem WaitOnly.regionDyn (h : WaitOnly s t) (r : Region) : regionDyn t r = regionDyn s r := h.lines.regionDyn r

theorem WaitOnly.ctr (h : WaitOnly s t) (i j : Nat) : ctr t i j = ctr s i j := h.lines.guard.ctr i j

/-! What renormalisation has written becomes the content of cached tag lines. -/

theorem refreshTags_lines (s : State) (ws : Sparse Line) : LinesOnly s (refreshTags s ws) := by
  unfold refreshTags
  induction ws generalizing s with
  | nil => rfl
  | cons w ws ih =>
    refine LinesOnly.trans ?_ (ih _)
    dsimp only
    split <;> rfl

theorem memChan_refreshTags (s : State) (ws : Sparse Line) (k : Chan) : memChan (refreshTags s ws) k = memChan s k := by
  unfold refreshTags
  induction ws generalizing s with
  | nil => rfl
  | cons w ws ih =>
    refine (ih _).trans ?_
    dsimp only
    split <;> rfl

theorem isSome_cached_refreshTags {b : Nat} (h : (cached s b).isSome = true) (ws : Sparse Line) :
    (cached (refreshTags s ws) b).isSome = true := by
  unfold refreshTags
  induction ws generalizing s with
  | nil => exact h
  | cons w ws ih =>
    refine ih ?_
    dsimp only
    split
    · next n l hn hl =>
      obtain ⟨-, -, -, haddr⟩ := cached_eq_some hl
      rw [cached_setCache (l := { l with data := w.2, dirty := false }) ((congrArg (cachePlace s) haddr).trans hn)]
      split
      · rfl
      · exact h
    · exact h

theorem memChan_nodeStored (s : State) (c : RegionCfg) (level j : Nat) (d : Line) (k : Chan) :
    memChan (nodeStored s c level j d) k = memChan s k := by
  unfold nodeStored; split <;> rfl

end

section
variable {s : State} {k : Chan} {r : Region} {c : RegionCfg} {op : MemOp} {level j : Nat} {old : Line}

/-- The tag lines and the node of a renormalisation have their new content. -/
def renewed (s : State) (c : RegionCfg) (op : MemOp) (level j : Nat) (old : Line) : State :=
  nodeStored (refreshTags s op.children) c level j (freshNode (nodeMajor old + 1))

theorem renewed_guard : GuardOnly s (renewed s c op level j old) :=
  (refreshTags_lines _ _).guard.trans (nodeStored_guard _ _ _ _ _)

theorem memChan_renewed : memChan (renewed s c op level j old) k = memChan s k :=
  (memChan_nodeStored _ _ _ _ _ _).trans (memChan_refreshTags _ _ _)

/-- The region's record once one of its nodes has a new major counter. -/
def commitDyn (d : RegionDyn) (c : RegionCfg) (level : Nat) (m : W64) : RegionDyn :=
  { d with root := if levelsOf c.lines < level then freshNode m else d.root
           ceiling := if d.ceiling.toNat < m.toNat then m else d.ceiling }

/-- The ceiling rises to the new major counter. -/
theorem commitDyn_ceiling (d : RegionDyn) (c : RegionCfg) (level : Nat) (m : W64) :
    (commitDyn d c level m).ceiling.toNat = Nat.max d.ceiling.toNat m.toNat := by
  unfold commitDyn
  dsimp only
  split
  · next h => exact (Nat.max_eq_right (Nat.le_of_lt h)).symm
  · next h => exact (Nat.max_eq_left (Nat.not_lt.1 h)).symm

section
variable (hc : c = regionCfg s r)
include hc

theorem regionDyn_renewed : regionDyn (renewed s c op level j old) r = { regionDyn s r with
    root := if levelsOf c.lines < level then freshNode (nodeMajor old + 1) else (regionDyn s r).root } := by
  rw [renewed, regionDyn_nodeStored _ _ _ _ _ r (by rw [hc]; rfl), (refreshTags_lines _ _).regionDyn]

variable (hnode : level ≤ levelsOf c.lines → (cached s (nodeAddr c level j)).isSome = true)
include hnode

theorem commitNode_eq (ho : op.old = none) : commitNode level j r old op s =
    bump (setRegionDyn (renewed s c op level j old) r (commitDyn (regionDyn s r) c level (nodeMajor old + 1)))
      (0x3C11 + r.val) 7 := by
  have hrun := storeNode_at (s := refreshTags s op.children) (j := j) (d := freshNode (nodeMajor old + 1))
    (fun hle => isSome_cached_refreshTags (hnode hle) op.children) .renorm
  rw [commitNode, opCfg_current ho, ← hc, hrun]
  dsimp only
  rw [← renewed, regionDyn_renewed hc]
  rfl

omit hc in
theorem cached_renewed (hle : level ≤ levelsOf c.lines) : cached (renewed s c op level j old) (nodeAddr c level j) =
    some (nodeLine c level j (freshNode (nodeMajor old + 1))) := by
  rw [renewed, cached_nodeStored fun hle => isSome_cached_refreshTags (hnode hle) _, if_pos ⟨hle, rfl⟩]

end

/-- The region's record and the node once the commit is done, and what it changes. -/
structure Committed (s t : State) (r : Region) (c : RegionCfg) (level j : Nat) (m : W64) : Prop where
  only : CommitOnly s t
  dyn : regionDyn t r = commitDyn (regionDyn s r) c level m
  node : level ≤ levelsOf c.lines → cached t (nodeAddr c level j) = some (nodeLine c level j (freshNode m))
  count : ctr t (0x3C11 + r.val) 7 = satAdd64 (ctr s (0x3C11 + r.val) 7) 1

theorem Committed.waits {t u : State} {m : W64} (h : Committed s t r c level j m) (hu : WaitOnly t u) :
    Committed s u r c level j m where
  only := h.only.trans hu.lines.guard.commit
  dyn := (hu.regionDyn r).trans h.dyn
  node hle := (hu.cached _).trans (h.node hle)
  count := (hu.ctr _ _).trans h.count

theorem Committed.releases {t : State} {m : W64} (h : Committed s t r c level j m) (g : HeavyOp) :
    Committed s (releaseGrant t g) r c level j m :=
  ⟨h.only.trans (releaseGrant_commit t g), h.dyn, h.node, h.count⟩

theorem commitNode_committed (hc : c = regionCfg s r) (ho : op.old = none)
    (hnode : level ≤ levelsOf c.lines → (cached s (nodeAddr c level j)).isSome = true) :
    Committed s (commitNode level j r old op s) r c level j (nodeMajor old + 1) := by
  rw [commitNode_eq hc hnode ho]
  refine ⟨(renewed_guard.trans (setRegionDyn_guard _ _ _)).commit.trans (bump_commit _ _ _), regionDyn_setRegionDyn _ _ _,
    cached_renewed hnode, ?_⟩
  rw [ctr_bump_same, (setRegionDyn_guard _ _ _).ctr, renewed_guard.ctr]

/-- The operation that is alone on its channel leaves, and what the others had read goes with it. -/
theorem dropOp_renewReads (h : (memChan s k).ops = [op]) :
    WaitOnly s (dropOp (renewReads s k op) k op.seq) ∧ (memChan (dropOp (renewReads s k op) k op.seq) k).ops = [] := by
  refine ⟨(setMemChan_wait s k _).trans (setMemChan_wait _ k _), ?_⟩
  rw [dropOp, memChan_setMemChan_same, renewReads, memChan_setMemChan_same, h]
  simp

/-- A renormalisation is ready to commit, alone on its channel. -/
structure Committing (s : State) (k : Chan) (r : Region) (c : RegionCfg) (op : MemOp) (level j : Nat) (old : Line) : Prop where
  path : pathOn s = true
  cfg : c = regionCfg s r
  ops : (memChan s k).ops = [op]
  work : op.work = .renorm level j
  region : op.region = some r
  node : op.cipher = some old
  current : op.old = none
  answered : ∀ w ∈ op.children, w.1 ∈ op.done
  closed : (regionDyn s r).old = []
  cached : level ≤ levelsOf c.lines → (cached s (nodeAddr c level j)).isSome = true

theorem Committing.ready (h : Committing s k r c op level j old) : renormReady op = true := by
  simp only [renormReady, h.work, h.node, Option.isSome_some, Bool.true_and, List.all_eq_true]
  intro w hw
  simp [h.answered w hw]

theorem Committing.leaves (h : Committing s k r c op level j old) :
    WaitOnly (commitNode level j r old op s) (dropOp (renewReads (commitNode level j r old op s) k op) k op.seq) ∧
      (memChan (dropOp (renewReads (commitNode level j r old op s) k op) k op.seq) k).ops = [] := by
  refine dropOp_renewReads ?_
  rw [commitNode_eq h.cfg h.cached h.current]
  exact (congrArg MemChan.ops memChan_renewed).trans h.ops

theorem Committing.commitRenorm (h : Committing s k r c op level j old) : commitRenorm s k op =
    releaseGrant (dropOp (renewReads (commitNode level j r old op s) k op) k op.seq) (.renorm k) := by
  have hdone := commitNode_committed (op := op) (old := old) h.cfg h.current h.cached
  obtain ⟨hwait, hempty⟩ := h.leaves
  have hclosed : (regionDyn (dropOp (renewReads (commitNode level j r old op s) k op) k op.seq) r).old = [] := by
    rw [hwait.regionDyn, hdone.dyn]
    exact h.closed
  have hunder : underOld op (commitNode level j r old op) s = commitNode level j r old op s := by
    simp only [underOld, h.region, h.current]
  have hnone : anyRenorm (dropOp (renewReads (commitNode level j r old op s) k op) k op.seq) k = false := by
    simp only [anyRenorm, hempty, List.any_nil]
  have hrest : (memChan (releaseGrant (dropOp (renewReads (commitNode level j r old op s) k op) k op.seq) (.renorm k)) k).ops = [] :=
    hempty
  simp only [Machine.commitRenorm, h.work, h.region, h.node, hunder, finishClosing_noOld hclosed, hnone, Bool.false_eq_true, if_false,
    pump, pumpOnce_resting hrest]

/-- The commit puts the new counters in the node, and gives the grant back (R283, R284). -/
theorem exec_renormalisationCommit (h : Committing s k r c op level j old) :
    ∃ t, exec (.renormalisationCommit k) s = .next t ∧ (memChan t k).ops = [] ∧ grantHeld t (.renorm k) = false ∧
      Committed s t r c level j (nodeMajor old + 1) := by
  obtain ⟨hwait, hempty⟩ := h.leaves
  have hexec : exec (.renormalisationCommit k) s = .next (Machine.commitRenorm s k op) := by
    simp only [exec, execRenormalisationCommit, h.path, h.ops, List.find?_cons_of_pos h.ready, Bool.not_true, Bool.false_eq_true,
      if_false]
  rw [h.commitRenorm] at hexec
  exact ⟨_, hexec, hempty, releaseGrant_gone _ _,
    ((commitNode_committed (op := op) h.cfg h.current h.cached).waits hwait).releases _⟩

end

/-! ### With nothing waiting -/

theorem exec_renormalisation_idle {s : State} {k : Chan} (h : pathOn s = false ∨ (memChan s k).ops = []) :
    exec (.renormalisation k) s = .next s ∧ exec (.renormalisationCommit k) s = .next s := by
  rcases h with h | h
  · simp [exec, execRenormalisation, execRenormalisationCommit, h]
  · simp [exec, execRenormalisation, execRenormalisationCommit, h, startRenorm]

end Sys2Proof.Machine

/-! PROOF. A renormalisation at work beside the write that waits for it (R283, R284). -/

namespace Sys2Proof.Machine

/-! ### The work of a renormalisation before its lines have come -/

section
variable {s : State} {c : RegionCfg} {op : MemOp} (hf : op.failed = []) (hg : op.got = [])

/-- A key that may not be used leaves its line out. -/
theorem run_optional_lineLive (c : RegionCfg) (i : Nat) (s : State) :
    ∃ v, (optional (lineLive c i)).run.run s = (.ok v, s) := by
  rcases hd : lineDead s c i with _ | _
  · rcases hk : keyUsable s (lineKey s c i) with _ | _
    · have h : (lineLive c i).run.run s = (.error (.status 6), s) := by
        simp only [lineLive, liveKey, run_evGet, hd, hk, Bool.false_eq_true, if_false, run_throw]
      exact ⟨none, run_catch_error (run_bind_error h _) _⟩
    · exact ⟨some _, run_catch_ok (run_bind_ok (lineLive_usable hd hk) _) _⟩
  · have h : (lineLive c i).run.run s = (.error (.status 6), s) := by
      simp only [lineLive, run_evGet, hd, if_true, run_throw]
    exact ⟨none, run_catch_error (run_bind_error h _) _⟩

include hg

theorem asks_renormLine (old : Line) (i : Nat) : Asks (renormLine c op old i) := by
  unfold renormLine
  dsimp only
  split
  · exact asks_pure _
  · intro s
    obtain ⟨v, hv⟩ := run_optional_lineLive c i s
    rw [run_bind_ok hv]
    cases v with
    | none => exact asks_pure _ s
    | some key => exact asks_waits (stored_missing hg (c.base + i)) _ s

include hf

theorem asks_renormChildren (old : Line) (js : List Nat) (acc : Sparse Line) : Asks (renormChildren c op old 1 js acc) := by
  induction js generalizing acc with
  | nil => exact asks_pure acc
  | cons j js ih =>
    refine (asks_renormLine hg old j).bind fun o => ?_
    refine Asks.bind ?_ ih
    split
    · refine Asks.bind ?_ fun _ => asks_pure _
      split
      · exact asks_pure _
      · exact (asks_tagLine hf hg _ _).optional.bind fun _ => asks_pure _
    · exact asks_pure _

/-- The operation with the node and the lines that it has come to. -/
def gathering (op : MemOp) (x : Option Line × Sparse Line) : MemOp := { op with cipher := x.1, children := x.2 }

/-- The renormalisation of a cached node either has the lines to write, or waits for some. -/
theorem renormalise_gathers {j : Nat} {l : CacheLine} (hc : cached s (nodeAddr c 1 j) = some l) :
    ∃ t, UseOnly s t ∧ ((∃ x, (renormalise c op 1 j).run.run s = (.ok (.keep (gathering op x)), t)) ∨
      ∃ as, (renormalise c op 1 j).run.run s = (.error (.need as), t)) := by
  rcases hch : op.children with _ | ⟨w, ws⟩
  · obtain ⟨t, ht, ⟨ls, hls⟩ | ⟨as, has⟩⟩ :=
      asks_renormChildren (c := c) hf hg l.data ((List.range (childCount c 1 j)).map (fun x => 64 * j + x)) []
        (touchLine s (nodeAddr c 1 j))
    · refine ⟨t, (touchLine_use s _).trans ht, .inl ⟨(some l.data, ls), ?_⟩⟩
      rw [renormalise, hch]
      dsimp only
      rw [run_bind_ok (nodeOf_cached (levelsOf_pos _) hc), run_bind_ok hls]
      rfl
    · refine ⟨t, (touchLine_use s _).trans ht, .inr ⟨as, ?_⟩⟩
      rw [renormalise, hch]
      dsimp only
      rw [run_bind_ok (nodeOf_cached (levelsOf_pos _) hc), run_bind_error has]
  · have hself : gathering op (op.cipher, w :: ws) = op := by rw [← hch]; rfl
    refine ⟨s, UseOnly.refl s, .inl ⟨(op.cipher, w :: ws), ?_⟩⟩
    rw [hself, renormalise, hch]
    rfl

end

/-! ### A renormalisation beside the write that waits for it (R284) -/

section
variable {s t : State} {k : Chan} {r : Region} {i : Nat} {op o : MemOp} {l : CacheLine}

/-- A request of a line and, behind it on the channel, the renormalisation of the line's node, for which nothing has come yet. -/
structure Renewing (s : State) (k : Chan) (r : Region) (i : Nat) (op o : MemOp) (l : CacheLine) : Prop where
  ops : (memChan s k).ops = [op, o]
  request : isRequest op = true
  plain : ∀ lv j, op.work ≠ .renorm lv j
  region : op.region = some r
  current : op.old = none
  line : op.addr = (regionCfg s r).base + i
  work : o.work = .renorm 1 (i / 64)
  overs : o.region = some r
  under : o.old = none
  apart : op.seq ≠ o.seq
  sound : o.failed = []
  empty : o.got = []
  idle : (regionDyn s r).run = none
  closed : (regionDyn s r).old = []
  node : cached s (nodeAddr (regionCfg s r) 1 (i / 64)) = some l

theorem Renewing.moved (h : Renewing s k r i op o l) (ht : WaitOnly s t) {x : Option Line × Sparse Line}
    (hops : (memChan t k).ops = [op, gathering o x]) : Renewing t k r i op (gathering o x) l where
  ops := hops
  request := h.request
  plain := h.plain
  region := h.region
  current := h.current
  line := by rw [ht.lines.regionCfg]; exact h.line
  work := h.work
  overs := h.overs
  under := h.under
  apart := h.apart
  sound := h.sound
  empty := h.empty
  idle := by rw [ht.regionDyn]; exact h.idle
  closed := by rw [ht.regionDyn]; exact h.closed
  node := by rw [ht.cached, ht.lines.regionCfg]; exact h.node

/-- The write is held back. -/
theorem Renewing.blocks (h : Renewing s k r i op o l) : blocked s k op = true := by
  have hunder : underRenorm s o op = true := by
    have hnode : (op.addr - (opCfg s op r).base) / 64 ^ 1 = i / 64 := by
      rw [opCfg_current h.current, h.line, Nat.add_sub_cancel_left, pow_one]
    have hwork : (match op.work with
        | .evict kind => op.cipher.isNone && childLine 1 (i / 64) kind
        | .sweepLine => op.cipher.isNone && (match (regionDyn s r).run with
          | some run => run.kind == .rekey && run.item / 64 ^ 1 == i / 64
          | none => false)
        | _ => isRequest op && (op.addr - (opCfg s op r).base) / 64 ^ 1 == i / 64) = true := by
      have hreq := h.request
      split
      · next kind hk => simp [isRequest, hk] at hreq
      · next hk => simp [isRequest, hk] at hreq
      · rw [hreq, hnode, beq_self_eq_true, Bool.and_self]
    simp only [underRenorm, h.work, h.overs, h.region, h.under, h.current, beq_self_eq_true, Bool.true_and]
    exact hwork
  simp [blocked, h.ops, hunder]

/-- The renormalisation goes on. -/
theorem Renewing.not_blocked (h : Renewing s k r i op o l) : blocked s k o = false := by
  have hreq : isRequest o = false := by simp [isRequest, h.work]
  have hback : isEvict o = false := by simp [isEvict, h.work]
  have hline : lineAddr s o = none := by simp [lineAddr, hreq, hback, sweepAddr, h.work]
  have hwait : ∀ x, mustWait s x o = false := by
    intro x
    simp only [mustWait, hreq, hline, Bool.and_false, Bool.false_and, Bool.or_false, Bool.false_or]
    cases lineAddr s x <;> rfl
  have hop : underRenorm s op o = false := by simp [underRenorm, h.plain]
  have ho : underRenorm s o o = false := by simp [underRenorm, h.work, h.overs, hreq]
  have hsweep : sweepBars s k o = false := by simp [sweepBars, h.work, h.overs, h.idle]
  simp [blocked, h.ops, hwait, hop, ho, hsweep]

theorem Renewing.pumpOnce (h : Renewing s k r i op o l) : pumpOnce s k = advanceOp s k o := by
  have hreq : isRequest o = false := by simp [isRequest, h.work]
  have hfind : ([op, o].find? fun x => x.seq == o.seq) = some o := by
    rw [List.find?_cons_of_neg (by simpa using h.apart), List.find?_cons_of_pos (by simp)]
  simp only [Machine.pumpOnce, h.ops, List.map_cons, List.map_nil, List.foldl_cons, List.foldl_nil,
    List.find?_cons_of_pos, beq_self_eq_true, h.blocks, Bool.true_or, if_true, hfind, h.not_blocked, hreq, Bool.false_and, Bool.or_self,
    Bool.false_eq_true, if_false]

theorem issueWrites_requests (s : State) (k : Chan) (op : MemOp) : Requests s (issueWrites s k op) k := by
  refine foldl_requests (fun s w => ?_) op.children s
  split
  · exact (UseOnly.refl s).requests k
  · exact issueMc_requests s k _ _ _ _ _ _

/-- One evaluation: the renormalisation may have its lines, and may ask for some or send them; the write waits. -/
theorem Renewing.steps (h : Renewing s k r i op o l) : ∃ x, Renewing (Machine.pumpOnce s k) k r i op (gathering o x) l ∧
    WaitOnly s (Machine.pumpOnce s k) ∧ (memChan (Machine.pumpOnce s k) k).rsp = (memChan s k).rsp := by
  have hall : ∃ x, (memChan (runOp k o s) k).ops = [op, gathering o x] ∧ WaitOnly s (runOp k o s) ∧
      (memChan (runOp k o s) k).rsp = (memChan s k).rsp := by
    obtain ⟨t, ht, ⟨x, hx⟩ | ⟨as, has⟩⟩ := renormalise_gathers h.sound h.empty h.node
    · rw [← evalOp_renorm (k := k) h.overs h.under h.work] at hx
      have hreq := issueWrites_requests (putOp t k (gathering o x)) k (gathering o x)
      have hput : memChan (putOp t k (gathering o x)) k = { memChan s k with ops := [op, gathering o x] } := by
        rw [putOp, memChan_setMemChan_same, ht.memChan, h.ops]
        simp [gathering, h.apart]
      rw [runOp_keep hx]
      refine ⟨x, ?_, (ht.wait.trans (setMemChan_wait _ _ _)).trans hreq.wait, ?_⟩
      · rw [hreq.ops, hput]
      · rw [hreq.rsp, hput]
    · rw [← evalOp_renorm (k := k) h.overs h.under h.work] at has
      have hreq := foldl_requests (fun s a => issueMc_requests s k o.seq a false 0 0 none) as t
      have hchan := ht.requests k |>.trans hreq
      rw [runOp_error has]
      exact ⟨(o.cipher, o.children), hchan.ops.trans h.ops, hchan.wait, hchan.rsp⟩
  obtain ⟨x, hops, hwait, hrsp⟩ := hall
  have hadv : Machine.pumpOnce s k = runOp k o s := by
    rw [h.pumpOnce]
    exact advanceOp_eq h.overs h.under rfl (by rw [hwait.regionDyn]; exact h.closed)
  rw [hadv]
  exact ⟨x, h.moved hwait hops, hwait, hrsp⟩

/-- A cycle of the channel. -/
theorem Renewing.pumps (h : Renewing s k r i op o l) : ∃ x, (memChan (pump s k) k).ops = [op, gathering o x] ∧
    WaitOnly s (pump s k) ∧ (memChan (pump s k) k).rsp = (memChan s k).rsp := by
  obtain ⟨x, h1, hw1, hr1⟩ := h.steps
  obtain ⟨y, h2, hw2, hr2⟩ := h1.steps
  exact ⟨y, h2.ops, hw1.trans hw2, hr2.trans hr1⟩

end

end Sys2Proof.Machine

/-! PROOF. The start of a renormalisation (R284). -/

namespace Sys2Proof.Machine

/-! ### The start of a renormalisation (R284) -/

section
variable {s : State} {k : Chan} {op : MemOp}

theorem WaitOnly.grantHeld {t : State} (h : WaitOnly s t) (g : HeavyOp) : grantHeld t g = grantHeld s g := by
  rw [Machine.grantHeld, Machine.grantHeld, h]

theorem renormGrant_held (hl : ledBy op = .none) : grantHeld (renormGrant s k op) (.renorm k) = true := by
  unfold renormGrant
  rcases hg : grantHeld s (.renorm k) with _ | _
  · rw [hl]
    simp [grantHeld, holdGrant, bump, bumpBy]
  · simpa using hg

/-- The grant and its count are all that it changes. -/
theorem renormGrant_frame (s : State) (k : Chan) (op : MemOp) :
    renormGrant s k op = { s with grants := (renormGrant s k op).grants, ctrs := (renormGrant s k op).ctrs } := by
  unfold renormGrant
  split <;> rfl

theorem Guarded.granted {r : Region} {i : Nat} {g : RegionCfg} {key : KeyVal} {ln : CacheLine} (h : Guarded s r i g key ln)
    (k : Chan) (op : MemOp) : Guarded (renormGrant s k op) r i g key ln := by
  rw [renormGrant_frame]
  exact ⟨⟨h.cfg, h.mode, h.old, h.clean, h.live, h.usable, h.key⟩, h.node⟩

variable {r : Region} {level j : Nat}

/-- The renormalisation that a write leads to, as its channel holds it. -/
def renormFor (op : MemOp) (r : Region) (level j n : Nat) : MemOp :=
  { newOp (.renorm level j) (replacedLine op) 0 (some r) with cause := ledBy op, old := op.old, seq := n }

/-- A full write leaves its own line out of the renormalisation. -/
theorem replacedLine_full {d : Line} (hw : op.work = .write d (BitVec.allOnes 64)) : replacedLine op = op.addr := by
  simp only [replacedLine, hw, if_true]

/-- The write that is alone on its channel is the first that waits, and its renormalisation starts. -/
theorem startRenorm_alone (h : Alone s k op) (hr : op.region = some r) (hw : renormWanted s k op = some (level, j)) :
    startRenorm s k [op] = pump (setMemChan (renormGrant s k op) k { memChan s k with
      ops := [op, renormFor op r level j (memChan s k).nextSeq], nextSeq := (memChan s k).nextSeq + 1 }) k := by
  have hat : renormAt s k r level j = false := by simp [renormAt, h.ops, h.plain]
  have hany : anyRenorm s k = false := by
    simp only [anyRenorm, h.ops, List.any_cons, List.any_nil, Bool.or_false]
    split
    · next l x hx => exact absurd hx (h.plain l x)
    · rfl
  have hmay : mayRenorm s k op = true := by simp [mayRenorm, hany]
  have hchan : memChan (renormGrant s k op) k = memChan s k := by rw [renormGrant_frame]; rfl
  simp only [startRenorm, hw, hr, hat, hmay, Bool.not_true, Bool.or_self, Bool.false_eq_true, if_false, appendOp, hchan, h.ops]
  rfl

theorem renormWanted_write {i : Nat} {g : RegionCfg} {key : KeyVal} {ln : CacheLine} {d : Line} (ha : Alone s k op)
    (hr : op.region = some r) (ho : op.old = none) (hw : op.work = .write d (BitVec.allOnes 64)) (hc : op.cipher = none)
    (hl : op.addr = g.base + i) (h : Guarded s r i g key ln) (hs : (regionDyn s r).state ≠ .writeLocked)
    (h127 : nodeMinor ln.data (i % 64) = 127) (hm : nodeMajor ln.data ≠ BitVec.allOnes 64) :
    renormWanted s k op = some (1, i / 64) := by
  simp only [renormWanted, ha.not_blocked, Bool.false_eq_true, if_false, hr, ho,
    evalOp_writeRenorm hr ho hw hc hl h hs h127 hm]

/-- A full write that finds its minor at 127 has its node renormalised, and waits (R283, R284). -/
theorem exec_renormalisation_starts {i : Nat} {g : RegionCfg} {key : KeyVal} {ln : CacheLine} {d : Line}
    (hp : pathOn s = true) (ha : Alone s k op) (hr : op.region = some r) (ho : op.old = none)
    (hw : op.work = .write d (BitVec.allOnes 64)) (hc : op.cipher = none) (hcause : op.cause = .none) (hl : op.addr = g.base + i)
    (h : Guarded s r i g key ln) (hs : (regionDyn s r).state ≠ .writeLocked) (hrun : (regionDyn s r).run = none)
    (hn : op.seq ≠ (memChan s k).nextSeq) (h127 : nodeMinor ln.data (i % 64) = 127)
    (hm : nodeMajor ln.data ≠ BitVec.allOnes 64) :
    ∃ t o, exec (.renormalisation k) s = .next t ∧ grantHeld t (.renorm k) = true ∧ (memChan t k).rsp = (memChan s k).rsp ∧
      (memChan t k).ops = [op, o] ∧
      (o.work = .renorm 1 (i / 64) ∧ o.region = some r ∧ o.addr = op.addr ∧ o.seq = (memChan s k).nextSeq) ∧
      t = { s with grants := t.grants, ctrs := t.ctrs, mem := { s.mem with plru := t.mem.plru, chans := t.mem.chans } } := by
  have hled : ledBy op = .none := by simp [ledBy, hw, hcause]
  have hgrant := renormGrant_frame s k op
  have hg := (h.granted k op).onChan k { memChan s k with
      ops := [op, renormFor op r 1 (i / 64) (memChan s k).nextSeq], nextSeq := (memChan s k).nextSeq + 1 }
  have hren : Renewing (setMemChan (renormGrant s k op) k { memChan s k with
      ops := [op, renormFor op r 1 (i / 64) (memChan s k).nextSeq], nextSeq := (memChan s k).nextSeq + 1 }) k r i op
      (renormFor op r 1 (i / 64) (memChan s k).nextSeq) ln :=
    { ops := by rw [memChan_setMemChan_same]
      request := by simp [isRequest, hw]
      plain := ha.plain
      region := hr
      current := ho
      line := by rw [hg.cfg]; exact hl
      work := rfl
      overs := rfl
      under := ho
      apart := hn
      sound := rfl
      empty := rfl
      idle := by rw [regionDyn_setMemChan, hgrant]; exact hrun
      closed := hg.old
      node := by rw [hg.cfg]; exact hg.node }
  obtain ⟨x, hops, hwait, hrsp⟩ := hren.pumps
  refine ⟨_, _, ?exec, ?held, ?rsp, hops, ⟨rfl, rfl, replacedLine_full hw, rfl⟩, ?only⟩
  case exec =>
    simp only [exec, execRenormalisation, hp, ha.ops, if_true]
    rw [startRenorm_alone ha hr (renormWanted_write ha hr ho hw hc hl h hs h127 hm)]
  case held =>
    rw [hwait.grantHeld, (setMemChan_wait _ k _).grantHeld]
    exact renormGrant_held hled
  case rsp => rw [hrsp, memChan_setMemChan_same]
  case only =>
    rw [WaitOnly] at hwait
    rw [hwait, hgrant]
    rfl

end

end Sys2Proof.Machine

/-! PROOF. Reads and writes of full-protection regions from mq_ to mc_ and back (R269, R271, R281, R282, R285). -/

namespace Sys2Proof.Machine

/-! ### A request on an idle channel -/

/-- Line a of a channel with nothing in work is line i of an active full-protection region with record g, which admits it. -/
structure Admitted (s : State) (k : Chan) (r : Region) (g : RegionCfg) (a i : Nat) : Prop where
  path : pathOn s = true
  idle : Idle s k
  cfg : regionCfg s r = g
  mode : g.mode = 3
  decodes : decodeLine s k a = .region r
  line : a = g.base + i
  active : (regionDyn s r).state = .active
  closed : (regionDyn s r).old = []
  counters : groupCount s 4 ≠ 0

section
variable {s t : State} {k : Chan} {r : Region} {g : RegionCfg} {i : Nat} {key : KeyVal} {ln lt : CacheLine} {a : BitVec 34}
  {id : BitVec 12} {d ct : Line} {e : BitVec 7} {M : W64} (h : Admitted s k r g a.toNat i)
include h

theorem Admitted.unlocked (x y : Nat) : (regionDyn (bump s x y) r).state ≠ .writeLocked := by
  rw [show (regionDyn (bump s x y) r).state = .active from h.active]
  decide

theorem exec_memoryRead_admitted : exec (.memoryRead k a id) s = .next (pump (setMemChan (bump s (0x3C11 + r.val) 1) k
    (working (numbered (memChan s k)) (requestOf .read a.toNat id r (memChan s k).nextSeq) [])) k) := by
  rw [exec_memoryRead (h.idle.mqReady h.path),
    acceptMq_region h.idle h.decodes (regionRefusal_active h.active h.counters (fun hw => absurd hw Bool.false_ne_true))]
  rfl

theorem exec_memoryWrite_admitted : exec (.memoryWrite k a id d (BitVec.allOnes 64)) s = .next (pump
    (setMemChan (bump s (0x3C11 + r.val) 2) k
      (working (numbered (memChan s k)) (requestOf (.write d (BitVec.allOnes 64)) a.toNat id r (memChan s k).nextSeq) [])) k) := by
  rw [exec_memoryWrite (h.idle.mqReady h.path),
    acceptMq_region h.idle h.decodes (regionRefusal_active h.active h.counters (fun _ => by decide))]
  rfl

/-- A poisoned line is answered with 3. -/
theorem memoryRead_poisoned (hp : poisonedLine s r i = true) : exec (.memoryRead k a id) s =
    .next (setMemChan (bump (bump s (0x3C11 + r.val) 1) (0x3C11 + r.val) 6) k
      (answeredWith (numbered (memChan s k)) ⟨id, false, 0, 3⟩)) := by
  rw [exec_memoryRead_admitted h, pump_readPoisoned (s := bump s (0x3C11 + r.val) 1) (op := requestOf .read a.toNat id r _) rfl rfl
    h.line rfl h.idle.numbered_room h.idle.numbered h.cfg h.mode h.closed hp]
  rfl

section
variable (hg : Guarded s r i g key ln)
include hg

/-- A read asks mc_ for its line. -/
theorem memoryRead_asks : exec (.memoryRead k a id) s =
    .next (setMemChan (readTwice (bump s (0x3C11 + r.val) 1) (nodeAddr g 1 (i / 64))) k
      (working (numbered (memChan s k)) (requestOf .read a.toNat id r (memChan s k).nextSeq)
        [⟨0, (memChan s k).nextSeq, a.toNat, false, 0, 0, s.now, (memChan s k).mcReady⟩])) := by
  rw [exec_memoryRead_admitted h, pump_readAsks (op := requestOf .read a.toNat id r _) rfl rfl h.line rfl h.idle.numbered_room
    (hg.bumped _ _) rfl rfl h.idle.withheld]
  rfl

/-- The write that has gone to mc_, as its channel holds it. -/
def writeOut (s : State) (k : Chan) (r : Region) (a : Nat) (id : BitVec 12) (d ct : Line) : MemChan :=
  working (numbered (memChan s k)) (sentWrite (requestOf (.write d (BitVec.allOnes 64)) a id r (memChan s k).nextSeq) ct)
    [⟨0, (memChan s k).nextSeq, a, true, ct, BitVec.allOnes 64, s.now, (memChan s k).mcReady⟩]

theorem memoryWrite_sends (ht : cached s (dataTagAddr g i) = some lt) (he : e = nodeMinor ln.data (i % 64) + 1)
    (h127 : nodeMinor ln.data (i % 64) ≠ 127) (hct : ct = d ^^^ lineStream key (nodeMajor ln.data) e a.toNat) :
    exec (.memoryWrite k a id d (BitVec.allOnes 64)) s =
      .next (setMemChan (placed (bump s (0x3C11 + r.val) 2) g key i ln lt e ct) k (writeOut s k r a.toNat id d ct)) := by
  rw [exec_memoryWrite_admitted h, pump_writeSends (op := requestOf (.write d (BitVec.allOnes 64)) a.toNat id r _) rfl rfl h.line
    h.idle.numbered_room rfl rfl (hg.bumped _ _) ht rfl rfl (h.unlocked _ _) h.idle.withheld he h127 hct]
  rfl

/-- A write whose counters are spent locks its region. -/
theorem memoryWrite_locks (h127 : nodeMinor ln.data (i % 64) = 127) (hm : nodeMajor ln.data = BitVec.allOnes 64) :
    exec (.memoryWrite k a id d (BitVec.allOnes 64)) s = .next (setMemChan
      (bump (lockRegion (touchLine (bump s (0x3C11 + r.val) 2) (nodeAddr g 1 (i / 64))) r) (0x3C11 + r.val) 8) k
      (answeredWith (numbered (memChan s k)) ⟨id, true, 0, 5⟩)) := by
  rw [exec_memoryWrite_admitted h, pump_writeSpent (op := requestOf (.write d (BitVec.allOnes 64)) a.toNat id r _) rfl rfl h.line
    h.idle.numbered_room rfl (hg.bumped _ _) rfl (h.unlocked _ _) h127 hm h.idle.numbered]
  rfl

end

/-- The answer of mc_ to such a write ends it. -/
theorem memoryWrite_answered (ht : LinesOnly (bump s (0x3C11 + r.val) 2) t) (hready : (memChan s k).mcReady = true) :
    exec (.mcResponse k 0 0 0) (setMemChan t k (writeOut s k r a.toNat id d ct)) =
      .next (setMemChan t k (answeredWith (numbered (memChan s k)) ⟨id, true, 0, 0⟩)) := by
  have hpath : pathOn t = true := ht.pathOn.trans h.path
  rw [writeOut, exec_mcResponse_working hpath rfl hready, answerMc_last (memChan_setMemChan_same _ _ _) rfl (.inl rfl) (.inr rfl),
    setMemChan_working]
  have hdone : accessDone (sentWrite (requestOf (.write d (BitVec.allOnes 64)) a.toNat id r (memChan s k).nextSeq) ct)
      ⟨0, (memChan s k).nextSeq, a.toNat, true, ct, BitVec.allOnes 64, s.now, (memChan s k).mcReady⟩ 0 0 =
      { sentWrite (requestOf (.write d (BitVec.allOnes 64)) a.toNat id r (memChan s k).nextSeq) ct with done := [a.toNat] } := rfl
  rw [hdone, pump_writeAnswered (r := r) (g := g) (ct := ct) rfl rfl h.line h.idle.numbered_room rfl rfl
    ((ht.regionCfg r).trans h.cfg) h.mode (by rw [ht.regionDyn]; exact h.closed) h.idle.numbered rfl
    (by simp [sentWrite, requestOf, newOp])]
  rfl

/-! What such a write leaves (R282, R285). -/

omit h in
/-- The tag and the entry of the line are in the cache. -/
theorem cached_placed (hnode : cached s (nodeAddr g 1 (i / 64)) = some ln) (ht : cached s (dataTagAddr g i) = some lt) (b : Nat) :
    cached (placed s g key i ln lt e ct) b =
      if b = nodeAddr g 1 (i / 64) then some (nodeLine g 1 (i / 64) (setMinor ln.data (i % 64) e))
      else if b = dataTagAddr g i then
        some (dataTagLine g i (setTag lt.data (i % 8) (dataTag key (nodeMajor ln.data) e (g.base + i) ct)))
      else cached s b := by
  have htag : (cached (touchLine s (nodeAddr g 1 (i / 64))) (dataTagAddr g i)).isSome = true := Option.isSome_iff_exists.2 ⟨lt, ht⟩
  have hkept := isSome_cached_storeLine
    (l := dataTagLine g i (setTag lt.data (i % 8) (dataTag key (nodeMajor ln.data) e (g.base + i) ct))) htag
    (Option.isSome_iff_exists.2 ⟨ln, hnode⟩ : (cached (touchLine s _) (nodeAddr g 1 (i / 64))).isSome = true)
  rw [placed, cached_storeLine (l := nodeLine g 1 (i / 64) _) hkept, cached_storeLine (l := dataTagLine g i _) htag,
    cached_touchLine]
  rfl

end

end Sys2Proof.Machine

/-! PROOF. What the answer of mc_ to a read does (R271, R281). -/

namespace Sys2Proof.Machine

/-! ### The answer of mc_ to a read (R271, R281) -/

/-- A read of line i of a full-protection region waits alone on its channel for the request q on mc_. -/
structure Awaiting (s : State) (k : Chan) (r : Region) (g : RegionCfg) (i : Nat) (c : MemChan) (op : MemOp) (q : McReq) : Prop where
  path : pathOn s = true
  chan : memChan s k = working c op [q]
  resting : Resting c
  withheld : c.withheld = []
  room : c.rsp.length < 256
  region : op.region = some r
  current : op.old = none
  work : op.work = .read
  line : op.addr = g.base + i
  sound : op.failed = []
  empty : op.got = []
  id : q.id = 0
  sent : q.sent = true
  seq : q.seq = op.seq
  addr : q.addr = op.addr
  read : q.write = false

/-- The read with its line. -/
def readWith (op : MemOp) (d : Line) : MemOp := { op with got := [(op.addr, d)] }

section
variable {s : State} {k : Chan} {r : Region} {g : RegionCfg} {i : Nat} {c : MemChan} {op : MemOp} {q : McReq} {ct : Line}
  {key : KeyVal} {ln lt : CacheLine} (h : Awaiting s k r g i c op q)
include h

theorem exec_mcResponse_awaited : exec (.mcResponse k 0 ct 0) s =
    .next (pump (setMemChan s k (working c (readWith op ct) [])) k) := by
  have hdone : accessDone op q ct 0 = readWith op ct := by
    simp only [accessDone, if_true, h.read, Bool.false_eq_true, if_false, h.empty, h.addr, spPut, readWith]
  rw [exec_mcResponse_outstanding (id := 0) h.path h.chan h.id h.sent, answerMc_last h.chan h.seq (.inl rfl) (.inl h.read), hdone]

variable (hg : Guarded s r i g key ln) (ht : cached s (dataTagAddr g i) = some lt)
include hg ht

theorem mcResponse_good (hk : chanOf g = k)
    (hm : dataTag key (nodeMajor ln.data) (nodeMinor ln.data (i % 64)) op.addr ct = tagAt lt.data (i % 8)) :
    exec (.mcResponse k 0 ct 0) s = .next (setMemChan (countOnce (touchLine s (nodeAddr g 1 (i / 64))) r op op.addr) k
      (answeredWith c ⟨op.id, false, ct ^^^ lineStream key (nodeMajor ln.data) (nodeMinor ln.data (i % 64)) op.addr, 0⟩)) := by
  rw [exec_mcResponse_awaited h, pump_readGood (op := readWith op ct) h.region h.current h.work h.line h.room h.resting hg h.sound
    (if_pos rfl) ht hk hm]
  rfl

variable (hm : dataTag key (nodeMajor ln.data) (nodeMinor ln.data (i % 64)) op.addr ct ≠ tagAt lt.data (i % 8))
include hm

theorem mcResponse_fails (hon : op.addr ∈ op.once) : exec (.mcResponse k 0 ct 0) s = .next (setMemChan
    (raiseCause (bump (touchLine s (nodeAddr g 1 (i / 64))) (0x3C11 + r.val) 3) (evRegion r.val) 0 r.val) k
    (answeredWith c ⟨op.id, false, 0, 2⟩)) := by
  rw [exec_mcResponse_awaited h, pump_readFails (op := readWith op ct) h.region h.current h.work h.line h.room h.resting hg h.sound
    (if_pos rfl) ht hm (List.contains_iff_mem.2 hon)]
  rfl

theorem mcResponse_again (hon : op.once = []) (hfree : ∀ x ∈ s.mem.cache, x.2.addr ≠ op.addr) :
    ∃ t, exec (.mcResponse k 0 ct 0) s = .next t ∧ (memChan t k).rsp = c.rsp ∧
      (memChan t k).ops = [{ op with once := [op.addr, dataTagAddr g i] }] ∧ ∃ q ∈ (memChan t k).mc, q.addr = op.addr ∧ q.write = false := by
  obtain ⟨hrsp, hops, hmc⟩ := pump_readAgain (k := k) (c := c) (op := readWith op ct) h.region h.current h.work h.line h.room h.withheld
    hg h.sound rfl ht hon hm hfree rfl
  have hsame : repeated (readWith op ct) g i = { op with once := [op.addr, dataTagAddr g i] } := by
    rw [h.empty]
    rfl
  exact ⟨_, exec_mcResponse_awaited h, hrsp, hsame ▸ hops, hmc⟩

end

end Sys2Proof.Machine

/-! PROOF. The settlement of O51. -/

namespace Sys2Proof.Machine

/-! ### What a request leaves, part by part -/

/-- Two states differ at most in the counters, the lines of the cache, their use, and the channels. -/
def WriteOnly (s t : State) : Prop :=
  t = { s with ctrs := t.ctrs, mem := { s.mem with cache := t.mem.cache, plru := t.mem.plru, chans := t.mem.chans } }

theorem LinesOnly.afterBump {s t : State} {x y : Nat} (h : LinesOnly (bump s x y) t) : WriteOnly s t := by
  rw [LinesOnly] at h
  rw [WriteOnly, h]
  rfl

section
variable {s : State} {k : Chan} {r : Region} {g : RegionCfg} {i : Nat} {key : KeyVal} {ln lt : CacheLine} {a : BitVec 34}
  {id : BitVec 12} {d : Line} (h : Admitted s k r g a.toNat i) (hg : Guarded s r i g key ln)
include h hg

/-- A read is on its way to mc_ and not yet answered; apart from the use of the cache it changes its channel and a count. -/
theorem memoryRead_issued : ∃ t, exec (.memoryRead k a id) s = .next t ∧ (memChan t k).rsp = (memChan s k).rsp ∧
    (memChan t k).ops = [requestOf .read a.toNat id r (memChan s k).nextSeq] ∧
    (memChan t k).mc = [⟨0, (memChan s k).nextSeq, a.toNat, false, 0, 0, s.now, (memChan s k).mcReady⟩] ∧
    WaitOnly (bump s (0x3C11 + r.val) 1) t := by
  refine ⟨_, memoryRead_asks h hg, ?_, ?_, ?_, ((touchLine_use _ _).trans (touchLine_use _ _)).wait.trans (setMemChan_wait _ _ _)⟩
  all_goals rw [memChan_setMemChan_same]; rfl

/-- A full write leaves its tag and its new entry in the cache, and ends when mc_ has answered it. -/
theorem memoryWrite_placed (ht : cached s (dataTagAddr g i) = some lt) (hapart : dataTagAddr g i ≠ nodeAddr g 1 (i / 64))
    (h127 : nodeMinor ln.data (i % 64) ≠ 127) {e : BitVec 7} (he : e = nodeMinor ln.data (i % 64) + 1) {ct : Line}
    (hct : ct = d ^^^ lineStream key (nodeMajor ln.data) e a.toNat) :
    ∃ t, exec (.memoryWrite k a id d (BitVec.allOnes 64)) s = .next t ∧
      (memChan t k).mc = [⟨0, (memChan s k).nextSeq, a.toNat, true, ct, BitVec.allOnes 64, s.now, (memChan s k).mcReady⟩] ∧
      (memChan t k).rsp = (memChan s k).rsp ∧
      cached t (nodeAddr g 1 (i / 64)) = some (nodeLine g 1 (i / 64) (setMinor ln.data (i % 64) e)) ∧
      cached t (dataTagAddr g i) =
        some (dataTagLine g i (setTag lt.data (i % 8) (dataTag key (nodeMajor ln.data) e a.toNat ct))) ∧
      WriteOnly s t ∧
      ((memChan s k).mcReady = true → ∃ u, exec (.mcResponse k 0 0 0) t = .next u ∧
        (memChan u k).rsp = (memChan s k).rsp ++ [⟨id, true, 0, 0⟩] ∧ (memChan u k).ops = []) := by
  have hb : Guarded (bump s (0x3C11 + r.val) 2) r i g key ln := hg.bumped _ _
  have hplaced := placed_lines (bump s (0x3C11 + r.val) 2) g key i ln lt e ct
  refine ⟨_, memoryWrite_sends h hg ht he h127 hct, ?mc, ?rsp, ?node, ?tag,
    (hplaced.trans (setMemChan_wait _ _ _).lines).afterBump, fun hready => ⟨_, memoryWrite_answered h hplaced hready, ?answer, ?gone⟩⟩
  case mc | rsp | answer => rw [memChan_setMemChan_same]; rfl
  case gone => rw [memChan_setMemChan_same]; exact h.idle.resting.ops
  case node => rw [(setMemChan_wait _ _ _).cached, cached_placed hb.node ht, if_pos rfl]
  case tag => rw [(setMemChan_wait _ _ _).cached, cached_placed hb.node ht, if_neg hapart, if_pos rfl, h.line]

/-- A write that finds its counters spent locks its region and raises it. -/
theorem memoryWrite_refused (h127 : nodeMinor ln.data (i % 64) = 127) (hm : nodeMajor ln.data = BitVec.allOnes 64) :
    ∃ t, exec (.memoryWrite k a id d (BitVec.allOnes 64)) s = .next t ∧ (regionDyn t r).state = .writeLocked ∧
      (memChan t k).rsp = (memChan s k).rsp ++ [⟨id, true, 0, 5⟩] ∧
      (ctlOn s = true → t.events.pending.getLsbD (96 + r.val) = true) := by
  refine ⟨_, memoryWrite_locks h hg h127 hm, ?_, ?_, fun hctl => ?_⟩
  · rw [regionDyn_setMemChan]
    exact congrArg RegionDyn.state (regionDyn_lockRegion _ r)
  · rw [memChan_setMemChan_same]; rfl
  · exact (raiseCause_recorded (s := setRegionDyn (touchLine (bump s (0x3C11 + r.val) 2) (nodeAddr g 1 (i / 64))) r _)
      (src := 96 + r.val) (b := 2) r.val hctl (by omega) (by omega)).1

end

section
variable {s : State} {k : Chan} {r : Region} {g : RegionCfg} {i : Nat} {c : MemChan} {op : MemOp} {q : McReq} {ct : Line}
  {key : KeyVal} {ln lt : CacheLine} (h : Awaiting s k r g i c op q) (hg : Guarded s r i g key ln)
  (ht : cached s (dataTagAddr g i) = some lt)
include h hg ht

/-- Under its tag the line is answered in the clear, and a second attempt that it needed is counted. -/
theorem mcResponse_answers (hk : chanOf g = k)
    (hm : dataTag key (nodeMajor ln.data) (nodeMinor ln.data (i % 64)) op.addr ct = tagAt lt.data (i % 8)) :
    ∃ t, exec (.mcResponse k 0 ct 0) s = .next t ∧ memChan t k = answeredWith c
        ⟨op.id, false, ct ^^^ lineStream key (nodeMajor ln.data) (nodeMinor ln.data (i % 64)) op.addr, 0⟩ ∧
      t.events = s.events ∧ ctr t (0x3C11 + r.val) 5 =
        if op.addr ∈ op.once then satAdd64 (ctr s (0x3C11 + r.val) 5) 1 else ctr s (0x3C11 + r.val) 5 := by
  refine ⟨_, mcResponse_good h hg ht hk hm, memChan_setMemChan_same _ _ _, ?_, ?_⟩
  · unfold countOnce
    split <;> rfl
  · rw [(setMemChan_wait _ k _).ctr, countOnce]
    by_cases hon : op.addr ∈ op.once
    · rw [if_pos (List.contains_iff_mem.2 hon), if_pos hon, ctr_bump_same, (touchLine_use s _).wait.ctr]
    · rw [if_neg (fun hx => hon (List.contains_iff_mem.1 hx)), if_neg hon, (touchLine_use s _).wait.ctr]

/-- A second mismatch is counted and raised. -/
theorem mcResponse_refuses
    (hm : dataTag key (nodeMajor ln.data) (nodeMinor ln.data (i % 64)) op.addr ct ≠ tagAt lt.data (i % 8)) (hon : op.addr ∈ op.once) :
    ∃ t, exec (.mcResponse k 0 ct 0) s = .next t ∧ memChan t k = answeredWith c ⟨op.id, false, 0, 2⟩ ∧
      ctr t (0x3C11 + r.val) 3 = satAdd64 (ctr s (0x3C11 + r.val) 3) 1 ∧
      (ctlOn s = true → t.events.pending.getLsbD (96 + r.val) = true ∧
        (spGet w32Zero t.events.cause (96 + r.val)).getLsbD 0 = true) := by
  refine ⟨_, mcResponse_fails h hg ht hm hon, memChan_setMemChan_same _ _ _, ?_, fun hctl => ?_⟩
  · rw [(setMemChan_wait _ k _).ctr, ctr_raiseCause, ctr_bump_same, (touchLine_use s _).wait.ctr]
  · exact raiseCause_recorded (s := bump (touchLine s (nodeAddr g 1 (i / 64))) (0x3C11 + r.val) 3) (src := 96 + r.val) (b := 0) r.val
      hctl (by omega) (by omega)

end

/-! ### The whole -/

/-- Settles O51, by following each command through the two evaluations of its cycle: requests, answers of mc_, the start and the
commit of a renormalisation, and the eviction of a way. -/
theorem protectedLinesAreVerifiedAndCounted : Obligations.ProtectedLinesAreVerifiedAndCounted := by
  unfold Obligations.ProtectedLinesAreVerifiedAndCounted
  refine ⟨?requests, ?answers, fun s k h => exec_renormalisation_idle h, ?starts, ?commits, ?evictions⟩
  case requests =>
    rintro s k r c a id i n ch ln lt key M e hp rfl hops hmc hwh hnoted hroom rfl rfl hm hdec hline hact hold hgrp
    have h : Admitted s k r (regionCfg s r) a.toNat i :=
      ⟨hp, ⟨⟨hops, hmc, hnoted⟩, hwh, hroom⟩, rfl, hm, hdec, hline, hact, hold, hgrp⟩
    refine ⟨fun hpoison => memoryRead_poisoned h hpoison, ?_⟩
    rintro hclean hlive huse rfl hnode ht rfl rfl
    have hg : Guarded s r i (regionCfg s r) (slotValue s (lineKey s (regionCfg s r) i)) ln :=
      ⟨⟨rfl, hm, hold, hclean, hlive, huse, rfl⟩, hnode⟩
    refine ⟨?read, fun d hapart => ⟨fun h127 => ?next, fun h127 hspent => memoryWrite_refused h hg h127 hspent⟩⟩
    case read =>
      obtain ⟨t, hexec, hrsp, hops', hmc', hwait⟩ := memoryRead_issued (id := id) h hg
      exact ⟨t, hexec, hrsp, hops', hmc', hwait⟩
    case next =>
      obtain ⟨t, hexec, hmc', hrsp, hcn, hct, honly, hend⟩ := memoryWrite_placed (id := id) (d := d) h hg ht hapart h127 rfl rfl
      exact ⟨t, _, _, _, hexec, rfl, hmc', hrsp, hcn, rfl, rfl, hct, rfl, rfl, honly, hend⟩
  case answers =>
    rintro s k r c a id i ch op q ln lt key M e ct hp rfl hop hops hmc hid haddr hwr hsent hwh hnoted hroom rfl hm hchan hline hold
      hclean hlive huse rfl hnode ht rfl rfl
    have haddr' : op.addr = a.toNat := by rw [hop]; rfl
    have hg : Guarded s r i (regionCfg s r) (slotValue s (lineKey s (regionCfg s r) i)) ln :=
      ⟨⟨rfl, hm, hold, hclean, hlive, huse, rfl⟩, hnode⟩
    have h : Awaiting s k r (regionCfg s r) i { memChan s k with ops := [], mc := [] } op q :=
      { path := hp
        chan := by rw [working, ← hops, ← hmc]
        resting := ⟨rfl, rfl, hnoted⟩
        withheld := hwh
        room := hroom
        region := by rw [hop]; rfl
        current := by rw [hop]; rfl
        work := by rw [hop]; rfl
        line := haddr'.trans hline
        sound := by rw [hop]; rfl
        empty := by rw [hop]; rfl
        id := hid
        sent := hsent
        seq := by rw [hop]
        addr := haddr.trans haddr'.symm
        read := hwr }
    have hopid : op.id = id := by rw [hop]; rfl
    rw [← haddr', ← hopid]
    split
    · next hgood =>
      obtain ⟨t, hexec, hchan', hrest⟩ := mcResponse_answers h hg ht hchan hgood
      exact ⟨t, hexec, hchan', hrest⟩
    · next hbad =>
      by_cases hon : op.addr ∈ op.once
      · obtain ⟨t, hexec, hrest⟩ := mcResponse_refuses h hg ht hbad hon
        exact ⟨t, hexec, fun _ => hrest, fun hnone => absurd (hnone ▸ hon) List.not_mem_nil⟩
      · by_cases hagain : op.once = [] ∧ ∀ x ∈ s.mem.cache, x.2.addr ≠ op.addr
        · obtain ⟨t, hexec, hrest⟩ := mcResponse_again h hg ht hbad hagain.1 hagain.2
          exact ⟨t, hexec, fun hx => absurd hx hon, fun _ _ => hrest⟩
        · exact ⟨_, exec_mcResponse_awaited h, fun hx => absurd hx hon, fun hnone hfree => absurd ⟨hnone, hfree⟩ hagain⟩
  case starts =>
    rintro s k r c a id d i n ch op ln hp rfl rfl hops hmc hwh hn hroom rfl hm hchan hline hact hold hrun hclean hlive huse hnode h127
      hmajor
    have hg : Guarded s r i (regionCfg s r) (slotValue s (lineKey s (regionCfg s r) i)) ln :=
      ⟨⟨rfl, hm, hold, hclean, hlive, huse, rfl⟩, hnode⟩
    obtain ⟨t, o, hexec, hgrant, hrsp, hops', ho, honly⟩ :=
      exec_renormalisation_starts hp ⟨hops, nofun, fun _ => hroom⟩ rfl rfl rfl rfl rfl hline hg (by rw [hact]; decide) hrun (Nat.ne_of_lt hn) h127 hmajor
    refine ⟨t, hexec, hgrant, hrsp, ?_⟩
    rw [hops']
    exact ⟨List.mem_cons_self, ⟨o, List.mem_cons_of_mem _ List.mem_cons_self, ho⟩, honly⟩
  case commits =>
    rintro s k r c op level j old l hp rfl hops hwork hregion hnode hcur hdone hold hcached
    have h : Committing s k r (regionCfg s r) op level j old :=
      ⟨hp, rfl, hops, hwork, hregion, hnode, hcur, hdone, hold, fun hle => Option.isSome_iff_exists.2 ⟨l, hcached hle⟩⟩
    obtain ⟨t, hexec, hgone, hgrant, hdid⟩ := exec_renormalisationCommit h
    refine ⟨t, hexec, hgone, hgrant, fun hle => ⟨_, hdid.node hle, rfl, rfl⟩, fun hlt => ?_, ?_, hdid.count, hdid.only⟩
    · rw [hdid.dyn]
      exact if_pos hlt
    · rw [hdid.dyn]
      exact commitDyn_ceiling _ _ _ _
  case evictions =>
    intro s st w n hn
    refine ⟨exec_cacheEviction_none hn, fun l => exec_cacheEviction_clean hn, ?_⟩
    rintro l k c ch hp hf hplace hd hold rfl rfl rfl hops hmc hwh
    have h : Evictable s n l (chanOf (regionCfg s l.region)) (memChan s (chanOf (regionCfg s l.region))) :=
      ⟨hp, hf, hplace, hd, hold, rfl, rfl, hops, hmc, hwh⟩
    refine ⟨fun hkind => ?tags, ?node⟩
    case tags =>
      obtain ⟨t, hexec, ⟨hmc', hline⟩, honly⟩ := evictionOfTags h hn hkind
      exact ⟨t, hexec, hmc', hline, honly⟩
    case node =>
      rintro lv j p pl tl e key ta hkind rfl hparent hlive huse hkey htl htag hpar hapart h127 he
      have hat : NodeAt s (regionCfg s l.region) (lv + 1) (j / 64) p := by
        rcases hparent with ⟨hle, hroot⟩ | ⟨hlt, hcp, hdata⟩
        · exact .inl ⟨Nat.lt_succ_of_le hle, hroot⟩
        · exact .inr ⟨hlt, pl, hcp, hdata⟩
      obtain ⟨t, hexec, ⟨hmc', hline⟩, honly, hnewtag, hroot, hentry⟩ :=
        evictionOfNode h hn rfl ⟨hkind, hat, h127, he, hlive, huse, hkey, htl⟩ htag hpar hapart
      exact ⟨t, hexec, hmc', hline, ⟨_, hnewtag, rfl, rfl⟩, fun hle => hroot (Nat.lt_succ_of_le hle),
        fun hlt => ⟨_, hentry hlt, rfl, rfl⟩, honly⟩

end Sys2Proof.Machine

/-! PROOF. What the host writes of a trunk: its keys, the release of the next key, and its control word (R339, R347, R349, R351,
R372). -/

namespace Sys2Proof.Machine

/-! ### Key writes (R339) -/

/-- The trunk uses the key that a write names. -/
def KeyBusy (w : TrunkKeySel) (x : TrunkSt) : Prop :=
  (w = .key ∧ x.state = .up) ∨ (w = .nextKey ∧ (x.txOnNext = true ∨ x.rxOnNext = true))

/-- The reference that a trunk holds as key or as next key. -/
def heldKey (s : State) (t : Trunk) (w : TrunkKeySel) : W16 := (reg s (0x4001 + t.val) (keySub w)).setWidth 16

/-- The state with another key bound in place of the held one. -/
def keyReplaced (s : State) (t : Trunk) (w : TrunkKeySel) (key : W16) : State :=
  let r := setReg (bindTrunkKey (releaseKey s (heldKey s t w)) key) (0x4001 + t.val) (keySub w) (key.setWidth 64)
  if keySub w = 3 ∧ (trunk s t).state = .up ∧ key ≠ keyNone then
    updTrunk r t fun x => { x with saltNext := sessionSalt (slotValue r key) x.nonceOwn x.noncePartner }
  else r

section
variable {s : State} {t : Trunk} {w : TrunkKeySel} {key : W16}

theorem keySub_eq_two : keySub w = 2 ↔ w = .key := by cases w <;> simp [keySub]

theorem keySub_eq_three : keySub w = 3 ↔ w = .nextKey := by cases w <;> simp [keySub]

theorem writeTrunkKey_busy (h : KeyBusy w (trunk s t)) : writeTrunkKey t (keySub w) key s = (s, some errState) := by
  rw [writeTrunkKey]
  rcases h with ⟨rfl, hup⟩ | ⟨rfl, hnext⟩
  · exact if_pos ⟨rfl, hup⟩
  · rw [if_neg (by simp [keySub])]
    exact if_pos ⟨rfl, hnext⟩

theorem writeTrunkKey_free (h : ¬KeyBusy w (trunk s t)) : writeTrunkKey t (keySub w) key s =
    if !keyRefOk key true || refRetention key then refuse errRange s
    else if key ≠ keyNone ∧ !trunkSlotOk s key then refuse errState s
    else done (keyReplaced s t w key) := by
  have hkey : ¬(keySub w = 2 ∧ (trunk s t).state = .up) := fun hc => h (.inl (hc.imp_left keySub_eq_two.mp))
  have hnext : ¬(keySub w = 3 ∧ ((trunk s t).txOnNext = true ∨ (trunk s t).rxOnNext = true)) :=
    fun hc => h (.inr (hc.imp_left keySub_eq_three.mp))
  rw [writeTrunkKey, if_neg hkey, if_neg hnext]
  rfl

theorem ne_keyNone_of_refInRange (h : refInRange key = true) : key ≠ keyNone := by
  rintro rfl
  exact absurd h (by decide)

theorem refInRange_of_keyUsable (h : keyUsable s key = true) : refInRange key = true := by
  simp only [keyUsable, Bool.and_eq_true] at h
  exact h.1.1

section
variable (hfree : ¬KeyBusy w (trunk s t))
include hfree

theorem writeTrunkKey_badRef (hk : key ≠ keyNone) (hbad : refInRange key = false ∨ refRetention key = true) :
    writeTrunkKey t (keySub w) key s = (s, some errRange) := by
  rw [writeTrunkKey_free hfree, if_pos]
  · rfl
  · rcases hbad with hbad | hbad <;> simp [keyRefOk, hbad, hk]

theorem writeTrunkKey_badSlot (hr : refInRange key = true) (hm : refRetention key = false) (hbad : trunkSlotOk s key = false) :
    writeTrunkKey t (keySub w) key s = (s, some errState) := by
  rw [writeTrunkKey_free hfree, if_neg (by simp [keyRefOk, hr, hm]), if_pos ⟨ne_keyNone_of_refInRange hr, by simp [hbad]⟩]
  rfl

theorem writeTrunkKey_done (hm : refRetention key = false) (hok : trunkSlotOk s key = true) (hr : refInRange key = true) :
    writeTrunkKey t (keySub w) key s = (keyReplaced s t w key, none) := by
  rw [writeTrunkKey_free hfree, if_neg (by simp [keyRefOk, hr, hm]), if_neg (by simp [hok])]
  rfl

end

theorem trunkSlotOk_eq_false : trunkSlotOk s key = false ↔
    keyUsable s key = false ∨ (slotOf s key).txu = true ∨ 32767 ≤ (slotOf s key).bindings := by
  simp only [trunkSlotOk, bindSaturated, Bool.and_eq_false_iff, Bool.not_eq_false', decide_eq_true_eq, ge_iff_le, or_assoc]

/-! ### What a key write leaves -/

theorem bindTrunkKey_frame (s : State) (k : W16) : bindTrunkKey s k = { s with keys := (bindTrunkKey s k).keys } := by
  unfold bindTrunkKey
  split <;> rfl

theorem slotOf_bindTrunkKey_same (hr : refInRange key = true) (hroom : (slotOf s key).bindings < 32767) :
    slotOf (bindTrunkKey s key) key = { slotOf s key with bindings := (slotOf s key).bindings + 1, txu := true } := by
  simp [bindTrunkKey, bindKey, hr, satInc, hroom]

theorem slotOf_bindTrunkKey_ne {k : W16} (h : k ≠ key) : slotOf (bindTrunkKey s key) k = slotOf s k := by
  unfold bindTrunkKey
  split
  · rfl
  · rw [slotOf_setSlot_ne h, bindKey, slotOf_setSlot_ne h]

theorem slotOf_releaseKey_ne {k : W16} (h : k ≠ key) : slotOf (releaseKey s key) k = slotOf s k := by
  unfold releaseKey
  split
  · exact slotOf_setSlot_ne h
  · rfl

theorem slotOf_keyReplaced (k : W16) :
    slotOf (keyReplaced s t w key) k = slotOf (bindTrunkKey (releaseKey s (heldKey s t w)) key) k := by
  unfold keyReplaced
  dsimp only
  split <;> rfl

theorem reg_keyReplaced : reg (keyReplaced s t w key) (0x4001 + t.val) (keySub w) = key.setWidth 64 := by
  unfold keyReplaced
  dsimp only
  split <;> exact reg_setReg_same _ _ _ _

/-- A key write changes the settings, the key slots and the salt of the next key. -/
theorem keyReplaced_frame : keyReplaced s t w key = { s with
    regs := (keyReplaced s t w key).regs, keys := (keyReplaced s t w key).keys, trunks := (keyReplaced s t w key).trunks } := by
  unfold keyReplaced
  dsimp only
  rw [bindTrunkKey_frame, releaseKey_frame]
  split <;> rfl

/-- The new key has one user more and the mark of a trunk; the key before it has one user less. -/
theorem keyReplaced_slots (hne : heldKey s t w ≠ key) (hr : refInRange key = true) (hroom : (slotOf s key).bindings < 32767) :
    slotOf (keyReplaced s t w key) key = { slotOf s key with bindings := (slotOf s key).bindings + 1, txu := true } ∧
      (refInRange (heldKey s t w) = true →
        (slotOf (keyReplaced s t w key) (heldKey s t w)).bindings = (slotOf s (heldKey s t w)).bindings - 1) := by
  have hsame : slotOf (releaseKey s (heldKey s t w)) key = slotOf s key := slotOf_releaseKey_ne hne.symm
  constructor
  · rw [slotOf_keyReplaced, slotOf_bindTrunkKey_same hr (by rwa [hsame]), hsame]
  · intro hold
    rw [slotOf_keyReplaced, slotOf_bindTrunkKey_ne hne, releaseKey_bindings hold]

end

/-! ### The commands on a trunk's keys -/

section
variable {sec : Bool} {priv : BitVec 2} {s r : State} {t : Trunk} {w : TrunkKeySel} {key : W16}

theorem writeTransportObj_key : writeTransportObj t (keySub w) (wordBytes key) s = writeTrunkKey t (keySub w) key s := by
  have hv : valueOf (wordBytes key) = key.toNat := by
    rw [wordBytes, valueOf_toBE]
    exact Nat.mod_eq_of_lt key.isLt
  cases w <;> simp [writeTransportObj, keySub, hv]

section
variable (h : hostWrites sec priv (0x4001 + t.val) (keySub w) (wordBytes key) s = true)
include h

theorem exec_trunkKeyWrite_done (he : writeTrunkKey t (keySub w) key s = (r, none)) :
    exec (.trunkKeyWrite (.host sec priv) t w key) s = .next (hostDone r) :=
  congrArg Host.Outcome.next (commandWrite_host_done h (writeTransportObj_key.trans he))

theorem exec_trunkKeyWrite_refused {c : W32} (he : writeTrunkKey t (keySub w) key s = (s, some c)) :
    exec (.trunkKeyWrite (.host sec priv) t w key) s = .next (hostRefused sec priv c s) :=
  congrArg Host.Outcome.next (commandWrite_host_refused h (writeTransportObj_key.trans he))

end

section
variable (h : hostWrites sec priv (0x4001 + t.val) 0x0B [1] s = true)
include h

theorem exec_releaseNextKey_refused (hb : (trunk s t).txOnNext = true ∨ (trunk s t).rxOnNext = true) :
    exec (.releaseNextKey (.host sec priv) t) s = .next (hostRefused sec priv errState s) :=
  have he : releaseNext t s = (s, some errState) := if_pos hb
  congrArg Host.Outcome.next (commandWrite_host_refused h he)

theorem exec_releaseNextKey_done (htx : (trunk s t).txOnNext = false) (hrx : (trunk s t).rxOnNext = false) :
    exec (.releaseNextKey (.host sec priv) t) s =
      .next (hostDone (setReg (releaseKey s (trunkNextKey s t)) (0x4001 + t.val) 3 0x4000)) :=
  have he : releaseNext t s = (setReg (releaseKey s (trunkNextKey s t)) (0x4001 + t.val) 3 0x4000, none) :=
    if_neg (by simp [htx, hrx])
  congrArg Host.Outcome.next (commandWrite_host_done h he)

end
end

/-! ### The control word (R347, R351, R372, Table 10.3) -/

/-- The control word with enable as given and the lane mask it holds. -/
def controlWord (s : State) (t : Trunk) (on : Bool) : W64 := BitVec.ofNat 64 (2 * (laneMask s t).toNat + on.toNat)

/-- The state with that control word. -/
def controlled (s : State) (t : Trunk) (on : Bool) : State := setReg s (0x4005 + t.val) 1 (controlWord s t on)

section
variable (s : State) (t : Trunk) (on : Bool)

theorem controlWord_toNat : (controlWord s t on).toNat = 2 * (laneMask s t).toNat + on.toNat := by
  have hmask := (laneMask s t).isLt
  have hon := on.toNat_le
  rw [controlWord, BitVec.toNat_ofNat]
  omega

theorem bit_controlWord : bit (controlWord s t on) 0 = on := by
  rw [bit, BitVec.getLsbD, controlWord_toNat, Nat.testBit_zero]
  cases on <;> simp

theorem field_controlWord : field (controlWord s t on) 8 1 = (laneMask s t).toNat := by
  have hmask := (laneMask s t).isLt
  have hon := on.toNat_le
  rw [field, controlWord_toNat]
  omega

theorem controlWord_read : BitVec.ofNat 64 (valueOf (controlBytes s t on)) = controlWord s t on := by
  have hmask := (laneMask s t).isLt
  have hon := on.toNat_le
  rw [controlBytes, valueOf_toBE, Nat.mod_eq_of_lt (by omega), controlWord]

theorem writeTrunkControl_controlBytes : writeTrunkControl t (controlBytes s t on) s =
    if (trunk s t).state = .disabled then
      done (if on then enterGrant (updTrunk (controlled s t on) t (fun x => { x with failRaised := false })) t
        else controlled s t on)
    else if on == trunkEnabled s t then done s
    else if on then done (controlled s t on)
    else if (trunk s t).state = .up then done (startRetrain (controlled s t on) t 8)
    else done (enterDisabled (controlled s t on) t) := by
  simp only [writeTrunkControl, controlWord_read, bit_controlWord, field_controlWord, ne_eq, not_true_eq_false, if_false]
  rfl

@[simp] theorem trunk_controlled (u : Trunk) : trunk (controlled s t on) u = trunk s u := rfl

theorem reg_controlled : reg (controlled s t on) (0x4005 + t.val) 1 = controlWord s t on := reg_setReg_same _ _ _ _

theorem trunkEnabled_controlled : trunkEnabled (controlled s t on) t = on := by
  rw [trunkEnabled, reg_controlled, bit_controlWord]

end

/-! ### RETRAIN (R372) -/

theorem SameKeys.unitKey {s r : State} (h : SameKeys s r) (k : W16) (salt : BitVec 96) :
    unitKey r k salt = Machine.unitKey s k salt := by
  have huse : (slotOf r k).usage = (slotOf s k).usage := (congrArg KeySlot.usage (h.fields k) :)
  have huses : keyUsable r k = keyUsable s k := by simp only [keyUsable, h.effState, huse]
  rw [Machine.unitKey, Machine.unitKey, huses, h.value, h.h256]

theorem txKey_controlled (s : State) (t : Trunk) (on : Bool) : txKey (controlled s t on) t = txKey s t := by
  have hkeys : SameKeys s (controlled s t on) := .of_slots rfl rfl
  have hreg (j : Nat) (hj : j < 256) : reg (controlled s t on) (0x4001 + t.val) j = reg s (0x4001 + t.val) j :=
    reg_setReg_ne _ _ _ _ _ _ (by simp only [oa]; omega)
  simp only [txKey, trunk_controlled, trunkKey, trunkNextKey, hreg 2 (by decide), hreg 3 (by decide), hkeys.unitKey]

section
variable {s : State} {t : Trunk} (c : Nat)

theorem startRetrain_keyless (hk : txKey s t = none) : startRetrain s t c = trunkDown s t c := by
  simp [startRetrain, hk]

/-- The trunk with RETRAIN to be sent in the next four groups. -/
def retraining (c : Nat) (x : TrunkSt) : TrunkSt :=
  { x with retrainLeft := 4, retrainCause := c, commands := x.commands ++ [cmdRetrain c 0] }

theorem startRetrain_first (hk : (txKey s t).isSome = true) (hl : (trunk s t).retrainLeft = 0) :
    startRetrain s t c = setTrunk s t (retraining c (trunk s t)) := by
  obtain ⟨k, hk⟩ := Option.isSome_iff_exists.mp hk
  simp [startRetrain, hk, hl]
  rfl

end

/-! ### The commands on a trunk's control word -/

section
variable {sec : Bool} {priv : BitVec 2} {s r : State} {t : Trunk} {on : Bool} {c : Instr}

theorem exec_trunkControl_done (hc : c = (if on then .trunkEnable (.host sec priv) t else .trunkDisable (.host sec priv) t))
    (h : hostWrites sec priv (0x4005 + t.val) 1 (controlBytes s t on) s = true)
    (he : writeTrunkControl t (controlBytes s t on) s = (r, none)) : exec c s = .next (hostDone r) := by
  have hw : exec c s = .next (commandWrite (.host sec priv) (0x4005 + t.val) 1 (controlBytes s t on) (writeMgmtObj t 1) s) := by
    rw [hc]
    cases on <;> rfl
  exact hw.trans (congrArg Host.Outcome.next (commandWrite_host_done h he))

/-- In DISABLED, enable asks for the training grant (R351). -/
theorem writeTrunkControl_enables (hd : (trunk s t).state = .disabled) :
    ∃ r, writeTrunkControl t (controlBytes s t true) s = (r, none) ∧ (trunk r t).state = .grant ∧
      reg r (0x4005 + t.val) 1 = controlWord s t true ∧
      (grantHeld r (.training t) = true ∨ grantQueued r (.training t) = true) := by
  refine ⟨_, (writeTrunkControl_controlBytes s t true).trans (if_pos hd), ?_, ?_, requestGrant_asked _ _ _⟩
  · rw [if_pos rfl, trunk_enterGrant_same]
  · rw [if_pos rfl, reg, enterGrant_frame]
    exact reg_controlled s t true

/-- An enabled trunk that is disabled and not up ends its training (R349); one that is up sends RETRAIN, or goes down at once
where it has no key (R372). -/
theorem writeTrunkControl_disables (hd : (trunk s t).state ≠ .disabled) (he : trunkEnabled s t = true) :
    ∃ r, writeTrunkControl t (controlBytes s t false) s = (r, none) ∧ reg r (0x4005 + t.val) 1 = controlWord s t false ∧
      ((trunk s t).state ≠ .up → (trunk r t).state = .disabled ∧ grantHeld r (.training t) = false ∧ (trunk r t).lanes = []) ∧
      ((trunk s t).state = .up → (txKey s t).isSome = true → (trunk s t).retrainLeft = 0 →
        trunk r t = retraining 8 (trunk s t)) ∧
      ((trunk s t).state = .up → txKey s t = none → (trunk r t).state = .disabled ∧ (trunk r t).lastDown = 8) := by
  have hw := writeTrunkControl_controlBytes s t false
  rw [if_neg hd, if_neg (by simp [he]), if_neg Bool.false_ne_true] at hw
  by_cases hu : (trunk s t).state = .up
  · rw [if_pos hu] at hw
    refine ⟨_, hw, ?reg, fun hn => absurd hu hn, fun _ hk hl => ?sent, fun _ hk => ?down⟩
    case reg =>
      rw [← reg_controlled s t false, startRetrain]
      split
      · rw [reg, trunkDown_frame]
        exact reg_raise _ _ _ _ _
      · split <;> rfl
    case sent => rw [startRetrain_first (s := controlled s t false) 8 (by rwa [txKey_controlled]) hl, trunk_setTrunk_same, trunk_controlled]
    case down =>
      rw [startRetrain_keyless (s := controlled s t false) 8 (by rwa [txKey_controlled]), trunk_trunkDown_same, trunkEnabled_controlled]
      exact ⟨downed_state _ _ _, downed_lastDown _ _ _⟩
  · rw [if_neg hu] at hw
    refine ⟨_, hw, reg_controlled s t false, fun _ => ⟨?_, releaseGrant_gone _ _, ?_⟩, fun h => absurd h hu, fun h => absurd h hu⟩
    · rw [trunk_enterDisabled_same]
    · rw [trunk_enterDisabled_same]

section
variable (h : hostWrites sec priv (0x4005 + t.val) 0x0C [1] s = true)
include h

theorem exec_retrain_refused (hu : (trunk s t).state ≠ .up) :
    exec (.retrain (.host sec priv) t) s = .next (hostRefused sec priv errState s) :=
  have he : writeMgmtObj t 0x0C [1] s = (s, some errState) := if_pos hu
  congrArg Host.Outcome.next (commandWrite_host_refused h he)

theorem exec_retrain_done (hu : (trunk s t).state = .up) (hk : (txKey s t).isSome = true) (hl : (trunk s t).retrainLeft = 0) :
    exec (.retrain (.host sec priv) t) s = .next (hostDone (setTrunk s t (retraining 6 (trunk s t)))) :=
  have he : writeMgmtObj t 0x0C [1] s = (startRetrain s t 6, none) :=
    (if_neg (not_not_intro hu)).trans (if_neg (not_not_intro (valueOf_single 1)))
  startRetrain_first 6 hk hl ▸ congrArg Host.Outcome.next (commandWrite_host_done h he)

end
end

end Sys2Proof.Machine

/-! PROOF. Training from the first TS1 to the own TS3: proposals, agreement, failures and their backoff, and what the lanes and the
partner's LSTAT tell (R351, R352, R354 to R357, R359, R372). -/

namespace Sys2Proof.Machine

/-- The later of two writes of a trunk stands, also in the store. -/
theorem setTrunk_setTrunk {x : TrunkSt} (h : x ≠ TrunkSt.default) (s : State) (t : Trunk) (y : TrunkSt) :
    setTrunk (setTrunk s t x) t y = setTrunk s t y := by
  simp only [setTrunk, spSet_spSet_same (d := trunkDefault) s.trunks y h]

theorem ne_default_of_state {x : TrunkSt} (h : x.state ≠ .disabled) : x ≠ TrunkSt.default := by
  rintro rfl
  exact h rfl

/-! ### A failure of training (R359) -/

/-- The trunk in its backoff after a failure with a code. -/
def backedOff (c now : Nat) (x : TrunkSt) : TrunkSt :=
  { quiet x with state := .backoff, failures := x.failures + 1, failRaised := true, lastFail := c, backoffStart := now }

section
variable (s : State) (t : Trunk) (c : Nat)

theorem trainingFailure_state : ∃ e, trainingFailure s t c = { mgmtCtr (setTrunk s t (backedOff c s.now (trunk s t))) t 3 1 with
    grants := (releaseGrant s (.training t)).grants, events := e } := by
  unfold trainingFailure
  dsimp only
  split
  · rw [raiseTrunk, raise_frame]
    exact ⟨_, rfl⟩
  · exact ⟨s.events, rfl⟩

theorem trunk_trainingFailure_same : trunk (trainingFailure s t c) t = backedOff c s.now (trunk s t) := by
  obtain ⟨e, he⟩ := trainingFailure_state s t c
  rw [he]
  exact trunk_setTrunk_same s t _

theorem trainingFailure_grantGone : grantHeld (trainingFailure s t c) (.training t) = false := by
  obtain ⟨e, he⟩ := trainingFailure_state s t c
  rw [he]
  exact releaseGrant_gone s _

theorem ctr_trainingFailure : ctr (trainingFailure s t c) (0x4015 + t.val) 3 = satAdd64 (ctr s (0x4015 + t.val) 3) 1 := by
  obtain ⟨e, he⟩ := trainingFailure_state s t c
  rw [he]
  exact ctr_bumpBy_same _ _ 3 1

end

/-! ### ALIGN (R352, R354) -/

section
variable (s : State) (t : Trunk)

theorem enterAlign_restarts : (trunk (enterAlign s t) t).state = .align ∧ (trunk (enterAlign s t) t).ts1Partner = none ∧
    (trunk (enterAlign s t) t).trainStart = s.now := by
  rw [enterAlign, trunk_updTrunk_same]
  exact ⟨rfl, rfl, rfl⟩

theorem enterGrant_asks : (trunk (enterGrant s t) t).state = .grant ∧
    (grantHeld (enterGrant s t) (.training t) = true ∨ grantQueued (enterGrant s t) (.training t) = true) :=
  ⟨by rw [trunk_enterGrant_same], requestGrant_asked _ _ _⟩

end

theorem closeFlit_length (b : Bytes) : (closeFlit b).length = 32 := by
  simp [closeFlit, fitTo, zeros]

section
variable {s : State} {t : Trunk} {f : Bytes}

theorem tryPropose_unpartnered (h : (trunk s t).ts1Partner = none) : tryPropose s t = s := by
  unfold tryPropose
  dsimp only
  rw [h]
  cases (trunk s t).state <;> rfl

section
variable (ha : (trunk s t).state = .align) (hf : (trunk s t).ts1Partner = some f)
include ha hf

/-- Without keys at both ends, random values or lanes enough there is no proposal. -/
theorem tryPropose_waits (h : refInRange (trunkKey s t) = false ∨ bit (byteAt f 1) 0 = false ∨ drbgServes s = false ∨
      widthOf (proposalOf s t (ts1Of f)) < minWidth s t ∨ widthOf (proposalOf s t (ts1Of f)) < (byteAt f 6).toNat) :
    tryPropose s t = s := by
  simp only [tryPropose, ha, hf]
  refine if_pos ?_
  simp only [Bool.or_eq_true, Bool.not_eq_true', decide_eq_true_eq, or_assoc]
  exact h

/-- The trunk that has sent its proposal: the own TS1, the key choice, the lane set and the nonce. -/
def proposing (s : State) (t : Trunk) (own : Bytes) (useNext : Bool) (mask : Byte) (nonce : Block) (x : TrunkSt) : TrunkSt :=
  { x with state := .exchange, ts1Own := own, nonceOwn := nonce, laneSet := mask, useNext := useNext
           ts2Own := ts2Flit s t useNext mask nonce, ts2Partner := none }

/-- The proposal of R354 is made with a fresh nonce. -/
theorem tryPropose_proposes (hkey : refInRange (trunkKey s t) = true) (hbound : bit (byteAt f 1) 0 = true)
    (hd : drbgServes s = true) (he : (trunk s t).epoch ≠ 0) (hw : minWidth s t ≤ widthOf (proposalOf s t (ts1Of f)))
    (hw' : (byteAt f 6).toNat ≤ widthOf (proposalOf s t (ts1Of f))) :
    ∃ own useNext, tryPropose s t = updTrunk (draw s 16).2 t
      (proposing s t own useNext (proposalOf s t (ts1Of f)) (BitVec.ofNat 128 (beNat (draw s 16).1))) := by
  have hepoch : needEpoch s t = s := if_pos (.inl he)
  have hgo : ¬(!refInRange (trunkKey s t) || !(ts1Of f).keyBound || !drbgServes s ||
      decide (widthOf (proposalOf s t (ts1Of f)) < minWidth s t) ||
      decide (widthOf (proposalOf s t (ts1Of f)) < (ts1Of f).minWidth)) = true := by
    simp only [Bool.or_eq_true, Bool.not_eq_true', decide_eq_true_eq, not_or, Bool.not_eq_false, Nat.not_lt]
    exact ⟨⟨⟨⟨hkey, hbound⟩, hd⟩, hw⟩, hw'⟩
  simp only [tryPropose, ha, hf, hepoch]
  rw [if_neg hgo]
  exact ⟨_, _, rfl⟩

end

/-! ### An accepted TS1 (R354, R359) -/

/-- The trunk once a TS1 has told whether the partner has a key. -/
def partnerSeen (f : Bytes) (x : TrunkSt) : TrunkSt := { x with partnerUnbound := !bit (byteAt f 1) 0 }

/-- The trunk that holds a TS1 of the partner. -/
def partnerHeld (f : Bytes) (x : TrunkSt) : TrunkSt := { x with partnerUnbound := !bit (byteAt f 1) 0, ts1Partner := some f }

/-- The proposal does not depend on the TS1 that is held. -/
theorem proposalOf_held (s : State) (t : Trunk) (f : Bytes) :
    proposalOf (setTrunk s t (partnerHeld f (trunk s t))) t (ts1Of f) = proposalOf s t (ts1Of f) := by
  rw [proposalOf, trunk_setTrunk_same]
  rfl

theorem trunk_draw (s : State) (n : Nat) (t : Trunk) : trunk (draw s n).2 t = trunk s t := by
  obtain ⟨d, hd, -⟩ := draw_setDrbg s n
  rw [hd]
  rfl

theorem draw_setTrunk (s : State) (t : Trunk) (x : TrunkSt) (n : Nat) :
    draw (setTrunk s t x) n = ((draw s n).1, setTrunk (draw s n).2 t x) := by
  rw [draw, draw]
  rfl

section
variable (hp : pathOn s = true) (hf : flitAccepted 0x10 f = true)
include hp hf

theorem exec_ts1Received (hd : (trunk s t).state ≠ .disabled) : exec (.ts1Received t f) s = .next (acceptTs1 s t f) :=
  congrArg Host.Outcome.next (if_pos (by rw [hp, hf]; simpa using hd))

theorem exec_ts1Received_seen (h : (trunk s t).state = .grant ∨ (trunk s t).state = .up) :
    exec (.ts1Received t f) s = .next (setTrunk s t (partnerSeen f (trunk s t))) := by
  rw [exec_ts1Received hp hf (by rcases h with h | h <;> simp [h])]
  rcases h with h | h <;> simp only [acceptTs1, trunk_updTrunk_same, h] <;> rfl

theorem exec_ts1Received_backoff (h : (trunk s t).state = .backoff) :
    exec (.ts1Received t f) s = .next (enterGrant (updTrunk s t (partnerSeen f)) t) := by
  rw [exec_ts1Received hp hf (by simp [h])]
  simp only [acceptTs1, trunk_updTrunk_same, h]
  rfl

/-- A TS1 with this node's own number ends the training (R359). -/
theorem exec_ts1Received_own (h : (trunk s t).state = .align ∨ (trunk s t).state = .exchange ∨ (trunk s t).state = .confirm)
    (hn : beNat (slice f 2 2) = (nodeId s t).toNat) :
    exec (.ts1Received t f) s = .next (trainingFailure (updTrunk s t (partnerSeen f)) t 3) := by
  have hsame : decide ((ts1Of f).node = (nodeId (updTrunk s t (partnerSeen f)) t).toNat) = true := decide_eq_true hn
  rw [exec_ts1Received hp hf (by rcases h with h | h | h <;> simp [h])]
  rcases h with h | h | h <;> simp only [acceptTs1, trunk_updTrunk_same, h] <;>
    exact congrArg Host.Outcome.next (if_pos hsame)

/-- A TS1 after agreement is a partner that trains anew (R354). -/
theorem exec_ts1Received_anew (h : (trunk s t).state = .exchange ∨ (trunk s t).state = .confirm)
    (hn : beNat (slice f 2 2) ≠ (nodeId s t).toNat) :
    exec (.ts1Received t f) s = .next (enterAlign (updTrunk s t (partnerSeen f)) t) := by
  have hother : ¬decide ((ts1Of f).node = (nodeId (updTrunk s t (partnerSeen f)) t).toNat) = true :=
    fun hc => hn (of_decide_eq_true hc)
  rw [exec_ts1Received hp hf (by rcases h with h | h <;> simp [h])]
  rcases h with h | h <;> simp only [acceptTs1, trunk_updTrunk_same, h] <;>
    exact congrArg Host.Outcome.next (if_neg hother)

/-- In ALIGN the partner's TS1 is kept and may be answered by a proposal. -/
theorem exec_ts1Received_align (h : (trunk s t).state = .align) (hn : beNat (slice f 2 2) ≠ (nodeId s t).toNat) :
    exec (.ts1Received t f) s =
      .next (tryPropose (setTrunk s t (partnerHeld f (trunk s t))) t) := by
  have hother : ¬decide ((ts1Of f).node = (nodeId (updTrunk s t (partnerSeen f)) t).toNat) = true :=
    fun hc => hn (of_decide_eq_true hc)
  have hne : partnerSeen f (trunk s t) ≠ TrunkSt.default :=
    ne_default_of_state (show (trunk s t).state ≠ .disabled by simp [h])
  have htwo : updTrunk (updTrunk s t (partnerSeen f)) t (fun x => { x with ts1Partner := some f }) =
      setTrunk s t (partnerHeld f (trunk s t)) := by
    rw [updTrunk, trunk_updTrunk_same]
    exact setTrunk_setTrunk hne s t _
  rw [exec_ts1Received hp hf (by simp [h]), ← htwo]
  simp only [acceptTs1, trunk_updTrunk_same, h]
  exact congrArg Host.Outcome.next (if_neg hother)

/-- The proposal that answers the partner's first TS1 (R354). -/
theorem exec_ts1Received_proposes (h : (trunk s t).state = .align) (hn : beNat (slice f 2 2) ≠ (nodeId s t).toNat)
    (hkey : refInRange (trunkKey s t) = true) (hbound : bit (byteAt f 1) 0 = true) (hd : drbgServes s = true)
    (he : (trunk s t).epoch ≠ 0) (hw : minWidth s t ≤ widthOf (proposalOf s t (ts1Of f)))
    (hw' : (byteAt f 6).toNat ≤ widthOf (proposalOf s t (ts1Of f))) :
    ∃ r, exec (.ts1Received t f) s = .next r ∧ (trunk r t).state = .exchange ∧
      (trunk r t).laneSet = proposalOf s t (ts1Of f) ∧ (trunk r t).ts1Partner = some f ∧
      (trunk r t).nonceOwn = BitVec.ofNat 128 (beNat (draw s 16).1) ∧ (trunk r t).ts2Own.length = 32 ∧
      r = { s with trunks := r.trunks, keys := (draw s 16).2.keys } := by
  have hx := trunk_setTrunk_same s t (partnerHeld f (trunk s t))
  have hprop := proposalOf_held s t f
  obtain ⟨own, useNext, hgo⟩ := tryPropose_proposes (s := setTrunk s t (partnerHeld f (trunk s t)))
    (by rw [hx]; exact h) (by rw [hx]; rfl) hkey hbound hd (by rw [hx]; exact he) (hprop ▸ hw) (hprop ▸ hw')
  obtain ⟨d, hdraw, -⟩ := draw_setDrbg s 16
  rw [hprop, draw_setTrunk] at hgo
  dsimp only at hgo
  refine ⟨_, (exec_ts1Received_align hp hf h hn).trans (congrArg Host.Outcome.next hgo), ?_⟩
  rw [trunk_updTrunk_same, trunk_setTrunk_same, hdraw]
  exact ⟨rfl, rfl, rfl, rfl, closeFlit_length _, rfl⟩

theorem exec_ts1Received_waits (h : (trunk s t).state = .align) (hn : beNat (slice f 2 2) ≠ (nodeId s t).toNat)
    (hw : refInRange (trunkKey s t) = false ∨ bit (byteAt f 1) 0 = false ∨ drbgServes s = false ∨
      widthOf (proposalOf s t (ts1Of f)) < minWidth s t ∨ widthOf (proposalOf s t (ts1Of f)) < (byteAt f 6).toNat) :
    exec (.ts1Received t f) s = .next (setTrunk s t (partnerHeld f (trunk s t))) := by
  have hx := trunk_setTrunk_same s t (partnerHeld f (trunk s t))
  refine (exec_ts1Received_align hp hf h hn).trans (congrArg Host.Outcome.next (tryPropose_waits ?_ (f := f) ?_ ?_))
  · rw [hx]; exact h
  · rw [hx]; rfl
  · rw [proposalOf_held]; exact hw

end

/-! ### Salts, and an accepted TS2 (R311, R354 to R356) -/

/-- The salt of a key under the nonces of a trunk. -/
def keySalt (s : State) (k : W16) (x : TrunkSt) : BitVec 96 :=
  if keyUsable s k then sessionSalt (slotValue s k) x.nonceOwn x.noncePartner else 0

/-- The trunk with the salts of its keys. -/
def salted (s : State) (t : Trunk) (x : TrunkSt) : TrunkSt :=
  { x with salt := keySalt s (trunkKey s t) x, saltNext := keySalt s (trunkNextKey s t) x }

theorem setSalts_eq (s : State) (t : Trunk) : setSalts s t = updTrunk s t (salted s t) := by
  rw [setSalts, updTrunk, updTrunk]
  rfl

theorem OnlyTrunk.salts {x : TrunkSt} {s r : State} {t : Trunk} (h : OnlyTrunk t x s r) :
    OnlyTrunk t (salted s t x) s (setSalts r t) := by
  rw [setSalts_eq]
  refine h.updTo ?_
  rw [h.frame]
  rfl

/-- The trunk that has agreed on a lane set by a partner TS2. -/
def agreed (mask : Byte) (f : Bytes) (x : TrunkSt) : TrunkSt :=
  { x with state := .confirm, laneSet := mask, ts2Partner := some f, noncePartner := BitVec.ofNat 128 (beNat (slice f 6 16)) }

/-- The trunk with its own TS3 ready, while its receive queues may hold it back. -/
def awaiting (own : Bytes) (pause : Option Nat) (x : TrunkSt) : TrunkSt :=
  { x with ts3Own := own, ts3Since := none, ts3Good := false, pauseSince := pause }

/-- CONFIRM begins with the lane set, the partner's nonce and the salts of both. -/
theorem enterConfirm_only (s : State) (t : Trunk) (mask : Byte) (f : Bytes) : ∃ own pause,
    OnlyTrunk t (awaiting own pause (salted s t (agreed mask f (trunk s t)))) s (enterConfirm s t mask f) :=
  ⟨_, _, (onlyTrunk_upd t s (agreed mask f)).salts.updTo rfl⟩

theorem lowerNode_of_partner {f1 : Bytes} (h : (trunk s t).ts1Partner = some f1) :
    lowerNode s t = decide ((nodeId s t).toNat < beNat (slice f1 2 2)) := by
  simp only [lowerNode, h]
  rfl

section
variable (hp : pathOn s = true) (hf : flitAccepted 0x11 f = true) (hs : (trunk s t).state = .exchange)
include hp hf hs

theorem exec_ts2Received : exec (.ts2Received t f) s = .next (acceptTs2 s t f) :=
  congrArg Host.Outcome.next (if_pos (by rw [hp, hf, hs]; rfl))

/-- The lower node keeps its own lane set; the other takes the lower node's, if its lanes are aligned here (R354). -/
theorem exec_ts2Received_agrees (hb : bit (byteAt f 1) 0 = (trunk s t).useNext) (hl : lowerNode s t = true ∨
      ((∀ l ∈ maskLanes (byteAt f 4), (laneOf (trunk s t) l).aligned = true) ∧ minWidth s t ≤ widthOf (byteAt f 4))) :
    exec (.ts2Received t f) s =
      .next (enterConfirm s t (if lowerNode s t then (trunk s t).laneSet else byteAt f 4) f) := by
  have hsel : ¬(bit (byteAt f 1) 0 != (trunk s t).useNext) = true := by simp [hb]
  rw [exec_ts2Received hp hf hs, acceptTs2]
  rw [if_neg hsel]
  rcases hlow : lowerNode s t with _ | _
  · have hlanes := hl.resolve_left (by simp [hlow])
    rw [if_neg Bool.false_ne_true, if_pos (by simpa using hlanes), if_neg Bool.false_ne_true]
  · rfl

/-- A TS2 with another key, or with lanes that are not to be had here, sends the trunk back to ALIGN. -/
theorem exec_ts2Received_differs (h : bit (byteAt f 1) 0 ≠ (trunk s t).useNext ∨ (lowerNode s t = false ∧
      ((∃ l ∈ maskLanes (byteAt f 4), (laneOf (trunk s t) l).aligned = false) ∨ widthOf (byteAt f 4) < minWidth s t))) :
    exec (.ts2Received t f) s = .next (enterAlign s t) := by
  rw [exec_ts2Received hp hf hs, acceptTs2]
  by_cases hsel : (bit (byteAt f 1) 0 != (trunk s t).useNext) = true
  · rw [if_pos hsel]
  · obtain ⟨hlow, hlanes⟩ := h.resolve_left (by simpa using hsel)
    have hno : ¬((maskLanes (byteAt f 4)).all (fun l => (laneOf (trunk s t) l).aligned) = true ∧
        minWidth s t ≤ widthOf (byteAt f 4)) := by
      rintro ⟨hall, hw⟩
      rcases hlanes with ⟨l, hl, hna⟩ | hlt
      · exact absurd (List.all_eq_true.mp hall l hl) (by simp [hna])
      · omega
    rw [if_neg hsel, hlow, if_neg Bool.false_ne_true, if_neg hno]

end

/-! ### CONFIRM (R356, R357) -/

/-- The cycles of a pause of train_timeout that ends now. -/
def pausedFor (now : Nat) : Option Nat → Nat
  | some c => now - c
  | none => 0

section
variable (hp : pathOn s = true) (hs : (trunk s t).state = .confirm)
include hp hs

/-- The receive queues are empty: the own TS3 starts, and train_timeout runs on. -/
theorem exec_confirmDrained (hn : (trunk s t).ts3Since = none) (hd : rxDrained (trunk s t) = true) :
    exec (.confirmDrained t) s = .next (setTrunk s t { trunk s t with
      ts3Since := if (trunk s t).ts3Own.isEmpty then none else some s.now
      trainPaused := (trunk s t).trainPaused + pausedFor s.now (trunk s t).pauseSince
      pauseSince := none }) := by
  have hgo : (pathOn s && (trunk s t).state == .confirm && (trunk s t).ts3Since.isNone && rxDrained (trunk s t)) = true := by
    simp [hp, hs, hn, hd]
  show execConfirmDrained t s = _
  rw [execConfirmDrained, if_pos hgo]
  rfl

/-- A TS3 under the session key is good; any other ends the training (R357). -/
theorem exec_ts3Received {k : UnitKey} (hf : flitAccepted 0x12 f = true) (hk : sessionKey s t = some k) :
    exec (.ts3Received t f) s = .next (if slice f 16 8 = ts3Tag s t k false (f.take 16)
      then setTrunk s t { trunk s t with ts3Good := true } else trainingFailure s t 4) := by
  have hgo : (pathOn s && flitAccepted 0x12 f && (trunk s t).state == .confirm) = true := by rw [hp, hf, hs]; rfl
  show execTs3Received t f s = _
  rw [execTs3Received, if_pos hgo, hk]
  rfl

end

theorem exec_confirmDrained_idle (h : (trunk s t).ts3Since.isSome = true ∨ rxDrained (trunk s t) = false) :
    exec (.confirmDrained t) s = .next s :=
  congrArg Host.Outcome.next (if_neg (by rcases h with h | h <;> simp [h, Option.isSome_iff_ne_none.mp]))

/-! ### Flits that are not taken (R352) -/

theorem not_taken {path flit st : Bool} (h : path = false ∨ flit = false ∨ st = false) : ¬(path && flit && st) = true := by
  rcases h with rfl | rfl | rfl <;> simp

theorem exec_ts1Received_ignored (h : pathOn s = false ∨ flitAccepted 0x10 f = false ∨ (trunk s t).state = .disabled) :
    exec (.ts1Received t f) s = .next s :=
  congrArg Host.Outcome.next (if_neg (not_taken (h.imp_right (.imp_right fun hd => by simp [hd]))))

theorem exec_ts2Received_ignored (h : pathOn s = false ∨ flitAccepted 0x11 f = false ∨ (trunk s t).state ≠ .exchange) :
    exec (.ts2Received t f) s = .next s :=
  congrArg Host.Outcome.next (if_neg (not_taken (h.imp_right (.imp_right beq_false_of_ne))))

theorem exec_ts3Received_ignored (h : pathOn s = false ∨ flitAccepted 0x12 f = false ∨ (trunk s t).state ≠ .confirm) :
    exec (.ts3Received t f) s = .next s :=
  congrArg Host.Outcome.next (if_neg (not_taken (h.imp_right (.imp_right beq_false_of_ne))))

theorem exec_lstatReceived_ignored (h : pathOn s = false ∨ flitAccepted 0x13 f = false ∨ (trunk s t).state = .disabled) :
    exec (.lstatReceived t f) s = .next s :=
  congrArg Host.Outcome.next (if_neg (not_taken (h.imp_right (.imp_right fun hd => by simp [hd]))))

/-! ### Timers of training (R359) -/

section
variable (hp : pathOn s = true)
include hp

theorem exec_trainTimeout (hs : (trunk s t).state = .align ∨ (trunk s t).state = .exchange ∨ (trunk s t).state = .confirm)
    (hn : (trunk s t).pauseSince = none)
    (he : elapsed s (trunk s t).trainStart (usCycles (mgmtN s t 7) + (trunk s t).trainPaused) = true) :
    exec (.trainTimeout t) s =
      .next (trainingFailure s t (if !refInRange (trunkKey s t) || (trunk s t).partnerUnbound then 2 else 1)) :=
  congrArg Host.Outcome.next (if_pos (by rcases hs with hs | hs | hs <;> simp [hp, hs, hn, he]))

theorem exec_backoffExpiry (hs : (trunk s t).state = .backoff)
    (he : elapsed s (trunk s t).backoffStart (usCycles (backoffUs s t (trunk s t).failures)) = true) :
    exec (.backoffExpiry t) s = .next (enterGrant s t) :=
  congrArg Host.Outcome.next (if_pos (by simp [hp, hs, he]))

end

theorem exec_trainTimeout_idle (h : (trunk s t).pauseSince.isSome = true ∨
      elapsed s (trunk s t).trainStart (usCycles (mgmtN s t 7) + (trunk s t).trainPaused) = false) :
    exec (.trainTimeout t) s = .next s :=
  congrArg Host.Outcome.next (if_neg (by rcases h with h | h <;> simp [h, Option.isSome_iff_ne_none.mp]))

theorem exec_backoffExpiry_idle (h : (trunk s t).state ≠ .backoff) : exec (.backoffExpiry t) s = .next s :=
  congrArg Host.Outcome.next (if_neg (by simp [h]))

end

/-! ### Lanes (R352, R368) -/

section
variable (now : Nat)

theorem trackGood_lanes (x : TrunkSt) (l : Nat) : ∃ m, trackGood now x l = { x with lanes := m } := by
  unfold trackGood
  dsimp only
  split
  · split <;> exact ⟨_, rfl⟩
  · exact ⟨_, rfl⟩

theorem foldl_trackGood_lanes (ls : List Nat) (x : TrunkSt) : ∃ m, ls.foldl (trackGood now) x = { x with lanes := m } := by
  induction ls generalizing x with
  | nil => exact ⟨x.lanes, rfl⟩
  | cons l ls ih =>
    obtain ⟨m, hm⟩ := trackGood_lanes now x l
    obtain ⟨m', hm'⟩ := ih (trackGood now x l)
    exact ⟨m', by rw [List.foldl_cons, hm', hm]⟩

/-- The 1 ms of R368 is all that is followed of a lane. -/
theorem laneOf_trackGood_same (x : TrunkSt) (l : Nat) : ∃ g, laneOf (trackGood now x l) l = { laneOf x l with goodSince := g } := by
  unfold trackGood
  dsimp only
  split
  · split
    · exact ⟨_, rfl⟩
    · exact ⟨_, laneOf_setLane_same _ _ _⟩
  · exact ⟨_, laneOf_setLane_same _ _ _⟩

end

section
variable {s : State} {t : Trunk}

/-- LSTAT tells which lanes are aligned and which degraded at the partner (Table 10.6). -/
theorem exec_lstatReceived {f : Bytes} (hp : pathOn s = true) (hf : flitAccepted 0x13 f = true) (hs : (trunk s t).state ≠ .disabled) :
    ∃ m, exec (.lstatReceived t f) s = .next (setTrunk s t { trunk s t with
      partnerGood := byteAt f 4, partnerDegraded := byteAt f 5, lanes := m }) := by
  obtain ⟨m, hm⟩ := foldl_trackGood_lanes s.now (List.range 8)
    { trunk s t with partnerGood := byteAt f 4, partnerDegraded := byteAt f 5 }
  refine ⟨m, congrArg Host.Outcome.next ((if_pos (by rw [hp, hf]; simpa using hs)).trans ?_)⟩
  rw [updTrunk, hm]

/-- A marker of its own locks a lane that is not aligned, and the fourth aligns it. -/
theorem laneFind_own {y : Lane} (h : y.aligned = false) : (laneFind false y .own).locked = true ∧
    (laneFind false y .own).found = Nat.min 4 (y.found + 1) ∧ ((laneFind false y .own).aligned = true ↔ 3 ≤ y.found) := by
  have hinc : satInc 4 y.found = Nat.min 4 (y.found + 1) := by
    simp only [satInc, Nat.min_def]
    split <;> split <;> omega
  have hmin : Nat.min 4 (y.found + 1) = 4 ↔ 3 ≤ y.found := by
    simp only [Nat.min_def]
    split <;> omega
  simp only [laneFind, h, hinc, Bool.false_eq_true, if_false]
  split
  · next h4 => exact ⟨rfl, h4.symm, by simpa using hmin.mp h4⟩
  · next h4 => exact ⟨rfl, rfl, iff_of_false Bool.false_ne_true fun h3 => h4 (hmin.mpr h3)⟩

theorem exec_laneAlignment_own {l : Fin 8} (hp : pathOn s = true) (ha : (trunk s t).state = .align)
    (hf : (trunk s t).ts1Partner = none) (hm : (laneMask s t).getLsbD l.val = true) :
    exec (.laneAlignment t l .own) s = .next (setTrunk s t
      (trackGood s.now (setLane (trunk s t) l.val (laneFind false (laneOf (trunk s t) l.val) .own)) l.val)) := by
  have hup : trunkUp s t = false := by simp [trunkUp, ha]
  have hgo : (pathOn s && laneServed s t l.val &&
      !(trunkUp s t && ((trunk s t).active.getLsbD l.val || (trunk s t).rxActive.getLsbD l.val))) = true := by
    simp [hp, laneServed, ha, hm, hup]
  obtain ⟨m, hkeep⟩ := trackGood_lanes s.now (setLane (trunk s t) l.val (laneFind false (laneOf (trunk s t) l.val) .own)) l.val
  refine congrArg Host.Outcome.next ((if_pos hgo).trans ?_)
  dsimp only
  rw [hup, if_neg nofun]
  refine tryPropose_unpartnered ?_
  rw [trunk_updTrunk_same, hkeep]
  exact hf

end

end Sys2Proof.Machine

/-! PROOF. The start of a session: the entries that are kept, the values that begin, and what is counted and reported (R355, R358,
R360 to R362, R444). -/

namespace Sys2Proof.Machine

/-! ### Steps that count and report (R375) -/

/-- State `r` is state `s` with other counts and events, and with as many sessions of trunk `t` counted. -/
structure Noted (t : Trunk) (s r : State) : Prop where
  frame : r = { s with ctrs := r.ctrs, events := r.events }
  sessions : ctr r (0x4015 + t.val) 4 = ctr s (0x4015 + t.val) 4

section
variable {t : Trunk} {a s r : State}

theorem Noted.refl (t : Trunk) (s : State) : Noted t s s := ⟨rfl, rfl⟩

theorem Noted.trans (h : Noted t a s) (k : Noted t s r) : Noted t a r :=
  ⟨by rw [k.frame, h.frame], k.sessions.trans h.sessions⟩

theorem Noted.ite {c : Prop} [Decidable c] (h : Noted t a s) (k : Noted t a r) : Noted t a (if c then s else r) := by
  split
  · exact h
  · exact k

theorem Noted.bumpBy (h : Noted t a s) {i j : Nat} (n : Nat) (hij : oa (0x4015 + t.val) 4 ≠ oa i j) :
    Noted t a (bumpBy s i j n) :=
  h.trans ⟨rfl, ctr_bumpBy_ne s i j n _ 4 hij⟩

theorem Noted.transportCtr (h : Noted t a s) {k : Nat} (hk : k < 256) : Noted t a (transportCtr s t k) :=
  h.bumpBy 1 (by simp only [oa]; omega)

theorem Noted.mgmtCtr (h : Noted t a s) {k : Nat} (n : Nat) (hk : k ≠ 4) : Noted t a (mgmtCtr s t k n) :=
  h.bumpBy n (by simp only [oa]; omega)

theorem Noted.arrayCtr (h : Noted t a s) {i k : Nat} (n : Nat) (hk : k < 256) : Noted t a (arrayCtr s i k n) :=
  h.bumpBy n (by simp only [oa]; omega)

theorem Noted.raiseTrunk (h : Noted t a s) (j : Nat) : Noted t a (raiseTrunk s t j) :=
  h.trans ⟨by rw [Machine.raiseTrunk, raise_frame], ctr_raise _ _ _ _ _⟩

theorem Noted.trunk (h : Noted t s r) : trunk r t = Machine.trunk s t := by rw [h.frame]; rfl

end

/-! ### The entries of the new session (R361) -/

/-- The entries that the partner has not had, without those whose payload is lost. -/
def keptEntries (x : TrunkSt) (p : Ts1) : List ReplayEntry :=
  x.entries.filter fun e => !e.lost && (decide (p.ePrev ≤ e.esn) ||
    !(resumes x p && decide (x.u ≤ p.ePrev) && decide (p.ePrev ≤ x.n)))

theorem keptEntries_eq (x : TrunkSt) (p : Ts1) :
    (if (resumes x p && decide (x.u ≤ p.ePrev) && decide (p.ePrev ≤ x.n)) = true
      then x.entries.filter fun e => decide (p.ePrev ≤ e.esn) else x.entries).filter (fun e => !e.lost) = keptEntries x p := by
  unfold keptEntries
  split
  · next h => simp [h, List.filter_filter]
  · next h => simp [Bool.eq_false_iff.mpr h]

/-- The entries are kept in order, and numbered from 0. -/
theorem settleEntries_eq (s : State) (t : Trunk) (p : Ts1) : ∃ r resumed, Noted t s r ∧ settleEntries s t p =
    updTrunk r t fun x => { x with
      entries := (keptEntries (trunk s t) p).mapIdx fun i e => renumberEntry e i, resumed := resumed } := by
  unfold settleEntries
  dsimp only
  rw [keptEntries_eq]
  refine ⟨_, _, ?_, rfl⟩
  have h1 {c : Prop} [Decidable c] : Noted t s (if c then raiseTrunk (transportCtr s t 15) t 10 else s) :=
    .ite (((Noted.refl t s).transportCtr (by decide)).raiseTrunk 10) (.refl t s)
  refine Noted.arrayCtr (.ite (.mgmtCtr (.mgmtCtr (.mgmtCtr (.ite (.raiseTrunk (.mgmtCtr h1 1 ?_) 3) h1) _ ?_) _ ?_) 1 ?_)
    (.mgmtCtr (.mgmtCtr (.ite (.raiseTrunk (.mgmtCtr h1 1 ?_) 3) h1) _ ?_) _ ?_)) _ ?_ <;> decide

/-! ### The values of a new session (R355, R360, R362) -/

/-- A trunk that is up on a lane set with a list of held entries, from its partner's TS1. -/
structure Begun (mask : Byte) (entries : List ReplayEntry) (p : Ts1) (x : TrunkSt) : Prop where
  state : x.state = .up
  active : x.active = mask
  rxActive : x.rxActive = mask
  n : x.n = entries.length
  u : x.u = 0
  e : x.e = 0
  entries : x.entries = entries
  afc : x.afc = 0
  sender : x.sender = .run
  failures : x.failures = 0
  peerNode : x.peerNode = BitVec.ofNat 16 p.node

theorem freshSession_begun (s : State) (t : Trunk) (p : Ts1) (f2 : Bytes) :
    Begun (trunk s t).laneSet (trunk s t).entries p (trunk (freshSession s t p f2) t) := by
  rw [freshSession, trunk_updTrunk_same]
  exact ⟨rfl, rfl, rfl, rfl, rfl, rfl, rfl, rfl, rfl, rfl, rfl⟩

section
variable {mask : Byte} {es : List ReplayEntry} {p : Ts1} {x : TrunkSt} {s : State} {t : Trunk}

/-- The choice of a key leaves the session. -/
theorem Begun.keyed (h : Begun mask es p x) (salt : BitVec 96) :
    Begun mask es p { x with txOnNext := false, rxOnNext := false, salt := salt } := { h with }

theorem Begun.laned (h : Begun mask es p x) (lanes : Sparse Lane) : Begun mask es p { x with lanes := lanes } := { h with }

theorem Begun.waiting (h : Begun mask es p x) (hs : Sparse (Option Nat)) (st : Sparse Bool) : Begun mask es p (withWaits hs st x) :=
  { h with }

theorem promoteKey_keeps_trunk (s : State) (t : Trunk) : trunk (promoteKey s t) t =
    { trunk s t with txOnNext := false, rxOnNext := false, salt := (trunk s t).saltNext } := by
  rw [promoteKey, trunk_raiseTrunk, trunk_updTrunk_same, releaseKey_frame]
  rfl

theorem Begun.sessionKeys (h : Begun mask es p (trunk s t)) : Begun mask es p (trunk (sessionKeys s t) t) := by
  unfold Machine.sessionKeys
  split
  · rw [promoteKey_keeps_trunk]
    exact h.keyed _
  · rw [trunk_updTrunk_same]
    exact h.keyed (trunk s t).salt

theorem foldl_setLane_lanes (f : TrunkSt → Nat → Lane) (ls : List Nat) (x : TrunkSt) :
    ∃ m, ls.foldl (fun x l => setLane x l (f x l)) x = { x with lanes := m } := by
  induction ls generalizing x with
  | nil => exact ⟨x.lanes, rfl⟩
  | cons l ls ih =>
    obtain ⟨m, hm⟩ := ih (setLane x l (f x l))
    exact ⟨m, by rw [List.foldl_cons, hm]; rfl⟩

theorem Begun.lanesAtStart (h : Begun mask es p (trunk s t)) : Begun mask es p (trunk (lanesAtStart s t) t) := by
  rw [Machine.lanesAtStart, trunk_updTrunk_same]
  obtain ⟨m, hm⟩ := foldl_setLane_lanes (fun x l => { laneOf x l with
    corrected := 0, degraded := false
    goodSince := if (laneOf x l).aligned && x.partnerGood.getLsbD l then some s.now else none }) (List.range 8) (trunk s t)
  rw [hm]
  exact h.laned m

end

/-! ### Entry to UP (R358) -/

theorem ctr_updTrunk (s : State) (t : Trunk) (f : TrunkSt → TrunkSt) (i j : Nat) : ctr (updTrunk s t f) i j = ctr s i j := rfl

theorem ctr_sessionKeys (s : State) (t : Trunk) (i j : Nat) : ctr (sessionKeys s t) i j = ctr s i j := by
  unfold sessionKeys
  split
  · rw [promoteKey, raiseTrunk, ctr_raise, releaseKey_frame]
    rfl
  · rfl

/-- The state in which a trunk that has begun a session has given its grant up, counted and reported. -/
def cameUp (s : State) (t : Trunk) : State :=
  noteWaits (raiseTrunk (mgmtCtr (releaseGrant s (.training t)) t 4 1) t 0) t

theorem cameUp_reports {mask : Byte} {es : List ReplayEntry} {p : Ts1} {s : State} {t : Trunk} (h : Begun mask es p (trunk s t)) :
    Begun mask es p (trunk (cameUp s t) t) ∧ grantHeld (cameUp s t) (.training t) = false ∧
      ctr (cameUp s t) (0x4015 + t.val) 4 = satAdd64 (ctr s (0x4015 + t.val) 4) 1 ∧
      (ctlOn s = true → (cameUp s t).events.pending.getLsbD (128 + 16 * t.val) = true) := by
  obtain ⟨hs, st, hr⟩ := noteWaits_waitsMoved (raiseTrunk (mgmtCtr (releaseGrant s (.training t)) t 4 1) t 0) t
  rw [← cameUp] at hr
  refine ⟨?_, ?_, ?_, fun hc => ?_⟩
  · rw [hr.own, trunk_raiseTrunk, trunk_mgmtCtr]
    exact h.waiting hs st
  · have hgrants : (cameUp s t).grants = (releaseGrant s (.training t)).grants := by
      rw [hr.frame]
      show (raiseTrunk (mgmtCtr (releaseGrant s (.training t)) t 4 1) t 0).grants = _
      rw [raiseTrunk, raise_grants]
      rfl
    rw [grantHeld, hgrants]
    exact releaseGrant_gone s _
  · rw [ctr, hr.ctrs, raiseTrunk, raise_ctrs]
    exact ctr_bumpBy_same (releaseGrant s (.training t)) (0x4015 + t.val) 4 1
  · rw [hr.events]
    exact raiseTrunk_pending t (j := 0) hc (by decide) (by omega)

/-- What entry to UP has reached before it gives up the grant and reports. -/
def sessionBegun (s : State) (t : Trunk) (f1 f2 : Bytes) : State :=
  let s1 := setSalts (updTrunk s t (fun x => { x with partnerGood := (ts1Of f1).rxGood })) t
  lanesAtStart (sessionKeys (freshSession (settleEntries s1 t (ts1Of f1)) t (ts1Of f1) f2) t) t

section
variable (s : State) (t : Trunk) (f1 f2 : Bytes)

theorem enterUp_eq : enterUp s t f1 f2 = cameUp (sessionBegun s t f1 f2) t := rfl

/-- What the settlement of entries sees is the trunk as it was in CONFIRM, with new salts. -/
theorem sessionBegun_settles : ∃ r resumed, Noted t (setSalts (updTrunk s t (fun x => { x with partnerGood := (ts1Of f1).rxGood })) t) r ∧
    sessionBegun s t f1 f2 = lanesAtStart (sessionKeys (freshSession (updTrunk r t fun x => { x with
      entries := (keptEntries (trunk s t) (ts1Of f1)).mapIdx fun i e => renumberEntry e i, resumed := resumed }) t (ts1Of f1) f2) t) t := by
  have hsalts := (onlyTrunk_upd t s (fun x => { x with partnerGood := (ts1Of f1).rxGood })).salts
  obtain ⟨r, resumed, hnoted, hsettle⟩ := settleEntries_eq _ t (ts1Of f1)
  refine ⟨r, resumed, hnoted, ?_⟩
  rw [sessionBegun, hsettle, hsalts.own]
  rfl

theorem sessionBegun_begun : Begun (trunk s t).laneSet
    ((keptEntries (trunk s t) (ts1Of f1)).mapIdx fun i e => renumberEntry e i) (ts1Of f1) (trunk (sessionBegun s t f1 f2) t) := by
  have hsalts := (onlyTrunk_upd t s (fun x => { x with partnerGood := (ts1Of f1).rxGood })).salts
  obtain ⟨r, resumed, hnoted, hbegun⟩ := sessionBegun_settles s t f1 f2
  have hfresh := freshSession_begun (updTrunk r t fun x => { x with
    entries := (keptEntries (trunk s t) (ts1Of f1)).mapIdx fun i e => renumberEntry e i, resumed := resumed }) t (ts1Of f1) f2
  rw [trunk_updTrunk_same, hnoted.trunk, hsalts.own] at hfresh
  rw [hbegun]
  exact hfresh.sessionKeys.lanesAtStart

theorem ctr_sessionBegun : ctr (sessionBegun s t f1 f2) (0x4015 + t.val) 4 = ctr s (0x4015 + t.val) 4 := by
  obtain ⟨r, resumed, hnoted, hbegun⟩ := sessionBegun_settles s t f1 f2
  rw [hbegun, lanesAtStart, ctr_updTrunk, ctr_sessionKeys, freshSession, ctr_updTrunk, ctr_updTrunk, hnoted.sessions,
    setSalts_eq, ctr_updTrunk, ctr_updTrunk]

theorem ctlOn_sessionBegun : ctlOn (sessionBegun s t f1 f2) = ctlOn s := by
  simp [ctlOn, domainOn, sessionBegun]

/-- Entry to UP begins the session, gives the training grant up, and counts and reports it. -/
theorem enterUp_starts : let r := enterUp s t f1 f2
    Begun (trunk s t).laneSet ((keptEntries (trunk s t) (ts1Of f1)).mapIdx fun i e => renumberEntry e i) (ts1Of f1) (trunk r t) ∧
      grantHeld r (.training t) = false ∧ ctr r (0x4015 + t.val) 4 = satAdd64 (ctr s (0x4015 + t.val) 4) 1 ∧
      (ctlOn s = true → r.events.pending.getLsbD (128 + 16 * t.val) = true) := by
  have h := cameUp_reports (sessionBegun_begun s t f1 f2)
  rwa [← enterUp_eq, ctr_sessionBegun, ctlOn_sessionBegun] at h

end

section
variable {s : State} {t : Trunk}

theorem exec_sessionStart {c : Nat} {f1 f2 : Bytes} (hp : pathOn s = true) (hs : (trunk s t).state = .confirm)
    (hc : (trunk s t).ts3Since = some c) (h1 : (trunk s t).ts1Partner = some f1) (h2 : (trunk s t).ts2Partner = some f2)
    (hg : (trunk s t).ts3Good = true) (he : elapsed s c 1013 = true) :
    exec (.sessionStart t) s = .next (enterUp s t f1 f2) := by
  have hgo : (pathOn s && (trunk s t).state == .confirm && (trunk s t).ts3Good && elapsed s c fourBlocks) = true := by
    rw [hp, hs, hg, show elapsed s c fourBlocks = true from he]
    rfl
  show execSessionStart t s = _
  simp only [execSessionStart, hc, h1, h2, hgo, if_true]

theorem exec_sessionStart_idle (h : (trunk s t).ts3Since = none ∨ (trunk s t).ts3Good = false) :
    exec (.sessionStart t) s = .next s := by
  show execSessionStart t s = _
  unfold execSessionStart
  dsimp only
  split
  · next c f1 f2 hc h1 h2 =>
    have hg : (trunk s t).ts3Good = false := h.resolve_left (by simp [hc])
    simp [hg]
  · rfl

end

end Sys2Proof.Machine

/-! PROOF. Trunks train into a session: the statement as a whole (R339, R349, R351, R352, R354 to R359, R361, R372). -/

namespace Sys2Proof.Machine

/-! ### Keys and control -/

theorem trunkKeyWrite_decides (sec : Bool) (priv : BitVec 2) (t : Trunk) (w : TrunkKeySel) (key : W16) (s : State)
    (h : hostWrites sec priv (0x4001 + t.val) (keySub w) (wordBytes key) s = true) :
    (KeyBusy w (trunk s t) → exec (.trunkKeyWrite (.host sec priv) t w key) s = .next (hostRefused sec priv errState s)) ∧
    (¬KeyBusy w (trunk s t) → key ≠ 0x4000 → refInRange key = false ∨ refRetention key = true →
      exec (.trunkKeyWrite (.host sec priv) t w key) s = .next (hostRefused sec priv errRange s)) ∧
    (¬KeyBusy w (trunk s t) → refInRange key = true → refRetention key = false →
      keyUsable s key = false ∨ (slotOf s key).txu = true ∨ 32767 ≤ (slotOf s key).bindings →
      exec (.trunkKeyWrite (.host sec priv) t w key) s = .next (hostRefused sec priv errState s)) ∧
    (¬KeyBusy w (trunk s t) → refRetention key = false → keyUsable s key = true → (slotOf s key).txu = false →
      (slotOf s key).bindings < 32767 → heldKey s t w ≠ key →
      ∃ r, exec (.trunkKeyWrite (.host sec priv) t w key) s = .next r ∧
        reg r (0x4001 + t.val) (keySub w) = key.setWidth 64 ∧
        slotOf r key = { slotOf s key with bindings := (slotOf s key).bindings + 1, txu := true } ∧
        (refInRange (heldKey s t w) = true →
          (slotOf r (heldKey s t w)).bindings = (slotOf s (heldKey s t w)).bindings - 1) ∧
        r = hostDone { s with regs := r.regs, keys := r.keys, trunks := r.trunks }) := by
  refine ⟨fun hb => exec_trunkKeyWrite_refused h (writeTrunkKey_busy hb),
    fun hb hk hbad => exec_trunkKeyWrite_refused h (writeTrunkKey_badRef hb hk hbad),
    fun hb hr hm hbad => exec_trunkKeyWrite_refused h (writeTrunkKey_badSlot hb hr hm (trunkSlotOk_eq_false.mpr hbad)),
    fun hb hm hu hx hroom hne => ?_⟩
  have hr := refInRange_of_keyUsable hu
  have hok : trunkSlotOk s key = true := by
    rw [← Bool.not_eq_false, trunkSlotOk_eq_false]
    simp [hu, hx, hroom]
  obtain ⟨hnew, hold⟩ := keyReplaced_slots hne hr hroom
  exact ⟨_, exec_trunkKeyWrite_done h (writeTrunkKey_done hb hm hok hr), reg_keyReplaced, hnew, hold,
    congrArg hostDone keyReplaced_frame⟩

/-! ### The session -/

/-- A trunk that has begun a session is up with the entries of the statement. -/
theorem sessionStart_begins {s : State} {t : Trunk} {f1 f2 : Bytes} {c : Nat} {kept : List ReplayEntry} (hp : pathOn s = true)
    (hs : (trunk s t).state = .confirm) (hc : (trunk s t).ts3Since = some c) (h1 : (trunk s t).ts1Partner = some f1)
    (h2 : (trunk s t).ts2Partner = some f2) (hg : (trunk s t).ts3Good = true) (he : elapsed s c 1013 = true)
    (hk : kept = keptEntries (trunk s t) (ts1Of f1)) :
    ∃ r, exec (.sessionStart t) s = .next r ∧ (trunk r t).state = .up ∧ (trunk r t).active = (trunk s t).laneSet ∧
      (trunk r t).rxActive = (trunk s t).laneSet ∧ (trunk r t).n = kept.length ∧ (trunk r t).u = 0 ∧ (trunk r t).e = 0 ∧
      (trunk r t).entries = kept.mapIdx (fun i e => { e with esn := i, r := 0, sent := false, settled := false }) ∧
      (trunk r t).afc = 0 ∧ (trunk r t).sender = .run ∧ (trunk r t).failures = 0 ∧
      (trunk r t).peerNode = BitVec.ofNat 16 (ts1Of f1).node ∧
      grantHeld r (.training t) = false ∧ ctr r (0x4015 + t.val) 4 = satAdd64 (ctr s (0x4015 + t.val) 4) 1 ∧
      (ctlOn s = true → r.events.pending.getLsbD (128 + 16 * t.val) = true) := by
  obtain ⟨hb, hgrant, hctr, hevent⟩ := enterUp_starts s t f1 f2
  rw [← hk] at hb
  exact ⟨_, exec_sessionStart hp hs hc h1 h2 hg he, hb.state, hb.active, hb.rxActive, hb.n.trans List.length_mapIdx, hb.u, hb.e,
    hb.entries, hb.afc, hb.sender, hb.failures, hb.peerNode, hgrant, hctr, hevent⟩

/-! ### The obligation -/

/-- Settles O55: the host's writes bind keys and move the trunk, each flit is answered as the state of training says, and the
timers act when due. -/
theorem trunksTrainIntoASession : Obligations.TrunksTrainIntoASession := by
  unfold Obligations.TrunksTrainIntoASession
  refine ⟨fun sec priv t w key s h => ⟨KeyBusy w (trunk s t), heldKey s t w, Iff.rfl, rfl, trunkKeyWrite_decides sec priv t w key s h⟩,
    fun sec priv t s h => ⟨exec_releaseNextKey_refused h, exec_releaseNextKey_done h⟩, ?control,
    fun sec priv t s h => ⟨exec_retrain_refused h, exec_retrain_done h⟩, ?ignored, ?ts1, ?ts2, ?confirm, ?timers⟩
  case control =>
    rintro sec priv t s on c _ hc h rfl
    have hw := writeTrunkControl_controlBytes s t on
    refine ⟨fun hd hon => ?_, fun hd hon => ?_, fun hd he => ?_, fun hd he hon => ?_, fun hd he hon => ?_⟩
    · subst hon
      obtain ⟨r, he, hr⟩ := writeTrunkControl_enables hd
      exact ⟨_, exec_trunkControl_done hc h he, hr⟩
    · subst hon
      rw [if_pos hd, if_neg Bool.false_ne_true] at hw
      exact exec_trunkControl_done hc h hw
    · rw [if_neg hd, if_pos (by simp [he])] at hw
      exact exec_trunkControl_done hc h hw
    · subst hon
      rw [if_neg hd, if_neg (by simp [he]), if_pos rfl] at hw
      exact exec_trunkControl_done hc h hw
    · subst hon
      obtain ⟨r, he, hr⟩ := writeTrunkControl_disables hd he
      exact ⟨_, exec_trunkControl_done hc h he, hr⟩
  case ignored =>
    intro t f s
    exact ⟨fun h => exec_ts1Received_ignored (h.imp_right .inl), exec_ts2Received_ignored, exec_ts3Received_ignored,
      exec_lstatReceived_ignored⟩
  case ts1 =>
    rintro t f s _ hp rfl hf
    refine ⟨fun hd => exec_ts1Received_ignored (.inr (.inr hd)), exec_ts1Received_seen hp hf,
      fun hb => ⟨_, exec_ts1Received_backoff hp hf hb, enterGrant_asks _ t⟩, fun hs hn => ?own, fun hs hn => ?anew, ?align⟩
    case own =>
      refine ⟨_, exec_ts1Received_own hp hf hs hn, ?_⟩
      rw [trunk_trainingFailure_same, trunk_updTrunk_same]
      exact ⟨rfl, rfl, rfl, trainingFailure_grantGone _ t 3⟩
    case anew => exact ⟨_, exec_ts1Received_anew hp hf hs hn, enterAlign_restarts _ t⟩
    case align =>
      rintro mask ha hn rfl
      exact ⟨fun hkey hbound hd he hw hw' => exec_ts1Received_proposes hp hf ha hn hkey hbound hd he hw hw',
        exec_ts1Received_waits hp hf ha hn⟩
  case ts2 =>
    rintro t f f1 s _ _ hp rfl hf hs h1 rfl
    rw [← lowerNode_of_partner h1]
    refine ⟨fun hb hl => ?agrees, fun h => ⟨_, exec_ts2Received_differs hp hf hs h, (enterAlign_restarts s t).1⟩⟩
    case agrees =>
      obtain ⟨own, pause, hc⟩ := enterConfirm_only s t (if lowerNode s t then (trunk s t).laneSet else byteAt f 4) f
      refine ⟨_, exec_ts2Received_agrees hp hf hs hb hl, ?_⟩
      rw [hc.own]
      exact ⟨rfl, rfl, rfl, rfl, rfl, fun hu => if_pos hu, hc.frame⟩
  case confirm =>
    rintro t s _ hp rfl hs
    refine ⟨fun hn hd hown hpause => ?starts, fun c hn hd hpause => ?resumes, exec_confirmDrained_idle, fun f k hf hk => ?ts3,
      fun c f1 f2 kept hc h1 h2 hg he hk => sessionStart_begins hp hs hc h1 h2 hg he hk, exec_sessionStart_idle⟩
    case starts =>
      have hfull : (trunk s t).ts3Own.isEmpty = false := by simpa using hown
      rw [exec_confirmDrained hp hs hn hd, hfull, hpause]
      simp only [pausedFor, Bool.false_eq_true, if_false, Nat.add_zero]
    case resumes =>
      rw [exec_confirmDrained hp hs hn hd, hpause]
      rfl
    case ts3 =>
      refine ⟨_, exec_ts3Received hp hs hf hk, ?_⟩
      split
      · rfl
      · rw [trunk_trainingFailure_same]
        exact ⟨rfl, rfl⟩
  case timers =>
    rintro t s _ hp rfl
    refine ⟨fun hs hn he => ?timeout, exec_trainTimeout_idle, fun hs he => ⟨_, exec_backoffExpiry hp hs he, enterGrant_asks s t⟩,
      exec_backoffExpiry_idle, fun f hf hs => ?lstat, fun l ha hn hm hna => ?lane⟩
    case timeout =>
      refine ⟨_, exec_trainTimeout hp hs hn he, ?_⟩
      rw [trunk_trainingFailure_same]
      refine ⟨rfl, rfl, rfl, fun h => ?_, fun hkey hbound => ?_, ctr_trainingFailure s t _, trainingFailure_grantGone s t _⟩
      · exact if_pos (by rcases h with h | h <;> simp [h])
      · exact if_neg (by simp [hkey, hbound])
    case lstat =>
      obtain ⟨m, hexec⟩ := exec_lstatReceived hp hf hs
      refine ⟨_, hexec, ?_⟩
      rw [trunk_setTrunk_same]
      exact ⟨rfl, rfl, rfl⟩
    case lane =>
      obtain ⟨g, hg⟩ := laneOf_trackGood_same s.now
        (setLane (trunk s t) l.val (laneFind false (laneOf (trunk s t) l.val) .own)) l.val
      rw [laneOf_setLane_same] at hg
      obtain ⟨hlocked, hfound, haligned⟩ := laneFind_own hna
      refine ⟨_, exec_laneAlignment_own hp ha hn hm, ?_⟩
      rw [trunk_setTrunk_same, hg]
      exact ⟨hlocked, hfound, haligned, rfl⟩

end Sys2Proof.Machine
